-- ==== Sys2Proof/Word.lean ====
section
/-! DEFINITION. The word types of the TRD-8040 and their plainest arithmetic (R3, R4, R26). Helpers that a reading of
the spec could change stand in Machine/Operands.lean and Machine/Formats.lean. -/

namespace Sys2Proof

/-- A byte of any memory space (R4). -/
abbrev Byte := BitVec 8
/-- A scalar register, an address, a CSR (R26). -/
abbrev Word := BitVec 64
/-- A vector register (R26). -/
abbrev VReg := BitVec 2048
/-- A predicate register (R26). -/
abbrev PReg := BitVec 512
/-- An accumulator register, 128 lanes of 32 bits (R26). -/
abbrev AReg := BitVec 4096
/-- The number of a scalar or vector register (R219). -/
abbrev Reg := BitVec 5
/-- The number of a predicate register, an accumulator register or a stream port (R219). -/
abbrev Reg3 := BitVec 3

/-- A word from a natural number, modulo 2 to the 64. -/
abbrev word (n : Nat) : Word := BitVec.ofNat 64 n

/-- Bits `hi` to `lo` of a word as a number (the `v[hi:lo]` of R15). -/
abbrev bits (v : Word) (hi lo : Nat) : Nat := (v.toNat >>> lo) % 2 ^ (hi + 1 - lo)

/-- Bit `n` of a word. -/
abbrev bit (v : Word) (n : Nat) : Bool := v.getLsbD n

end Sys2Proof
end

