-- ==== Sys2Proof/Types.lean ====
section
/-! DEFINITION. The types of the operands of instructions and of the arguments of happenings. -/

namespace Sys2Proof

/-- Privilege levels, lowest first (R88, R426). -/
inductive Priv | u | s | m
  deriving DecidableEq, Repr
/-- Integer element types in the 2-bit coding (R220). -/
inductive ITy | i8 | i16 | i32 | i4
  deriving DecidableEq, Repr
/-- Float element types in the 2-bit coding (R220). -/
inductive FTy | f32 | bf16 | f16
  deriving DecidableEq, Repr
/-- Element types in the 3-bit coding (R221). -/
inductive Ty3 | i8 | i16 | i32 | f32 | bf16 | f16 | e4m3 | e5m2
  deriving DecidableEq, Repr
/-- Rounding modes (R168). -/
inductive RMode | rne | rtz | rup | rdn
  deriving DecidableEq, Repr
/-- Types of VMACC (R225). -/
inductive MacTy | bf16 | f16
  deriving DecidableEq, Repr
/-- Types of VDOT2 (R225). -/
inductive Dot2Ty | bf16 | f16 | i16
  deriving DecidableEq, Repr
/-- Types of VDOT4 (R225). -/
inductive Dot4Ty | e4m3 | e5m2 | i8
  deriving DecidableEq, Repr
/-- Element widths of VBCAST (R225). -/
inductive BcastW | w8 | w16 | w32 | w64
  deriving DecidableEq, Repr
/-- Operand pairs of a matrix product, A then B (R227). -/
inductive Pair | i8i8 | e4m3e4m3 | e4m3e5m2 | e5m2e4m3 | e5m2e5m2 | b8b8 | o4o4 | bf16bf16 | f16f16
  deriving DecidableEq, Repr

/-- Where a launch header comes from (R106): an offset of the launch windows of a tenant slot, or LAUNCH of a context whose destination
register awaits the answer `id` (R375). -/
inductive HdrSrc
  | window (t off : Nat) (posted : Bool)
  | launch (h fid id : Nat)
  deriving DecidableEq, Repr

/-- Who asks for a pre-emption (R109): the dispatcher for a placement, a PREQ with the number of its record (R258), a
scan that drains its core (R262), or a waiter on a ticket of the firing (R436). -/
inductive PreqBy
  | dispatcher
  | preq (id : Nat)
  | scan
  | ticket
  deriving DecidableEq, Repr

/-- What a remote atomic asks for (R362), as far as the owner needs it. -/
structure AtomicOp where
  op : Nat
  narrow : Bool
  nr : Bool
  v : Word
  e : Word
  deriving DecidableEq, Repr

/-- What a request at an export window asks for (R402). -/
inductive WinKind
  | read (n : Nat)
  | write (bytes : List Byte)
  | atomic (a : AtomicOp) (tenant vrid serial ack epoch copyn age : Nat)
  deriving DecidableEq, Repr

/-- A request at an export window (R402): the module that sent it and its tag there, the owner tag, the generation and
the offset it names, and what it asks for. -/
structure WinReq where
  src : Nat
  tag : Nat
  otag : Nat
  gen : Nat
  off : Nat
  kind : WinKind
  deriving DecidableEq, Repr

/-- What a datagram carries (R400 to R403). A reply answers a request of this module by its tag with a code (0 done,
1 DENIED, 2 STALE, 3 outcome unknown, 4 aborted at the owner), a result and the bytes read. -/
inductive DgBody
  | message (L ch : Nat) (words : List Word) (srcw : Word)
  | request (w : Nat) (rq : WinReq)
  | reply (tag code : Nat) (v : Word) (epoch : Nat) (bytes : List Byte)
  deriving DecidableEq, Repr

/-- A Cleotte Link datagram (R400). -/
structure Datagram where
  dst : Nat
  src : Nat
  otag : Nat
  key : Nat
  body : DgBody
  deriving DecidableEq, Repr

/-- Where a soft error struck (R452). -/
inductive ErrSite
  /-- A corrected error at a physical address, or at 0. -/
  | corrected (L : Nat) (pa : Nat)
  /-- A load, vector load, ACCLD, fetch, descriptor load, stream element or register file read of context `h`. -/
  | load (h : Nat) (va : Word)
  /-- A word that a draining chunk of context `h` merges only in part; `key` is the aligned physical word. -/
  | drain (h : Nat) (key : Nat) (va : Word)
  /-- A source word of the copy that moves on core `L`, at an address of its source space. -/
  | copySource (L a : Nat)
  /-- An operand, unfolding read or lane of the tile operation that runs on core `L`; `off` is its scratchpad offset, or 0. -/
  | tile (L off : Nat)
  /-- The datum of the request that runs or waits at its owner. -/
  | datum (id : Nat)
  /-- A contribution to the combine `tag` of crozier `k`. -/
  | crozier (k tag : Nat)
  /-- An entry of the closed log of partition `p` that is being merged: slice and index. -/
  | logEntry (p slice idx : Nat)
  /-- Entry `i` of the result cache of sorus `s`. -/
  | cacheEntry (s i : Nat)
  /-- The result-cache range of the scratchpad of sorus `s`. -/
  | cacheRange (s : Nat)
  deriving DecidableEq, Repr

end Sys2Proof
end

