-- ==== Sys2Proof/Syntax.lean ====
section
/-! DEFINITION. The instructions and the whole steps of the TRD-8040: one constructor of `Instr` for every row of the
opcode table. The rows with a word come first; their operands stand in the order of the assembly forms, and an immediate
keeps the bits of its encoding (a branch holds imm[12:1], a jump imm[20:1], R217). A row without a word has no field
either: it is a happening (95_what_each_step_holds), and what it happens to stands in the state (`State.now`). -/

namespace Sys2Proof

/-- One constructor for every row of the opcode table. -/
inductive Instr
  /-- LB (R242). Load byte sign-extended. -/
  | lb (rd rs : Reg) (imm : BitVec 12)
  /-- LH (R242). Load halfword sign-extended. -/
  | lh (rd rs : Reg) (imm : BitVec 12)
  /-- LW (R242). Load word sign-extended. -/
  | lw (rd rs : Reg) (imm : BitVec 12)
  /-- LD (R242). Load doubleword. -/
  | ld (rd rs : Reg) (imm : BitVec 12)
  /-- LBU (R242). Load byte zero-extended. -/
  | lbu (rd rs : Reg) (imm : BitVec 12)
  /-- LHU (R242). Load halfword zero-extended. -/
  | lhu (rd rs : Reg) (imm : BitVec 12)
  /-- LWU (R242). Load word zero-extended. -/
  | lwu (rd rs : Reg) (imm : BitVec 12)
  /-- SB (R242). Store byte into the write buffer. -/
  | sb (rt rs : Reg) (imm : BitVec 12)
  /-- SH (R242). Store halfword into the write buffer. -/
  | sh (rt rs : Reg) (imm : BitVec 12)
  /-- SW (R242). Store word into the write buffer. -/
  | sw (rt rs : Reg) (imm : BitVec 12)
  /-- SD (R242). Store doubleword into the write buffer. -/
  | sd (rt rs : Reg) (imm : BitVec 12)
  /-- BEQ (R243). Branch if equal. -/
  | beq (rs rt : Reg) (imm : BitVec 12)
  /-- BNE (R243). Branch if not equal. -/
  | bne (rs rt : Reg) (imm : BitVec 12)
  /-- BLT (R243). Branch if less, signed. -/
  | blt (rs rt : Reg) (imm : BitVec 12)
  /-- BGE (R243). Branch if greater or equal, signed. -/
  | bge (rs rt : Reg) (imm : BitVec 12)
  /-- BLTU (R243). Branch if less, unsigned. -/
  | bltu (rs rt : Reg) (imm : BitVec 12)
  /-- BGEU (R243). Branch if greater or equal, unsigned. -/
  | bgeu (rs rt : Reg) (imm : BitVec 12)
  /-- JALR (R243). Jump to register plus offset and link. -/
  | jalr (rd rs : Reg) (imm : BitVec 12)
  /-- JAL (R243). Jump relative and link. -/
  | jal (rd : Reg) (imm : BitVec 20)
  /-- LUI (R239). Load upper immediate. -/
  | lui (rd : Reg) (imm : BitVec 20)
  /-- AUIPC (R239). Add upper immediate to pc. -/
  | auipc (rd : Reg) (imm : BitVec 20)
  /-- ADDI (R239). Add immediate. -/
  | addi (rd rs : Reg) (imm : BitVec 12)
  /-- SLTI (R239). Set if less than immediate, signed. -/
  | slti (rd rs : Reg) (imm : BitVec 12)
  /-- SLTIU (R239). Set if less than immediate, unsigned. -/
  | sltiu (rd rs : Reg) (imm : BitVec 12)
  /-- XORI (R239). Exclusive-or immediate. -/
  | xori (rd rs : Reg) (imm : BitVec 12)
  /-- ORI (R239). Or immediate. -/
  | ori (rd rs : Reg) (imm : BitVec 12)
  /-- ANDI (R239). And immediate. -/
  | andi (rd rs : Reg) (imm : BitVec 12)
  /-- SLLI (R239). Shift left logical by immediate. -/
  | slli (rd rs : Reg) (sh : BitVec 6)
  /-- SRLI (R239). Shift right logical by immediate. -/
  | srli (rd rs : Reg) (sh : BitVec 6)
  /-- SRAI (R239). Shift right arithmetic by immediate. -/
  | srai (rd rs : Reg) (sh : BitVec 6)
  /-- ADDIW (R239). Add immediate on 32 bits. -/
  | addiw (rd rs : Reg) (imm : BitVec 12)
  /-- SLLIW (R239). Shift left logical immediate on 32 bits. -/
  | slliw (rd rs : Reg) (sh : BitVec 5)
  /-- SRLIW (R239). Shift right logical immediate on 32 bits. -/
  | srliw (rd rs : Reg) (sh : BitVec 5)
  /-- SRAIW (R239). Shift right arithmetic immediate on 32 bits. -/
  | sraiw (rd rs : Reg) (sh : BitVec 5)
  /-- ADD (R239). Add. -/
  | add (rd rs rt : Reg)
  /-- SLL (R239). Shift left logical. -/
  | sll (rd rs rt : Reg)
  /-- SLT (R239). Set if less, signed. -/
  | slt (rd rs rt : Reg)
  /-- SLTU (R239). Set if less, unsigned. -/
  | sltu (rd rs rt : Reg)
  /-- XOR (R239). Exclusive-or. -/
  | xor (rd rs rt : Reg)
  /-- SRL (R239). Shift right logical. -/
  | srl (rd rs rt : Reg)
  /-- OR (R239). Or. -/
  | or (rd rs rt : Reg)
  /-- AND (R239). And. -/
  | and (rd rs rt : Reg)
  /-- SUB (R239). Subtract. -/
  | sub (rd rs rt : Reg)
  /-- SRA (R239). Shift right arithmetic. -/
  | sra (rd rs rt : Reg)
  /-- MUL (R239). Multiply, low 64 bits. -/
  | mul (rd rs rt : Reg)
  /-- MULH (R239). Multiply high, signed by signed. -/
  | mulh (rd rs rt : Reg)
  /-- MULHSU (R239). Multiply high, signed by unsigned. -/
  | mulhsu (rd rs rt : Reg)
  /-- MULHU (R239). Multiply high, unsigned by unsigned. -/
  | mulhu (rd rs rt : Reg)
  /-- DIV (R240). Signed divide toward zero without trap. -/
  | div (rd rs rt : Reg)
  /-- DIVU (R240). Unsigned divide without trap. -/
  | divu (rd rs rt : Reg)
  /-- REM (R240). Signed remainder. -/
  | rem (rd rs rt : Reg)
  /-- REMU (R240). Unsigned remainder. -/
  | remu (rd rs rt : Reg)
  /-- ADDW (R239). Add on 32 bits. -/
  | addw (rd rs rt : Reg)
  /-- SLLW (R239). Shift left logical on 32 bits. -/
  | sllw (rd rs rt : Reg)
  /-- SRLW (R239). Shift right logical on 32 bits. -/
  | srlw (rd rs rt : Reg)
  /-- SUBW (R239). Subtract on 32 bits. -/
  | subw (rd rs rt : Reg)
  /-- SRAW (R239). Shift right arithmetic on 32 bits. -/
  | sraw (rd rs rt : Reg)
  /-- MULW (R239). Multiply on 32 bits. -/
  | mulw (rd rs rt : Reg)
  /-- DIVW (R240). Signed divide on 32 bits. -/
  | divw (rd rs rt : Reg)
  /-- DIVUW (R240). Unsigned divide on 32 bits. -/
  | divuw (rd rs rt : Reg)
  /-- REMW (R240). Signed remainder on 32 bits. -/
  | remw (rd rs rt : Reg)
  /-- REMUW (R240). Unsigned remainder on 32 bits. -/
  | remuw (rd rs rt : Reg)
  /-- FENCE (R245). A chunk bound with no other effect, whatever its fields. -/
  | fence (fm pred succ : BitVec 4) (rs rd : Reg)
  /-- ECALL (R246). Takes the environment-call trap of the issuing level. -/
  | ecall
  /-- EBREAK (R246). Takes the breakpoint trap, or halts the sorus when armed. -/
  | ebreak
  /-- CSRRW (R247). Atomic read and write of a CSR. -/
  | csrrw (rd : Reg) (csr : BitVec 12) (rs : Reg)
  /-- CSRRS (R247). Atomic read and set bits of a CSR. -/
  | csrrs (rd : Reg) (csr : BitVec 12) (rs : Reg)
  /-- CSRRC (R247). Atomic read and clear bits of a CSR. -/
  | csrrc (rd : Reg) (csr : BitVec 12) (rs : Reg)
  /-- CSRRWI (R247). Atomic read and write of a CSR with an immediate. -/
  | csrrwi (rd : Reg) (csr : BitVec 12) (u : BitVec 5)
  /-- CSRRSI (R247). Atomic read and set bits of a CSR with an immediate. -/
  | csrrsi (rd : Reg) (csr : BitVec 12) (u : BitVec 5)
  /-- CSRRCI (R247). Atomic read and clear bits of a CSR with an immediate. -/
  | csrrci (rd : Reg) (csr : BitVec 12) (u : BitVec 5)
  /-- VADD (R274). Guarded element-wise integer add, wrapping. -/
  | vadd (g : Reg3) (ty : ITy) (vd va vb : Reg)
  /-- VSUB (R274). Guarded element-wise integer subtract, wrapping. -/
  | vsub (g : Reg3) (ty : ITy) (vd va vb : Reg)
  /-- VMUL (R274). Guarded element-wise integer multiply, low bits. -/
  | vmul (g : Reg3) (ty : ITy) (vd va vb : Reg)
  /-- VSEL (R275). Selects each element from va or vb by the predicate. -/
  | vsel (g : Reg3) (ty : ITy) (vd va vb : Reg)
  /-- VSADD (R274). Guarded element-wise saturating add. -/
  | vsadd (g : Reg3) (ty : ITy) (vd va vb : Reg)
  /-- VSSUB (R274). Guarded element-wise saturating subtract. -/
  | vssub (g : Reg3) (ty : ITy) (vd va vb : Reg)
  /-- VMIN (R274). Guarded element-wise signed minimum. -/
  | vmin (g : Reg3) (ty : ITy) (vd va vb : Reg)
  /-- VMAX (R274). Guarded element-wise signed maximum. -/
  | vmax (g : Reg3) (ty : ITy) (vd va vb : Reg)
  /-- VMINU (R274). Guarded element-wise unsigned minimum. -/
  | vminu (g : Reg3) (ty : ITy) (vd va vb : Reg)
  /-- VMAXU (R274). Guarded element-wise unsigned maximum. -/
  | vmaxu (g : Reg3) (ty : ITy) (vd va vb : Reg)
  /-- VAND (R274). Guarded element-wise and. -/
  | vand (g : Reg3) (ty : ITy) (vd va vb : Reg)
  /-- VOR (R274). Guarded element-wise or. -/
  | vor (g : Reg3) (ty : ITy) (vd va vb : Reg)
  /-- VXOR (R274). Guarded element-wise exclusive-or. -/
  | vxor (g : Reg3) (ty : ITy) (vd va vb : Reg)
  /-- VSLL (R274). Guarded element-wise shift left. -/
  | vsll (g : Reg3) (ty : ITy) (vd va vb : Reg)
  /-- VSRL (R274). Guarded element-wise logical shift right. -/
  | vsrl (g : Reg3) (ty : ITy) (vd va vb : Reg)
  /-- VSRA (R274). Guarded element-wise arithmetic shift right. -/
  | vsra (g : Reg3) (ty : ITy) (vd va vb : Reg)
  /-- VFADD (R277). Guarded floating-point add, rounded once in rne. -/
  | vfadd (g : Reg3) (ty : FTy) (vd va vb : Reg)
  /-- VFSUB (R277). Guarded floating-point subtract. -/
  | vfsub (g : Reg3) (ty : FTy) (vd va vb : Reg)
  /-- VFMUL (R277). Guarded floating-point multiply. -/
  | vfmul (g : Reg3) (ty : FTy) (vd va vb : Reg)
  /-- VFMA (R277). Guarded fused multiply-add into vd. -/
  | vfma (g : Reg3) (ty : FTy) (vd va vb : Reg)
  /-- VFMIN (R277). Guarded minimumNumber. -/
  | vfmin (g : Reg3) (ty : FTy) (vd va vb : Reg)
  /-- VFMAX (R277). Guarded maximumNumber. -/
  | vfmax (g : Reg3) (ty : FTy) (vd va vb : Reg)
  /-- VFDIV (R277). Guarded floating-point divide. -/
  | vfdiv (g : Reg3) (ty : FTy) (vd va vb : Reg)
  /-- VFEXP2 (R278). Guarded exact 2 to the p, rounded once. -/
  | vfexp2 (g : Reg3) (ty : FTy) (vd va : Reg)
  /-- VFLOG2 (R278). Guarded exact base-2 logarithm, rounded once. -/
  | vflog2 (g : Reg3) (ty : FTy) (vd va : Reg)
  /-- VFRCP (R278). Guarded exact reciprocal, rounded once. -/
  | vfrcp (g : Reg3) (ty : FTy) (vd va : Reg)
  /-- VFRSQRT (R278). Guarded exact reciprocal square root, rounded once. -/
  | vfrsqrt (g : Reg3) (ty : FTy) (vd va : Reg)
  /-- VFSQRT (R278). Guarded exact square root, rounded once. -/
  | vfsqrt (g : Reg3) (ty : FTy) (vd va : Reg)
  /-- VFTANH (R278). Guarded exact tanh, rounded once. -/
  | vftanh (g : Reg3) (ty : FTy) (vd va : Reg)
  /-- VFSIG (R278). Guarded exact sigmoid, rounded once. -/
  | vfsig (g : Reg3) (ty : FTy) (vd va : Reg)
  /-- VFERF (R278). Guarded exact error function, rounded once. -/
  | vferf (g : Reg3) (ty : FTy) (vd va : Reg)
  /-- VCMPEQ (R279). Integer compare equal into a predicate. -/
  | vcmpeq (g : Reg3) (ty : ITy) (pd : Reg3) (va vb : Reg)
  /-- VCMPLT (R279). Signed integer compare less into a predicate. -/
  | vcmplt (g : Reg3) (ty : ITy) (pd : Reg3) (va vb : Reg)
  /-- VCMPLE (R279). Signed integer compare less-or-equal into a predicate. -/
  | vcmple (g : Reg3) (ty : ITy) (pd : Reg3) (va vb : Reg)
  /-- VCMPLTU (R279). Unsigned integer compare less into a predicate. -/
  | vcmpltu (g : Reg3) (ty : ITy) (pd : Reg3) (va vb : Reg)
  /-- VFCMPEQ (R279). Floating-point compare equal into a predicate. -/
  | vfcmpeq (g : Reg3) (ty : FTy) (pd : Reg3) (va vb : Reg)
  /-- VFCMPLT (R279). Floating-point compare less into a predicate. -/
  | vfcmplt (g : Reg3) (ty : FTy) (pd : Reg3) (va vb : Reg)
  /-- VFCMPLE (R279). Floating-point compare less-or-equal into a predicate. -/
  | vfcmple (g : Reg3) (ty : FTy) (pd : Reg3) (va vb : Reg)
  /-- VFCMPUN (R279). Floating-point unordered test into a predicate. -/
  | vfcmpun (g : Reg3) (ty : FTy) (pd : Reg3) (va vb : Reg)
  /-- VMACC (R293). BF16 or FP16 fused multiply-add into accumulator lanes. -/
  | vmacc (ty : MacTy) (ad : Reg3) (va vb : Reg)
  /-- VDOT2 (R293). Two-product fused dot into accumulator lanes. -/
  | vdot2 (ty : Dot2Ty) (ad : Reg3) (va vb : Reg)
  /-- VDOT4 (R293). Four-product fused dot into accumulator lanes. -/
  | vdot4 (ty : Dot4Ty) (ad : Reg3) (va vb : Reg)
  /-- VNARROW (R294). Narrows accumulator lanes into a vector register. -/
  | vnarrow (ty : Ty3) (sat : Bool) (vd : Reg) (aa : Reg3)
  /-- ACCZ (R295). Zeroes an accumulator register. -/
  | accz (ad : Reg3)
  /-- ACCST (R295). Stores an accumulator register's 512 bytes. -/
  | accst (sa : Reg3) (xb : Reg)
  /-- ACCLD (R295). Loads 512 bytes into an accumulator register. -/
  | accld (ad : Reg3) (xb : Reg)
  /-- VXCHG (R297). Arrives at the sorus exchange and waits for the exchanged slices. -/
  | vxchg (vd va : Reg)
  /-- VLD (R284). Guarded load of 64 contiguous 32-bit elements. -/
  | vld (g : Reg3) (vd xb : Reg)
  /-- VST (R284). Guarded store of 64 contiguous 32-bit elements. -/
  | vst (g : Reg3) (vd xb : Reg)
  /-- VLDS (R284). Guarded strided load of 32-bit elements. -/
  | vlds (g : Reg3) (vd xb xs : Reg)
  /-- VSTS (R284). Guarded strided store of 32-bit elements. -/
  | vsts (g : Reg3) (vd xb xs : Reg)
  /-- VLDX (R284). Guarded indexed load of 32-bit elements. -/
  | vldx (g : Reg3) (vd xb vi : Reg)
  /-- VSTX (R284). Guarded indexed store of 32-bit elements. -/
  | vstx (g : Reg3) (vd xb vi : Reg)
  /-- VLDF (R286). Format-decoding load from a core scratchpad bank. -/
  | vldf (g : Reg3) (ty : FTy) (vd xb : Reg)
  /-- PAND (R287). Predicate and. -/
  | pand (pd pa pb : Reg3)
  /-- POR (R287). Predicate or. -/
  | por (pd pa pb : Reg3)
  /-- PXOR (R287). Predicate exclusive-or. -/
  | pxor (pd pa pb : Reg3)
  /-- PANDN (R287). Predicate and-not. -/
  | pandn (pd pa pb : Reg3)
  /-- PNOT (R287). Predicate not. -/
  | pnot (pd pa : Reg3)
  /-- PCNT (R287). Counts set predicate bits. -/
  | pcnt (xd : Reg) (pa : Reg3)
  /-- PFIRST (R287). Index of the lowest set predicate bit. -/
  | pfirst (xd : Reg) (pa : Reg3)
  /-- PLT (R287). Sets predicate bits below a scalar count. -/
  | plt (pd : Reg3) (xs : Reg)
  /-- VREDSUM (R289). Exact signed integer sum reduction to a scalar. -/
  | vredsum (ty : ITy) (xd va : Reg)
  /-- VREDMAX (R289). Signed integer maximum reduction. -/
  | vredmax (ty : ITy) (xd va : Reg)
  /-- VREDMIN (R289). Signed integer minimum reduction. -/
  | vredmin (ty : ITy) (xd va : Reg)
  /-- VFREDSUM (R290). Pairwise-tree FP32 sum reduction. -/
  | vfredsum (ty : FTy) (xd va : Reg)
  /-- VFREDMAX (R290). Pairwise-tree maximumNumber reduction. -/
  | vfredmax (ty : FTy) (xd va : Reg)
  /-- VFREDMIN (R290). Pairwise-tree minimumNumber reduction. -/
  | vfredmin (ty : FTy) (xd va : Reg)
  /-- VSLIDEUP (R291). Slides bytes up by a scalar count. -/
  | vslideup (vd va xn : Reg)
  /-- VSLIDEDN (R291). Slides bytes down by a scalar count. -/
  | vslidedn (vd va xn : Reg)
  /-- VPERM (R291). Byte permutation by an index vector. -/
  | vperm (vd va vi : Reg)
  /-- VBCAST (R291). Broadcasts a scalar to every element of width k. -/
  | vbcast (k : BcastW) (vd xs : Reg)
  /-- VGET (R291). Reads one 64-bit element into a scalar. -/
  | vget (xd va xi : Reg)
  /-- VSET (R291). Writes one 64-bit element from a scalar. -/
  | vset (vd xv xi : Reg)
  /-- VCVT (R282). Converts elements between types over register groups. -/
  | vcvt (tyd : Ty3) (mode : RMode) (tys : Ty3) (sat : Bool) (vd vs : Reg)
  /-- MMA (R311). Issues a matrix product from scratchpad operands into the accumulator store. -/
  | mma (pair : Pair) (xc xa xb : Reg)
  /-- MMAV (R315). Matrix product with the A operand formed by the unfolding unit. -/
  | mmav (pair : Pair) (xc xa xb : Reg)
  /-- MMAT (R311). Matrix product with the B operand transposed. -/
  | mmat (pair : Pair) (xc xa xb : Reg)
  /-- ACLR (R305). Claims and zeroes, or releases, accumulator row groups. -/
  | aclr (xs : Reg)
  /-- ANARROW (R316). Narrows a store region into the own core scratchpad. -/
  | anarrow (ty : Ty3) (mode : RMode) (sat : Bool) (xm xg : Reg)
  /-- ALD (R317). Copies raw memory into a store region. -/
  | ald (xg xm : Reg)
  /-- AST (R317). Copies a store region raw to memory. -/
  | ast (xg xm : Reg)
  /-- AMOVV (R319). Reads 64 lanes of the store into a vector register. -/
  | amovv (vd xg : Reg)
  /-- AMOVA (R319). Writes a vector register into 64 lanes of the store. -/
  | amova (xg vb : Reg)
  /-- UNFCFG (R314). Loads the convolution-unfolding configuration. -/
  | unfcfg (xs : Reg)
  /-- QBIND (R322). Binds a stream port from a descriptor and sets P to 0. -/
  | qbind (q : Reg3) (xs : Reg)
  /-- QUNBIND (R321). Unbinds a stream port. -/
  | qunbind (q : Reg3)
  /-- QLD (R324). Loads a vector from a read port and advances P. -/
  | qld (vd : Reg) (q : Reg3)
  /-- QST (R324). Stores a vector to a write port and advances P. -/
  | qst (q : Reg3) (vb : Reg)
  /-- QLDX (R324). Loads one element from a read port to a scalar. -/
  | qldx (xd : Reg) (q : Reg3)
  /-- QSTX (R324). Stores one scalar element to a write port. -/
  | qstx (q : Reg3) (xs : Reg)
  /-- QPOS (R326). Reads a port's position P. -/
  | qpos (xd : Reg) (q : Reg3)
  /-- QFLUSH (R326). Discards fetched read-port elements and refetches from P. -/
  | qflush (q : Reg3)
  /-- CPY_GO (R333). Snapshots the copy CSRs and queues a copy at commit, returning promise and status. -/
  | cpyGo (xd xp : Reg)
  /-- CPY_GO_M (R337). Queues a copy with a follow-on matrix command that runs on its OK completion. -/
  | cpyGoM (xd xp xr : Reg)
  /-- CPY_CANCEL (R338). Cancels one or all of the context's copies at commit. -/
  | cpyCancel (xn : Reg)
  /-- CPY_PROG (R336). Reads a copy's progress word. -/
  | cpyProg (xd xn : Reg)
  /-- WAITC (R343). Waits until outstanding engine counts fall to the given limits. -/
  | waitc (nl ns nc nt : BitVec 5)
  /-- ASCALE (R318). Multiplies every lane of a store region by an FP32 scalar. -/
  | ascale (xg xs : Reg)
  /-- SEND (R346). Sends a two-word message to a channel at commit. -/
  | send (c : Bool) (ch : BitVec 4) (xt xw0 xw1 : Reg)
  /-- SENDV (R346). Sends 1 to 32 words from a vector register to a channel at commit. -/
  | sendv (c : Bool) (ch : BitVec 4) (xt xn vb : Reg)
  /-- REPLY (R351). Sends two words to the triggering message's reply channel. -/
  | reply (xw0 xw1 : Reg)
  /-- MSGRD (R352). Reads the next word of the message buffer. -/
  | msgrd (xd : Reg)
  /-- MSGSRC (R353). Reads the source word of the triggering message. -/
  | msgsrc (xd : Reg)
  /-- CHON (R354). Unmasks a channel at commit. -/
  | chon (ch : BitVec 4)
  /-- CHOFF (R354). Masks a channel at commit. -/
  | choff (ch : BitVec 4)
  /-- RMADD (R356). Remote 64-bit add at the owner. -/
  | rmadd (nr : Bool) (xd xv xa : Reg)
  /-- RMAND (R356). Remote 64-bit and. -/
  | rmand (nr : Bool) (xd xv xa : Reg)
  /-- RMOR (R356). Remote 64-bit or. -/
  | rmor (nr : Bool) (xd xv xa : Reg)
  /-- RMXOR (R356). Remote 64-bit exclusive-or. -/
  | rmxor (nr : Bool) (xd xv xa : Reg)
  /-- RMMIN (R356). Remote 64-bit signed minimum. -/
  | rmmin (nr : Bool) (xd xv xa : Reg)
  /-- RMMAX (R356). Remote 64-bit signed maximum. -/
  | rmmax (nr : Bool) (xd xv xa : Reg)
  /-- RMMINU (R356). Remote 64-bit unsigned minimum. -/
  | rmminu (nr : Bool) (xd xv xa : Reg)
  /-- RMMAXU (R356). Remote 64-bit unsigned maximum. -/
  | rmmaxu (nr : Bool) (xd xv xa : Reg)
  /-- RMSWAP (R356). Remote 64-bit swap. -/
  | rmswap (nr : Bool) (xd xv xa : Reg)
  /-- RMCAS (R356). Remote 64-bit compare-and-swap. -/
  | rmcas (nr : Bool) (xd xv xa : Reg)
  /-- RMADD_I32 (R356). Remote 32-bit add. -/
  | rmaddI32 (nr : Bool) (xd xv xa : Reg)
  /-- RMAND_I32 (R356). Remote 32-bit and. -/
  | rmandI32 (nr : Bool) (xd xv xa : Reg)
  /-- RMOR_I32 (R356). Remote 32-bit or. -/
  | rmorI32 (nr : Bool) (xd xv xa : Reg)
  /-- RMXOR_I32 (R356). Remote 32-bit exclusive-or. -/
  | rmxorI32 (nr : Bool) (xd xv xa : Reg)
  /-- RMMIN_I32 (R356). Remote 32-bit signed minimum. -/
  | rmminI32 (nr : Bool) (xd xv xa : Reg)
  /-- RMMAX_I32 (R356). Remote 32-bit signed maximum. -/
  | rmmaxI32 (nr : Bool) (xd xv xa : Reg)
  /-- RMMINU_I32 (R356). Remote 32-bit unsigned minimum. -/
  | rmminuI32 (nr : Bool) (xd xv xa : Reg)
  /-- RMMAXU_I32 (R356). Remote 32-bit unsigned maximum. -/
  | rmmaxuI32 (nr : Bool) (xd xv xa : Reg)
  /-- RMSWAP_I32 (R356). Remote 32-bit swap. -/
  | rmswapI32 (nr : Bool) (xd xv xa : Reg)
  /-- RMCAS_I32 (R356). Remote 32-bit compare-and-swap. -/
  | rmcasI32 (nr : Bool) (xd xv xa : Reg)
  /-- RMFADD (R356). Remote FP32 add in rne. -/
  | rmfadd (nr : Bool) (xd xv xa : Reg)
  /-- RMFMIN (R356). Remote FP32 minimumNumber. -/
  | rmfmin (nr : Bool) (xd xv xa : Reg)
  /-- RMFMAX (R356). Remote FP32 maximumNumber. -/
  | rmfmax (nr : Bool) (xd xv xa : Reg)
  /-- LOGAPP (R364). Appends an update to the open update log at commit. -/
  | logapp (xa xv : Reg)
  /-- LOGMRG (R366). Closes and merges the open log and optionally opens the next. -/
  | logmrg (xd xa : Reg)
  /-- TKTGET (R367). Takes a ticket from a sorus dispenser at commit. -/
  | tktget (xd xa : Reg)
  /-- TKTWAIT (R367). Waits until a dispenser's SERVING equals a value. -/
  | tktwait (xa xv : Reg)
  /-- TKTADV (R367). Advances a dispenser's SERVING at commit. -/
  | tktadv (xa : Reg)
  /-- BARARR (R369). Sends an arrival or delivery to a barrier object at commit. -/
  | bararr (xa xv : Reg)
  /-- BARWAIT (R370). Waits for a barrier object to leave the named phase. -/
  | barwait (xd xa : Reg)
  /-- GBAR (R371). Arrives at the group barrier and waits. -/
  | gbar (xd : Reg)
  /-- LBAR (R372). Arrives at a numbered launch barrier and waits. -/
  | lbar (xd xa : Reg)
  /-- CHUNKEND (R373). Ends the current chunk. -/
  | chunkend
  /-- OTDECL (R374). Declares the firing an ordered task with a timestamp and domain. -/
  | otdecl (xd xa xv : Reg)
  /-- LAUNCH (R375). Submits a launch header to the issuing partition at commit. -/
  | launch (xd xa : Reg)
  /-- FENCE_X (R376). Cross-path fence ordering class a accesses before class b accesses. -/
  | fenceX (a b : BitVec 5)
  /-- CRZSEND_ADD (R378). Contributes to a crozier add combine. -/
  | crzsendAdd (xa xo : Reg)
  /-- CRZSEND_MAX (R378). Contributes to a crozier max combine. -/
  | crzsendMax (xa xo : Reg)
  /-- CRZSEND_MIN (R378). Contributes to a crozier min combine. -/
  | crzsendMin (xa xo : Reg)
  /-- CRZSEND_AND (R378). Contributes to a crozier bitwise and combine. -/
  | crzsendAnd (xa xo : Reg)
  /-- CRZSEND_OR (R378). Contributes to a crozier bitwise or combine. -/
  | crzsendOr (xa xo : Reg)
  /-- CRZSEND_XOR (R378). Contributes to a crozier bitwise exclusive-or combine. -/
  | crzsendXor (xa xo : Reg)
  /-- CRZSEND_BADD (R378). Contributes to a crozier B8 block add combine. -/
  | crzsendBadd (xa xo : Reg)
  /-- CRZRECV (R379). Collects the status of a crozier combine. -/
  | crzrecv (xd xa : Reg)
  /-- HALT (R380). Ends the firing at the commit of its chunk. -/
  | halt
  /-- HALT_R (R380). Ends the firing and retains named banks for an actor. -/
  | haltR (xm xn : Reg)
  /-- WAIT_C (R252). Waits for a number of the core's cycles. -/
  | waitC (xs : Reg)
  /-- WAIT_T (R252). Waits until GTIME reaches an absolute target. -/
  | waitT (xs : Reg)
  /-- WAIT_TR (R252). Waits until GTIME reaches a target relative to issue. -/
  | waitTr (xs : Reg)
  /-- BREQ (R254). Sets the context's boost request level and priority. -/
  | breq (prio : BitVec 3) (level : BitVec 2)
  /-- ERET_S (R255). Returns from a trap taken to S. -/
  | eretS
  /-- ERET_M (R255). Returns from a trap taken to M. -/
  | eretM
  /-- TRON (R256). Starts trace capture for the context. -/
  | tron
  /-- TROFF (R256). Stops trace capture for the context. -/
  | troff
  /-- TRMARK (R256). Emits a marker trace record at commit. -/
  | trmark (xs : Reg)
  /-- CAPON (R257). Starts a capture counter at commit. -/
  | capon (n : BitVec 5)
  /-- CAPOFF (R257). Stops a capture counter at commit. -/
  | capoff (n : BitVec 5)
  /-- CAPRD (R257). Reads a capture counter. -/
  | caprd (xd : Reg) (n : BitVec 5)
  /-- SCANRUN (R261). Requests an in-field scan test of a core from a descriptor. -/
  | scanrun (xd xs : Reg)
  /-- SCANSTAT (R263). Reads the state of the firing's most recent scan. -/
  | scanstat (xd : Reg)
  /-- SCANABORT (R264). Aborts the firing's scan or releases a held failed core. -/
  | scanabort
  /-- MAPRD (R266). Reads a logical core map entry. -/
  | maprd (xd xs : Reg)
  /-- MAPRM (R266). Removes a core from the logical core map at commit. -/
  | maprm (xs : Reg)
  /-- MAPADD (R266). Returns a core to the logical core map at commit. -/
  | mapadd (xs : Reg)
  /-- PREQ (R258). Requests pre-emption of a firing or group and returns an outcome code. -/
  | preq (xd xs : Reg)
  /-- FUNDAMENTAL_RESET (R45). Deassertion of PERST# with valid supplies abandons any phase, discards applied entries, restarts the global time counter and begins bring-up at phase 0. -/
  | fundamentalReset
  /-- PF_FUNCTION_LEVEL_RESET (R38). A function-level reset of the physical function starts the bring-up sequence from phase 0. -/
  | pfFunctionLevelReset
  /-- SECONDARY_BUS_RESET (R38). A secondary bus reset of the link above the physical function starts the bring-up sequence from phase 0. -/
  | secondaryBusReset
  /-- BRINGUP_PHASE_END (R38). A bring-up phase completes its work, MSTAT PHASE advances and the next phase begins. -/
  | bringupPhaseEnd
  /-- CONFIG_REQUEST (R39). A configuration request to the physical function is answered with Request Retry Status until phase 1 ends and normally afterwards. -/
  | configRequest
  /-- MBOOT_GO (R41). A write of 1 to MBOOT GO offers the image in the image window, held until phase 5 if written earlier and ignored once READY is 1. -/
  | mbootGo
  /-- IMAGE_CHECK (R43). With GO 1 in phase 5 the hub checks the whole image before applying any entry. -/
  | imageCheck
  /-- RAW_RAIL_CHANGE (R47). A change of the raw rail moves every core voltage to min(setpoint, raw minus 0.04 V) within 2 ns and the replica clocks follow. -/
  | rawRailChange
  /-- REGULATOR_SLEW_END (R47). A regulator slew toward a new setpoint at 10 mV per ns completes. -/
  | regulatorSlewEnd
  /-- TRATIO_WINDOW_END (R55). At each GTIME multiple of 40 a 640 ns cycle-count window closes and becomes the value that TRATIO reads 40 ns later. -/
  | tratioWindowEnd
  /-- WAIT_C_EXPIRY (R56). A WAIT.C ends when the core clock has run the requested cycles. -/
  | waitCExpiry
  /-- WAIT_T_EXPIRY (R56). A WAIT.T or WAIT.TR ends in the first core cycle in which GTIME is at least its target. -/
  | waitTExpiry
  /-- BOOST_REQUEST_SAMPLE (R63). At GTIME 10,000 times n minus 500 each sorus's requested level and priority are sampled for interval n. -/
  | boostRequestSample
  /-- PERMIT_BOUNDARY (R66). At each permit interval boundary the hub refills pools and assigns every sorus its boost level. -/
  | permitBoundary
  /-- CONTROLLER_STEP (R71). At each GTIME multiple of 1,000 the sorus PI controller updates its integrator and duty target. -/
  | controllerStep
  /-- ADMISSION_REQUEST (R73). A committed heavy-burst matrix operation asks its sorus controller for admission and is admitted at once or queued. -/
  | admissionRequest
  /-- BALLAST_LIMIT (R74). Ballast in one episode stops 2 µs after it started. -/
  | ballastLimit
  /-- EXIT_GROUP_RELEASE (R75). After a multi-sorus release, each exit group of sori resumes its contexts or receives its work words at its staggered time. -/
  | exitGroupRelease
  /-- SELECTION (R86). A core selects a candidate resume or runnable channel, removes RATE words, sets LAST and places the firing in a free context. -/
  | selection
  /-- STARTING_COMPLETE (R88). A context finishes writing initial state and waking banks and enters Running. -/
  | startingComplete
  /-- BANK_WAKE_COMPLETE (R93). A powered-down free bank accessed by a firing finishes waking with zero bytes and FMTb at reset. -/
  | bankWakeComplete
  /-- RETENTION_EXPIRY (R92). A retained bank not claimed 1 ms after the HALT powers down. -/
  | retentionExpiry
  /-- GROUP_DISPATCH (R100). The dispatcher places its head group in a sorus or core, reserves the contexts and sends the work words. -/
  | groupDispatch
  /-- LAUNCH_HEADER_ARRIVAL (R106). A header from a host window or LAUNCH enters the hub queue, the overflow ring, or is refused. -/
  | launchHeaderArrival
  /-- HUB_QUEUE_REFILL (R106). The hub refills its launch queue in order from the head of the overflow ring. -/
  | hubQueueRefill
  /-- RESIDENT_SLOT_COPY (R105). When a resident slot is free the dispatcher copies the head header into it within 100 ns. -/
  | residentSlotCopy
  /-- SORUS_PASS (R107). A sorus marked leaving passes to its new partition when its last resident group completes. -/
  | sorusPass
  /-- PREEMPTION_REQUEST (R109). A pre-emption request reaches a firing, which drains, is already at its safe point, or refuses. -/
  | preemptionRequest
  /-- SAFE_POINT (R109). A draining context reaches a listed address, closes its chunk and enters Saving. -/
  | safePoint
  /-- SAVE_COMPLETE (R110). The save block is written, banks and row groups are released and the context becomes Free. -/
  | saveComplete
  /-- RESTORE_COMPLETE (R111). A resumed firing's saved state is loaded and the context enters Running or Waiting. -/
  | restoreComplete
  /-- LAUNCH_COMPLETION (R117). When every firing has ended the dispatcher writes the completion record, raises the signal and frees the resident slot. -/
  | launchCompletion
  /-- GRANT (R139). The thallus grants a request in total order, assigns a CSN, marks lines pending and broadcasts the signature. -/
  | grant
  /-- BROADCAST_ARRIVAL (R140). A core processes a commit broadcast and squashes uncommitted chunks whose signatures meet it. -/
  | broadcastArrival
  /-- DRAIN_COMPLETE (R139). A granted chunk's write buffer finishes draining, the chunk is committed and its held items leave. -/
  | drainComplete
  /-- LOCAL_COMMIT (R141). A chunk with no thallus lines commits locally once it has processed broadcasts up to its horizon. -/
  | localCommit
  /-- RESERVATION_TIMEOUT (R143). A reservation taken after three squashes ends 10 µs after it began. -/
  | reservationTimeout
  /-- LOAD_DATA_RETURN (R141). Data for a waiting load returns with the line's version once its drain ends or grant is returned. -/
  | loadDataReturn
  /-- TILE_OPERATION_COMPLETE (R302). A tile operation's writes become visible, it completes, and the matrix queue starts its next operation. -/
  | tileOperationComplete
  /-- COPY_HEAD_CHECK (R335). A copy reaching the queue head is checked for space, rights, format and block cuts before any unit moves. -/
  | copyHeadCheck
  /-- COPY_SECTOR_WRITTEN (R336). A copy finishes writing a sector, and on its last sector completes and delivers its status. -/
  | copySectorWritten
  /-- STREAM_FETCH_RETURN (R326). A read-port fetch returns its elements to the port. -/
  | streamFetchReturn
  /-- STREAM_WRITE_TRANSFER_DONE (R327). A write-port transfer of committed elements becomes visible. -/
  | streamWriteTransferDone
  /-- BARRIER_UPDATE (R369). The barrier unit applies an arrival, delivery or matrix status to a barrier object. -/
  | barrierUpdate
  /-- EXCHANGE_COMPLETE (R297). When every filled position has arrived the exchange writes each member's vd and members resume. -/
  | exchangeComplete
  /-- GROUP_BARRIER_COMPLETE (R371). When every non-halted member has arrived the group barrier completes and members resume. -/
  | groupBarrierComplete
  /-- LAUNCH_BARRIER_COMPLETE (R372). When every live firing of the launch has arrived the launch barrier releases with the exit stagger. -/
  | launchBarrierComplete
  /-- LOG_MERGE_DONE (R366). The slices finish sorting and applying the closed log, the next log opens and the status is written. -/
  | logMergeDone
  /-- CROZIER_CONTRIBUTION (R379). A crozier reads a member's contribution and combines it into its running result in member order. -/
  | crozierContribution
  /-- OWNER_REQUEST_ARRIVAL (R363). A remote-atomic request reaches the owner, which retires entries, resends a cached result, discards, or queues it. -/
  | ownerRequestArrival
  /-- REPLY_ARRIVAL (R359). A remote-atomic reply or acknowledgement reaches the requester and writes xd and its checkpoints. -/
  | replyArrival
  /-- RESULT_CACHE_RETIREMENT (R363). A result-cache entry retires 256 µs after insertion. -/
  | resultCacheRetirement
  /-- RETRANSMISSION (R457). An unanswered remote-atomic request is retransmitted at its scheduled time. -/
  | retransmission
  /-- SERIAL_WRAP_RELEASE (R458). A request held back for serial wrap leaves 300 µs after serial s minus 32,768 left. -/
  | serialWrapRelease
  /-- MESSAGE_ARRIVAL (R349). A message's words enter the target channel FIFO together. -/
  | messageArrival
  /-- MESSAGE_SEND_RELEASE (R350). A message waiting in the network leaves once the target FIFO has room for all its words. -/
  | messageSendRelease
  /-- POST_GO (R83). A write of 1 to CHPOST GO posts W0 and W1 into channel CH of the core, or sets ERR. -/
  | postGo
  /-- HTE_HUB_WRITE (R83). A hub write to a handler-table entry takes effect at once and sets the matching CHMASK bit. -/
  | hteHubWrite
  /-- SCAN_DRAIN_END (R262). When all four contexts of the scanned core are Free the pattern starts. -/
  | scanDrainEnd
  /-- SCAN_DRAIN_TIMEOUT (R262). A scan not drained 1 ms after acceptance ends with DRAINTO. -/
  | scanDrainTimeout
  /-- SCAN_PATTERN_END (R262). After 200,000 ns the pattern ends, the core is reset and the descriptor results are written. -/
  | scanPatternEnd
  /-- LCMAP_ABSENT_SET (R265). A write of 1 to an LCMAP ABSENT bit removes the core as maprm does. -/
  | lcmapAbsentSet
  /-- LCMAP_ABSENT_CLEAR (R265). A write of 0 to an LCMAP ABSENT bit adds the core as mapadd does. -/
  | lcmapAbsentClear
  /-- HCDATA_WRITE (R235). A write of HCDATA writes the hub register that HCADDR names at its chunk's commit. -/
  | hcdataWrite
  /-- HUB_WINDOW_WRITE (R237). A host write through the hub window, or to any register without a row of its own, follows the register's rule or is refused and logged. -/
  | hubWindowWrite
  /-- PTROOT_WRITE (R130). A PTROOT write sets the partition root and invalidates every translation before its chunk commits. -/
  | ptrootWrite
  /-- TLBINV_WRITE (R130). A TLBINV write invalidates one page or all translations of the partition before its chunk commits. -/
  | tlbinvWrite
  /-- BOOSTLVL_WRITE (R61). A BOOSTLVL write sets the context's boost request and priority at its commit. -/
  | boostlvlWrite
  /-- PPOOL_WRITE (R64). An M write to PPOOL sets LCAP, CAP or COUNT, effective at the next sampling boundary. -/
  | ppoolWrite
  /-- HOST_CXL_MEM_WRITE (R389). A host CXL.mem write is granted by the owning slice as a one-line chunk and broadcast. -/
  | hostCxlMemWrite
  /-- HOST_CXL_MEM_READ (R389). A host CXL.mem read returns committed device data. -/
  | hostCxlMemRead
  /-- LAUNCH_WINDOW_WRITE (R392). A host write to a launch-queue window delivers a header to the bound partition when its word at 0x38 arrives. -/
  | launchWindowWrite
  /-- HOST_BAR_INVALID_ACCESS (R393). An unlisted or forbidden host BAR access receives an error response and is logged. -/
  | hostBarInvalidAccess
  /-- VF_FUNCTION_LEVEL_RESET (R396). A virtual function reset aborts the slot's launches, kills its firings, cancels copies and revokes its export windows. -/
  | vfFunctionLevelReset
  /-- VF_RESET_END (R396). The virtual function reset ends within 100 ms and its windows accept writes again. -/
  | vfResetEnd
  /-- SPART_WRITE (R397). A write moving a sorus sets LEAVING, NVALID and NEXT; the sorus passes later. -/
  | spartWrite
  /-- PARTITION_CONTROLLER_STEP (R399). Every millisecond the controller marks at most one sorus leaving toward the neediest AUTO partition. -/
  | partitionControllerStep
  /-- DATAGRAM_ARRIVAL (R401). An incoming datagram is port-checked, destination-checked and delivered or dropped and counted. -/
  | datagramArrival
  /-- EXPORT_REQUEST (R402). A request at an export window is admitted and performed, or answered DENIED or STALE. -/
  | exportRequest
  /-- REVOKE (R403). A write of 1 to REVOKE advances the window generation so later old-generation requests get STALE. -/
  | revoke
  /-- REVOKE_DRAIN_END (R403). REVOKE reads 0 once every previously admitted request has replied. -/
  | revokeDrainEnd
  /-- BUCKET_REFILL (R405). Every microsecond each enabled slot's bucket repays debt, refills, and overflows into the spare pool. -/
  | bucketRefill
  /-- HEAD_REQUEST_RELEASE (R405). A slot's waiting head request leaves once tokens or borrowing cover it and debt is within DEBTCAP. -/
  | headRequestRelease
  /-- CHECKPOINT_GO (R407). A write of 1 to CKCFG GO checks the import run and starts streaming device memory, or fails. -/
  | checkpointGo
  /-- CHECKPOINT_UNIT_ACK (R407). A checkpoint unit is acknowledged; after the last unit STATE becomes done. -/
  | checkpointUnitAck
  /-- CHECKPOINT_RESEND (R482). A unit unacknowledged for 8 µs is resent, and after eight resends the checkpoint fails with CKFAIL. -/
  | checkpointResend
  /-- DEBUG_HALT (R411). A HALT write, armed EBREAK or trigger halts the sorus and raises its XOUT channels. -/
  | debugHalt
  /-- DEBUG_RESUME (R412). A RESUME write undoes the halt within 24 ns. -/
  | debugResume
  /-- DEBUG_STEP (R413). A STEP write on a halted sorus issues one instruction of the selected context. -/
  | debugStep
  /-- DBGRDAT_WRITE (R414). A DBGRDAT write on a halted sorus sets the selected 64 bits of the context's uncommitted value. -/
  | dbgrdatWrite
  /-- SYNC_PERIOD (R418). At each GTIME multiple of PER times 1,000 a traced core emits a SYNC record. -/
  | syncPeriod
  /-- ROUTER_GRID_PERIOD (R421). At each 10 µs period end the router counts are stored in the grid ring with SEQ written last. -/
  | routerGridPeriod
  /-- TRAP_ENTRY (R427). Once the preceding chunk commits, a trap enters the S or M handler or kills the firing. -/
  | trapEntry
  /-- INTERRUPT_ENTRY (R428). A pending, enabled interrupt is taken between instructions at an inserted chunk bound. -/
  | interruptEntry
  /-- DETECTION_TIMER_EXPIRY (R438). A launch's deadlock detection timer reaches DLTIME. -/
  | detectionTimerExpiry
  /-- ENGINE_PAGE_FAULT (R446). A parked transfer's fault is taken between instructions on its issuing context. -/
  | enginePageFault
  /-- PROMISE_EXPIRY (R450). A copy not complete at its promise sets LATE and raises COPYLATE when PTRAP is 1. -/
  | promiseExpiry
  /-- UNCORRECTABLE_ERROR (R452). An uncorrectable error withholds the data and reaches its requester by kill, ABORT or EI. -/
  | uncorrectableError
  /-- FINJ_WRITE (R463). A FINJ write arms fault injection for a channel and kind at its commit. -/
  | finjWrite
  /-- FINJ_READ (R463). A FINJ read returns the setting and clears DONE. -/
  | finjRead
  /-- RAIL_SAMPLE (R467). Every 10 ns the hub samples the raw rail and logs UNDERV or OVERV at an excursion's start. -/
  | railSample
  /-- TIME_BEACON (R470). A hub time beacon reaches a frond, which slews its GTIME copy toward it. -/
  | timeBeacon
  /-- BEACON_LOSS (R471). A frond with no beacon for 10 µs runs free and SYNCLOSS is logged. -/
  | beaconLoss
  /-- LINK_LANE_FAILURE (R472). Lanes of a die-to-die link fail and the link begins retraining, or the module stops. -/
  | linkLaneFailure
  /-- LINK_RETRAIN_END (R472). A die-to-die link finishes retraining at the widest passing width and LINKDEG is logged. -/
  | linkRetrainEnd
  /-- PORT_LANE_FAILURE (R473). Lanes of a Cleotte port fail and the port begins retraining. -/
  | portLaneFailure
  /-- PORT_RETRAIN_END (R473). A Cleotte port finishes retraining at a new width. -/
  | portRetrainEnd
  /-- PSTAT_READ (R473). A read of PSTAT word 1 returns and clears the drop counts. -/
  | pstatRead
  /-- DEBTSTALL_TIMER (R476). A slot stalled for 10 ms is logged once as DEBTSTALL. -/
  | debtstallTimer
  /-- REQUEST_LAST_DEADLINE (R457). A remote-atomic request still unanswered 312 µs after its first copy left completes with outcome unknown. -/
  | requestLastDeadline
  /-- RETURN_TO_SERVICE (R264). A scanned core whose scan was aborted, or a held failed core released by scanabort, returns to service in the end-phase state within 2 µs. -/
  | returnToService
  /-- HOST_LANE_FAILURE (R481). Lanes of the CXL host link fail during operation and the port continues at a lower rate. -/
  | hostLaneFailure
  deriving DecidableEq, Repr

end Sys2Proof
end

