-- ==== Sys2Proof/Machine/CsrMap.lean ====
section
/-! DEFINITION. The map of the CSR addresses (R232, R409): which exist, the lowest level that may read and write each,
and whether a write of one is a chunk bound (R134). -/

namespace Sys2Proof.Machine

/-- A row of the CSR map (R232). `write` is none for a read-only CSR. -/
structure CsrRow where
  read : Priv
  write : Option Priv
  bound : Bool
  deriving DecidableEq, Repr

/-- A CSR of one level for reading and writing. -/
def csrRow1 (p : Priv) (bound : Bool) : Option CsrRow := some { read := p, write := some p, bound := bound }

/-- A read-only CSR. -/
def csrRowRO (p : Priv) : Option CsrRow := some { read := p, write := none, bound := false }

/-- The row of a CSR address, or none where the address is not a CSR (R232, R409). The owner rule of FMT0 to FMT9 and the
rule for bits 0 and 1 of CHMASK are checked with the write itself (R176, R82). -/
def csrRow (c : Nat) : Option CsrRow :=
  if c = 0x100 || c = 0x104 || c = 0x105 then csrRow1 .s true
  else if c = 0x140 then csrRow1 .s false
  else if 0x141 ≤ c && c ≤ 0x144 then csrRow1 .s true
  else if 0x300 ≤ c && c ≤ 0x305 then csrRow1 .m true
  else if c = 0x340 then csrRow1 .m false
  else if 0x341 ≤ c && c ≤ 0x344 then csrRow1 .m true
  else if 0x5C0 ≤ c && c ≤ 0x5C2 then csrRow1 .s true
  else if 0x7A0 ≤ c && c ≤ 0x7A6 then csrRow1 .m true
  else if 0x7A8 ≤ c && c ≤ 0x7AB then csrRow1 .m true
  else if c = 0x7B0 || c = 0x7B1 || c = 0x7B8 || c = 0x7B9 then csrRow1 .m true
  else if c = 0x7C0 || c = 0x7C2 then csrRow1 .m false
  else if c = 0x7C1 || c = 0x7C3 || c = 0x7C4 then csrRow1 .m true
  else if c = 0x800 || c = 0x801 then csrRow1 .u true
  else if c = 0x802 then some { read := .u, write := some .m, bound := true }
  else if 0x810 ≤ c && c ≤ 0x819 then csrRow1 .u true
  else if 0x820 ≤ c && c ≤ 0x82A then csrRow1 .u false
  else if c = 0x82B then some { read := .u, write := some .s, bound := true }
  else if 0x830 ≤ c && c ≤ 0x840 then some { read := .u, write := some .s, bound := true }
  else if c = 0x841 then csrRow1 .s true
  else if c = 0x842 then some { read := .u, write := some .s, bound := true }
  else if c = 0xB00 || c = 0xB02 then csrRow1 .m true
  else if 0xC00 ≤ c && c ≤ 0xC02 then csrRowRO .u
  else if 0xCC0 ≤ c && c ≤ 0xCC2 then csrRowRO .u
  else if c = 0xF14 then csrRowRO .m
  else none

/-- The level order of R88: U below S below M. -/
def privLe : Priv → Priv → Bool
  | .u, _ => true
  | .s, .u => false
  | .s, _ => true
  | .m, .m => true
  | .m, _ => false

/-- Whether a CSR instruction is an instruction (R232): the address is a CSR, and a form that writes does not name an
address with bits [11:10] = 0b11. -/
def csrForm (c : BitVec 12) (writes : Bool) : Bool :=
  (csrRow c.toNat).isSome && (!writes || c.toNat / 1024 != 3)

end Sys2Proof.Machine
end

