-- ==== Sys2Proof/WellFormed.lean ====
section
/-! DEFINITION. Which terms of `Instr` are instructions: what the encoding admits beyond the widths of the fields
(R225 to R232). -/

namespace Sys2Proof

open Sys2Proof.Machine

/-- A register of a no-return form (R229). -/
def okNr (nr : Bool) (d : Reg) : Bool := !nr || d == 0

/-- The well-formed instructions; a happening is well formed. -/
def wellFormed : Instr → Bool
  | .csrrw _ c _ => csrForm c true
  | .csrrs _ c s => csrForm c (s != 0)
  | .csrrc _ c s => csrForm c (s != 0)
  | .csrrwi _ c _ => csrForm c true
  | .csrrsi _ c u => csrForm c (u != 0)
  | .csrrci _ c u => csrForm c (u != 0)
  | .fenceX a b => a.toNat ≤ 4 && b.toNat ≤ 4
  | .breq _ l => l != 3
  | .rmadd nr d _ _ => okNr nr d
  | .rmaddI32 nr d _ _ => okNr nr d
  | .rmand nr d _ _ => okNr nr d
  | .rmandI32 nr d _ _ => okNr nr d
  | .rmor nr d _ _ => okNr nr d
  | .rmorI32 nr d _ _ => okNr nr d
  | .rmxor nr d _ _ => okNr nr d
  | .rmxorI32 nr d _ _ => okNr nr d
  | .rmmin nr d _ _ => okNr nr d
  | .rmminI32 nr d _ _ => okNr nr d
  | .rmmax nr d _ _ => okNr nr d
  | .rmmaxI32 nr d _ _ => okNr nr d
  | .rmminu nr d _ _ => okNr nr d
  | .rmminuI32 nr d _ _ => okNr nr d
  | .rmmaxu nr d _ _ => okNr nr d
  | .rmmaxuI32 nr d _ _ => okNr nr d
  | .rmswap nr d _ _ => okNr nr d
  | .rmswapI32 nr d _ _ => okNr nr d
  | .rmfadd nr d _ _ => okNr nr d
  | .rmfmin nr d _ _ => okNr nr d
  | .rmfmax nr d _ _ => okNr nr d
  | _ => true

end Sys2Proof
end

