-- ==== Sys2Proof/Decode.lean ====
section
/-! DEFINITION. Decoding a 32-bit word, total on any word, and encoding a well-formed instruction, both from the
assignment tables of R216 to R232. A word that R231 excludes is rejected by name. -/

namespace Sys2Proof

open Sys2Proof.Machine

/-- Why a word is not an instruction (R231). -/
inductive Reject
  /-- Fewer than four bytes. -/
  | short
  /-- A major opcode that holds no instruction (R222). -/
  | majorNone
  /-- A combination of funct3, funct7 or immediate bits that R223 does not list. -/
  | baseNone
  /-- An unlisted F, sub, pair, op, type, function or sub-selector (R224 to R230). -/
  | customNone
  /-- A field that must be zero is not, or an immediate lies outside its range (R218, R219, R231). -/
  | fieldValue
  /-- A CSR instruction on an address that is no CSR, or that would write a read-only address (R232). -/
  | csrNone
  deriving DecidableEq, Repr

/-! ### Fields of the two layouts (R217, R218) -/

/-- Bits [31:27], [26:22], [21:17], [16:12], [11:7] of format C. -/
def fieldF (w : BitVec 32) : BitVec 5 := w.extractLsb' 27 5
/-- Field M of format C. -/
def fieldM (w : BitVec 32) : BitVec 5 := w.extractLsb' 22 5
/-- Field B of format C. -/
def fieldB (w : BitVec 32) : BitVec 5 := w.extractLsb' 17 5
/-- Field A of format C. -/
def fieldA (w : BitVec 32) : BitVec 5 := w.extractLsb' 12 5
/-- Field D of format C, and rd of the base formats. -/
def fieldD (w : BitVec 32) : BitVec 5 := w.extractLsb' 7 5
/-- The major opcode. -/
def fieldOp (w : BitVec 32) : BitVec 7 := w.extractLsb' 0 7
/-- funct7. -/
def fieldF7 (w : BitVec 32) : BitVec 7 := w.extractLsb' 25 7
/-- rs2. -/
def fieldS2 (w : BitVec 32) : BitVec 5 := w.extractLsb' 20 5
/-- rs1. -/
def fieldS1 (w : BitVec 32) : BitVec 5 := w.extractLsb' 15 5
/-- funct3. -/
def fieldF3 (w : BitVec 32) : BitVec 3 := w.extractLsb' 12 3

/-- A word of format C. -/
def packC (f m b a d : BitVec 5) (op : BitVec 7) : BitVec 32 := f ++ (m ++ (b ++ (a ++ (d ++ op))))
/-- A word of a base format, as format R lays it out. -/
def packR (f7 : BitVec 7) (s2 s1 : BitVec 5) (f3 : BitVec 3) (d : BitVec 5) (op : BitVec 7) : BitVec 32 :=
  f7 ++ (s2 ++ (s1 ++ (f3 ++ (d ++ op))))

/-- The upper two bits of a 5-bit field. -/
def top2 (x : BitVec 5) : BitVec 2 := x.extractLsb' 3 2
/-- The lower three bits of a 5-bit field. -/
def low3 (x : BitVec 5) : BitVec 3 := x.extractLsb' 0 3
/-- The upper three bits of a 5-bit field. -/
def top3 (x : BitVec 5) : BitVec 3 := x.extractLsb' 2 3
/-- The lower two bits of a 5-bit field. -/
def low2 (x : BitVec 5) : BitVec 2 := x.extractLsb' 0 2
/-- The upper four bits of a 5-bit field. -/
def top4 (x : BitVec 5) : BitVec 4 := x.extractLsb' 1 4
/-- The lower four bits of a 5-bit field. -/
def low4 (x : BitVec 5) : BitVec 4 := x.extractLsb' 0 4

/-- The B immediate bits [12:1] from bits [31:25] and [11:7] (R217). -/
def immB (h : BitVec 7) (l : BitVec 5) : BitVec 12 :=
  h.extractLsb' 6 1 ++ (l.extractLsb' 0 1 ++ (h.extractLsb' 0 6 ++ l.extractLsb' 1 4))
/-- Bits [31:25] of a branch. -/
def immBHi (i : BitVec 12) : BitVec 7 := i.extractLsb' 11 1 ++ i.extractLsb' 4 6
/-- Bits [11:7] of a branch. -/
def immBLo (i : BitVec 12) : BitVec 5 := i.extractLsb' 0 4 ++ i.extractLsb' 10 1
/-- The J immediate bits [20:1] from bits [31:12] (R217). -/
def immJ (x : BitVec 20) : BitVec 20 :=
  x.extractLsb' 19 1 ++ (x.extractLsb' 0 8 ++ (x.extractLsb' 8 1 ++ x.extractLsb' 9 10))
/-- Bits [31:12] of a jump. -/
def immJBits (i : BitVec 20) : BitVec 20 :=
  i.extractLsb' 19 1 ++ (i.extractLsb' 0 10 ++ (i.extractLsb' 10 1 ++ i.extractLsb' 11 8))

/-! ### Codes of the types (R220, R221, R225, R227) -/

/-- Integer coding of ty (R220). -/
def decITy (t : BitVec 2) : ITy := match t.toNat with | 0 => .i8 | 1 => .i16 | 2 => .i32 | _ => .i4
/-- Float coding of ty (R220). -/
def decFTy (t : BitVec 2) : Option FTy := match t.toNat with | 0 => some .f32 | 1 => some .bf16 | 2 => some .f16 | _ => none
/-- Coding of ty3 (R221). -/
def decTy3 (t : BitVec 3) : Ty3 :=
  match t.toNat with | 0 => .i8 | 1 => .i16 | 2 => .i32 | 3 => .f32 | 4 => .bf16 | 5 => .f16 | 6 => .e4m3 | _ => .e5m2
/-- Coding of a rounding mode (R168). -/
def decMode (t : BitVec 2) : RMode := match t.toNat with | 0 => .rne | 1 => .rtz | 2 => .rup | _ => .rdn
/-- Coding of the pair field (R227). -/
def decPair (t : BitVec 4) : Option Pair :=
  match t.toNat with
  | 0 => some .i8i8 | 1 => some .e4m3e4m3 | 2 => some .e4m3e5m2 | 3 => some .e5m2e4m3 | 4 => some .e5m2e5m2
  | 5 => some .b8b8 | 6 => some .o4o4 | 7 => some .bf16bf16 | 8 => some .f16f16 | _ => none
/-- Width coding of VBCAST (R225). -/
def decBcast (t : BitVec 2) : BcastW := match t.toNat with | 0 => .w8 | 1 => .w16 | 2 => .w32 | _ => .w64

/-- Code of an integer type. -/
def encITy : ITy → BitVec 2 | .i8 => 0 | .i16 => 1 | .i32 => 2 | .i4 => 3
/-- Code of a float type. -/
def encFTy : FTy → BitVec 2 | .f32 => 0 | .bf16 => 1 | .f16 => 2
/-- Code of a ty3. -/
def encTy3 : Ty3 → BitVec 3
  | .i8 => 0 | .i16 => 1 | .i32 => 2 | .f32 => 3 | .bf16 => 4 | .f16 => 5 | .e4m3 => 6 | .e5m2 => 7
/-- Code of a rounding mode. -/
def encMode : RMode → BitVec 2 | .rne => 0 | .rtz => 1 | .rup => 2 | .rdn => 3
/-- Code of a pair. -/
def encPair : Pair → BitVec 4
  | .i8i8 => 0 | .e4m3e4m3 => 1 | .e4m3e5m2 => 2 | .e5m2e4m3 => 3 | .e5m2e5m2 => 4 | .b8b8 => 5 | .o4o4 => 6
  | .bf16bf16 => 7 | .f16f16 => 8
/-- Code of a broadcast width. -/
def encBcast : BcastW → BitVec 2 | .w8 => 0 | .w16 => 1 | .w32 => 2 | .w64 => 3
/-- Code of a VMACC type. -/
def encMacTy : MacTy → BitVec 2 | .bf16 => 0 | .f16 => 1
/-- Code of a VDOT2 type. -/
def encDot2Ty : Dot2Ty → BitVec 2 | .bf16 => 0 | .f16 => 1 | .i16 => 2
/-- Code of a VDOT4 type. -/
def encDot4Ty : Dot4Ty → BitVec 2 | .e4m3 => 0 | .e5m2 => 1 | .i8 => 2

/-- A flag as one bit. -/
def encBit (b : Bool) : BitVec 1 := BitVec.ofBool b
/-- Bit `n` of a field. -/
def bitAt {k : Nat} (x : BitVec k) (n : Nat) : Bool := x.getLsbD n

/-- The instruction where a field constraint holds. -/
def need (b : Bool) (i : Instr) : Except Reject Instr := if b then .ok i else .error .fieldValue

/-- A form whose float type may be the fourth code, which is no instruction (R220). -/
def needF (t : BitVec 2) (b : Bool) (k : FTy → Instr) : Except Reject Instr :=
  match decFTy t with
  | some ty => need b (k ty)
  | none => .error .customNone

/-- A matrix product of a listed pair (R227). -/
def needPair (m : BitVec 5) (k : Pair → Instr) : Except Reject Instr :=
  match decPair (top4 m) with
  | some p => need (!bitAt m 0) (k p)
  | none => .error .customNone

/-- A CSR form (R232). -/
def needCsr (c : BitVec 12) (writes : Bool) (i : Instr) : Except Reject Instr :=
  if csrForm c writes then .ok i else .error .csrNone

/-! ### Base opcodes (R223) -/

/-- LOAD. -/
def decLoad (i : BitVec 12) (s d : Reg) (f3 : BitVec 3) : Except Reject Instr :=
  match f3.toNat with
  | 0 => .ok (.lb d s i)
  | 1 => .ok (.lh d s i)
  | 2 => .ok (.lw d s i)
  | 3 => .ok (.ld d s i)
  | 4 => .ok (.lbu d s i)
  | 5 => .ok (.lhu d s i)
  | 6 => .ok (.lwu d s i)
  | _ => .error .baseNone

/-- STORE. -/
def decStore (i : BitVec 12) (s t : Reg) (f3 : BitVec 3) : Except Reject Instr :=
  match f3.toNat with
  | 0 => .ok (.sb t s i)
  | 1 => .ok (.sh t s i)
  | 2 => .ok (.sw t s i)
  | 3 => .ok (.sd t s i)
  | _ => .error .baseNone

/-- BRANCH. -/
def decBranch (i : BitVec 12) (s t : Reg) (f3 : BitVec 3) : Except Reject Instr :=
  match f3.toNat with
  | 0 => .ok (.beq s t i)
  | 1 => .ok (.bne s t i)
  | 4 => .ok (.blt s t i)
  | 5 => .ok (.bge s t i)
  | 6 => .ok (.bltu s t i)
  | 7 => .ok (.bgeu s t i)
  | _ => .error .baseNone

/-- OP-IMM: an immediate form, or a shift whose imm[11:6] is 0 or 0b010000. -/
def decOpImm (h : BitVec 6) (sh : BitVec 6) (s d : Reg) (f3 : BitVec 3) : Except Reject Instr :=
  match f3.toNat with
  | 0 => .ok (.addi d s (h ++ sh))
  | 2 => .ok (.slti d s (h ++ sh))
  | 3 => .ok (.sltiu d s (h ++ sh))
  | 4 => .ok (.xori d s (h ++ sh))
  | 6 => .ok (.ori d s (h ++ sh))
  | 7 => .ok (.andi d s (h ++ sh))
  | 1 => if h = 0 then .ok (.slli d s sh) else .error .baseNone
  | _ => if h = 0 then .ok (.srli d s sh) else if h = 0b010000 then .ok (.srai d s sh) else .error .baseNone

/-- OP-IMM-32. -/
def decOpImm32 (h : BitVec 7) (sh : BitVec 5) (s d : Reg) (f3 : BitVec 3) : Except Reject Instr :=
  match f3.toNat with
  | 0 => .ok (.addiw d s (h ++ sh))
  | 1 => if h = 0 then .ok (.slliw d s sh) else .error .baseNone
  | 5 => if h = 0 then .ok (.srliw d s sh) else if h = 0b0100000 then .ok (.sraiw d s sh) else .error .baseNone
  | _ => .error .baseNone

/-- OP. -/
def decOp (f7 : BitVec 7) (t s d : Reg) (f3 : BitVec 3) : Except Reject Instr :=
  match f7.toNat, f3.toNat with
  | 0, 0 => .ok (.add d s t)
  | 0, 1 => .ok (.sll d s t)
  | 0, 2 => .ok (.slt d s t)
  | 0, 3 => .ok (.sltu d s t)
  | 0, 4 => .ok (.xor d s t)
  | 0, 5 => .ok (.srl d s t)
  | 0, 6 => .ok (.or d s t)
  | 0, 7 => .ok (.and d s t)
  | 32, 0 => .ok (.sub d s t)
  | 32, 5 => .ok (.sra d s t)
  | 1, 0 => .ok (.mul d s t)
  | 1, 1 => .ok (.mulh d s t)
  | 1, 2 => .ok (.mulhsu d s t)
  | 1, 3 => .ok (.mulhu d s t)
  | 1, 4 => .ok (.div d s t)
  | 1, 5 => .ok (.divu d s t)
  | 1, 6 => .ok (.rem d s t)
  | 1, 7 => .ok (.remu d s t)
  | _, _ => .error .baseNone

/-- OP-32. -/
def decOp32 (f7 : BitVec 7) (t s d : Reg) (f3 : BitVec 3) : Except Reject Instr :=
  match f7.toNat, f3.toNat with
  | 0, 0 => .ok (.addw d s t)
  | 0, 1 => .ok (.sllw d s t)
  | 0, 5 => .ok (.srlw d s t)
  | 32, 0 => .ok (.subw d s t)
  | 32, 5 => .ok (.sraw d s t)
  | 1, 0 => .ok (.mulw d s t)
  | 1, 4 => .ok (.divw d s t)
  | 1, 5 => .ok (.divuw d s t)
  | 1, 6 => .ok (.remw d s t)
  | 1, 7 => .ok (.remuw d s t)
  | _, _ => .error .baseNone

/-- SYSTEM: ECALL and EBREAK are two exact words. -/
def decSystem (w : BitVec 32) (c : BitVec 12) (s d : Reg) (f3 : BitVec 3) : Except Reject Instr :=
  match f3.toNat with
  | 0 => if w = 0x00000073 then .ok .ecall else if w = 0x00100073 then .ok .ebreak else .error .baseNone
  | 1 => needCsr c true (.csrrw d c s)
  | 2 => needCsr c (s != 0) (.csrrs d c s)
  | 3 => needCsr c (s != 0) (.csrrc d c s)
  | 5 => needCsr c true (.csrrwi d c s)
  | 6 => needCsr c (s != 0) (.csrrsi d c s)
  | 7 => needCsr c (s != 0) (.csrrci d c s)
  | _ => .error .baseNone

/-! ### custom-0 (R224, R225) -/

/-- The accumulator group. -/
def decAcc (m b a d : BitVec 5) : Except Reject Instr :=
  match m.toNat with
  | 0 => match (top2 d).toNat with
    | 0 => .ok (.vmacc .bf16 (low3 d) a b)
    | 1 => .ok (.vmacc .f16 (low3 d) a b)
    | _ => .error .customNone
  | 1 => match (top2 d).toNat with
    | 0 => .ok (.vdot2 .bf16 (low3 d) a b)
    | 1 => .ok (.vdot2 .f16 (low3 d) a b)
    | 2 => .ok (.vdot2 .i16 (low3 d) a b)
    | _ => .error .customNone
  | 2 => match (top2 d).toNat with
    | 0 => .ok (.vdot4 .e4m3 (low3 d) a b)
    | 1 => .ok (.vdot4 .e5m2 (low3 d) a b)
    | 2 => .ok (.vdot4 .i8 (low3 d) a b)
    | _ => .error .customNone
  | 3 => need (!bitAt b 4 && top2 a == 0) (.vnarrow (decTy3 (b.extractLsb' 1 3)) (bitAt b 0) d (low3 a))
  | 4 => need (b == 0 && a == 0 && top2 d == 0) (.accz (low3 d))
  | 5 => need (top2 b == 0 && d == 0) (.accst (low3 b) a)
  | 6 => need (b == 0 && top2 d == 0) (.accld (low3 d) a)
  | 7 => need (b == 0) (.vxchg d a)
  | _ => .error .customNone

/-- The predicate group. -/
def decPred (m b a d : BitVec 5) : Except Reject Instr :=
  match m.toNat with
  | 0 => need (top2 b == 0 && top2 a == 0 && top2 d == 0) (.pand (low3 d) (low3 a) (low3 b))
  | 1 => need (top2 b == 0 && top2 a == 0 && top2 d == 0) (.por (low3 d) (low3 a) (low3 b))
  | 2 => need (top2 b == 0 && top2 a == 0 && top2 d == 0) (.pxor (low3 d) (low3 a) (low3 b))
  | 3 => need (top2 b == 0 && top2 a == 0 && top2 d == 0) (.pandn (low3 d) (low3 a) (low3 b))
  | 4 => need (b == 0 && top2 a == 0 && top2 d == 0) (.pnot (low3 d) (low3 a))
  | 5 => need (b == 0 && top2 a == 0) (.pcnt d (low3 a))
  | 6 => need (b == 0 && top2 a == 0) (.pfirst d (low3 a))
  | 7 => need (b == 0 && top2 d == 0) (.plt (low3 d) a)
  | _ => .error .customNone

/-- The reduction and permute group. -/
def decRed (m b a d : BitVec 5) : Except Reject Instr :=
  match m.toNat with
  | 0 => need (top3 b == 0) (.vredsum (decITy (low2 b)) d a)
  | 1 => need (top3 b == 0) (.vredmax (decITy (low2 b)) d a)
  | 2 => need (top3 b == 0) (.vredmin (decITy (low2 b)) d a)
  | 3 => needF (low2 b) (top3 b == 0) (fun ty => .vfredsum ty d a)
  | 4 => needF (low2 b) (top3 b == 0) (fun ty => .vfredmax ty d a)
  | 5 => needF (low2 b) (top3 b == 0) (fun ty => .vfredmin ty d a)
  | 6 => .ok (.vslideup d a b)
  | 7 => .ok (.vslidedn d a b)
  | 8 => .ok (.vperm d a b)
  | 9 => need (top3 b == 0) (.vbcast (decBcast (low2 b)) d a)
  | 10 => .ok (.vget d a b)
  | 11 => .ok (.vset d a b)
  | _ => .error .customNone

/-- The special functions. -/
def decSpecial (m b a d : BitVec 5) : Except Reject Instr :=
  match b.toNat with
  | 0 => needF (low2 m) true (fun ty => .vfexp2 (top3 m) ty d a)
  | 1 => needF (low2 m) true (fun ty => .vflog2 (top3 m) ty d a)
  | 2 => needF (low2 m) true (fun ty => .vfrcp (top3 m) ty d a)
  | 3 => needF (low2 m) true (fun ty => .vfrsqrt (top3 m) ty d a)
  | 4 => needF (low2 m) true (fun ty => .vfsqrt (top3 m) ty d a)
  | 5 => needF (low2 m) true (fun ty => .vftanh (top3 m) ty d a)
  | 6 => needF (low2 m) true (fun ty => .vfsig (top3 m) ty d a)
  | 7 => needF (low2 m) true (fun ty => .vferf (top3 m) ty d a)
  | _ => .error .customNone

/-- custom-0. -/
def decC0 (f m b a d : BitVec 5) : Except Reject Instr :=
  match f.toNat with
  | 0 => .ok (.vadd (top3 m) (decITy (low2 m)) d a b)
  | 1 => .ok (.vsub (top3 m) (decITy (low2 m)) d a b)
  | 2 => .ok (.vmul (top3 m) (decITy (low2 m)) d a b)
  | 3 => .ok (.vsel (top3 m) (decITy (low2 m)) d a b)
  | 4 => .ok (.vsadd (top3 m) (decITy (low2 m)) d a b)
  | 5 => .ok (.vssub (top3 m) (decITy (low2 m)) d a b)
  | 6 => .ok (.vmin (top3 m) (decITy (low2 m)) d a b)
  | 7 => .ok (.vmax (top3 m) (decITy (low2 m)) d a b)
  | 8 => .ok (.vminu (top3 m) (decITy (low2 m)) d a b)
  | 9 => .ok (.vmaxu (top3 m) (decITy (low2 m)) d a b)
  | 10 => .ok (.vand (top3 m) (decITy (low2 m)) d a b)
  | 11 => .ok (.vor (top3 m) (decITy (low2 m)) d a b)
  | 12 => .ok (.vxor (top3 m) (decITy (low2 m)) d a b)
  | 13 => .ok (.vsll (top3 m) (decITy (low2 m)) d a b)
  | 14 => .ok (.vsrl (top3 m) (decITy (low2 m)) d a b)
  | 15 => .ok (.vsra (top3 m) (decITy (low2 m)) d a b)
  | 16 => needF (low2 m) true (fun ty => .vfadd (top3 m) ty d a b)
  | 17 => needF (low2 m) true (fun ty => .vfsub (top3 m) ty d a b)
  | 18 => needF (low2 m) true (fun ty => .vfmul (top3 m) ty d a b)
  | 19 => needF (low2 m) true (fun ty => .vfma (top3 m) ty d a b)
  | 20 => needF (low2 m) true (fun ty => .vfmin (top3 m) ty d a b)
  | 21 => needF (low2 m) true (fun ty => .vfmax (top3 m) ty d a b)
  | 22 => needF (low2 m) true (fun ty => .vfdiv (top3 m) ty d a b)
  | 23 => decSpecial m b a d
  | 24 => match (top2 d).toNat with
    | 0 => .ok (.vcmpeq (top3 m) (decITy (low2 m)) (low3 d) a b)
    | 1 => .ok (.vcmplt (top3 m) (decITy (low2 m)) (low3 d) a b)
    | 2 => .ok (.vcmple (top3 m) (decITy (low2 m)) (low3 d) a b)
    | _ => .ok (.vcmpltu (top3 m) (decITy (low2 m)) (low3 d) a b)
  | 25 => match (top2 d).toNat with
    | 0 => needF (low2 m) true (fun ty => .vfcmpeq (top3 m) ty (low3 d) a b)
    | 1 => needF (low2 m) true (fun ty => .vfcmplt (top3 m) ty (low3 d) a b)
    | 2 => needF (low2 m) true (fun ty => .vfcmple (top3 m) ty (low3 d) a b)
    | _ => needF (low2 m) true (fun ty => .vfcmpun (top3 m) ty (low3 d) a b)
  | 26 => decAcc m b a d
  | 27 => match (low2 m).toNat with
    | 0 => need (b == 0) (.vld (top3 m) d a)
    | 1 => need (b == 0) (.vst (top3 m) d a)
    | 2 => .ok (.vlds (top3 m) d a b)
    | _ => .ok (.vsts (top3 m) d a b)
  | 28 => match (low2 m).toNat with
    | 0 => .ok (.vldx (top3 m) d a b)
    | 1 => .ok (.vstx (top3 m) d a b)
    | 2 => needF (low2 b) (top3 b == 0) (fun ty => .vldf (top3 m) ty d a)
    | _ => .error .customNone
  | 29 => decPred m b a d
  | 30 => decRed m b a d
  | _ => need (!bitAt b 0)
      (.vcvt (decTy3 (top3 m)) (decMode (low2 m)) (decTy3 (top3 b)) (bitAt b 1) d a)

/-! ### custom-1 (R226) -/

/-- custom-1. -/
def decC1 (f m b a d : BitVec 5) : Except Reject Instr :=
  match f.toNat with
  | 0 => needPair m (fun p => .mma p d a b)
  | 1 => needPair m (fun p => .mmav p d a b)
  | 2 => needPair m (fun p => .mmat p d a b)
  | 3 => need (m == 0 && b == 0 && d == 0) (.aclr a)
  | 4 => need (top4 b == 0) (.anarrow (decTy3 (top3 m)) (decMode (low2 m)) (bitAt b 0) d a)
  | 5 => need (m == 0 && d == 0) (.ald a b)
  | 6 => need (m == 0 && d == 0) (.ast a b)
  | 7 => need (m == 0 && b == 0) (.amovv d a)
  | 8 => need (m == 0 && d == 0) (.amova a b)
  | 9 => need (m == 0 && b == 0 && d == 0) (.unfcfg a)
  | 10 => need (m == 0 && b == 0 && top2 d == 0) (.qbind (low3 d) a)
  | 11 => need (m == 0 && b == 0 && a == 0 && top2 d == 0) (.qunbind (low3 d))
  | 12 => need (m == 0 && b == 0 && top2 a == 0) (.qld d (low3 a))
  | 13 => need (m == 0 && d == 0 && top2 a == 0) (.qst (low3 a) b)
  | 14 => need (m == 0 && b == 0 && top2 a == 0) (.qldx d (low3 a))
  | 15 => need (m == 0 && d == 0 && top2 a == 0) (.qstx (low3 a) b)
  | 16 => need (m == 0 && b == 0 && top2 a == 0) (.qpos d (low3 a))
  | 17 => need (m == 0 && b == 0 && d == 0 && top2 a == 0) (.qflush (low3 a))
  | 18 => need (m == 0 && b == 0) (.cpyGo d a)
  | 19 => need (m == 0) (.cpyGoM d a b)
  | 20 => need (m == 0 && b == 0 && a == 0) (.cpyCancel d)
  | 21 => need (m == 0 && b == 0) (.cpyProg d a)
  | 22 => .ok (.waitc d a b m)
  | 23 => need (m == 0 && d == 0) (.ascale a b)
  | _ => .error .customNone

/-! ### custom-2 (R228, R229) -/

/-- A no-return form has D 0, but for RMCAS, whose D names the expected value (R229). -/
def rmForm (nr : Bool) (d : Reg) (k : Bool → Reg → Instr) : Except Reject Instr := need (!nr || d == 0) (k nr d)

/-- Remote atomics on 64 bits. -/
def decRm64 (nr : Bool) (op : BitVec 4) (b a d : BitVec 5) : Except Reject Instr :=
  match op.toNat with
  | 0 => rmForm nr d (fun nr d => .rmadd nr d b a)
  | 1 => rmForm nr d (fun nr d => .rmand nr d b a)
  | 2 => rmForm nr d (fun nr d => .rmor nr d b a)
  | 3 => rmForm nr d (fun nr d => .rmxor nr d b a)
  | 4 => rmForm nr d (fun nr d => .rmmin nr d b a)
  | 5 => rmForm nr d (fun nr d => .rmmax nr d b a)
  | 6 => rmForm nr d (fun nr d => .rmminu nr d b a)
  | 7 => rmForm nr d (fun nr d => .rmmaxu nr d b a)
  | 8 => rmForm nr d (fun nr d => .rmswap nr d b a)
  | 9 => .ok (.rmcas nr d b a)
  | _ => .error .customNone

/-- Remote atomics on 32 bits. -/
def decRm32 (nr : Bool) (op : BitVec 4) (b a d : BitVec 5) : Except Reject Instr :=
  match op.toNat with
  | 0 => rmForm nr d (fun nr d => .rmaddI32 nr d b a)
  | 1 => rmForm nr d (fun nr d => .rmandI32 nr d b a)
  | 2 => rmForm nr d (fun nr d => .rmorI32 nr d b a)
  | 3 => rmForm nr d (fun nr d => .rmxorI32 nr d b a)
  | 4 => rmForm nr d (fun nr d => .rmminI32 nr d b a)
  | 5 => rmForm nr d (fun nr d => .rmmaxI32 nr d b a)
  | 6 => rmForm nr d (fun nr d => .rmminuI32 nr d b a)
  | 7 => rmForm nr d (fun nr d => .rmmaxuI32 nr d b a)
  | 8 => rmForm nr d (fun nr d => .rmswapI32 nr d b a)
  | 9 => .ok (.rmcasI32 nr d b a)
  | 10 => rmForm nr d (fun nr d => .rmfadd nr d b a)
  | 11 => rmForm nr d (fun nr d => .rmfmin nr d b a)
  | 12 => rmForm nr d (fun nr d => .rmfmax nr d b a)
  | _ => .error .customNone

/-- Crozier operations (R378). -/
def decCrz (op : BitVec 4) (b a : BitVec 5) : Except Reject Instr :=
  match op.toNat with
  | 0 => .ok (.crzsendAdd a b)
  | 1 => .ok (.crzsendMax a b)
  | 2 => .ok (.crzsendMin a b)
  | 3 => .ok (.crzsendAnd a b)
  | 4 => .ok (.crzsendOr a b)
  | 5 => .ok (.crzsendXor a b)
  | 6 => .ok (.crzsendBadd a b)
  | _ => .error .customNone

/-- custom-2. -/
def decC2 (f m b a d : BitVec 5) : Except Reject Instr :=
  match f.toNat with
  | 0 => .ok (.send (bitAt m 4) (low4 m) d a b)
  | 1 => .ok (.sendv (bitAt m 4) (low4 m) d a b)
  | 2 => need (m == 0 && d == 0) (.reply a b)
  | 3 => need (m == 0 && b == 0 && a == 0) (.msgrd d)
  | 4 => need (m == 0 && b == 0 && a == 0) (.msgsrc d)
  | 5 => need (!bitAt m 4 && b == 0 && a == 0 && d == 0) (.chon (low4 m))
  | 6 => need (!bitAt m 4 && b == 0 && a == 0 && d == 0) (.choff (low4 m))
  | 7 => decRm64 (bitAt m 4) (low4 m) b a d
  | 8 => decRm32 (bitAt m 4) (low4 m) b a d
  | 9 => need (m == 0 && d == 0) (.logapp a b)
  | 10 => need (m == 0 && b == 0) (.logmrg d a)
  | 11 => need (m == 0 && b == 0) (.tktget d a)
  | 12 => need (m == 0 && d == 0) (.tktwait a b)
  | 13 => need (m == 0 && b == 0 && d == 0) (.tktadv a)
  | 14 => need (m == 0 && d == 0) (.bararr a b)
  | 15 => need (m == 0 && b == 0) (.barwait d a)
  | 16 => need (m == 0 && b == 0 && a == 0) (.gbar d)
  | 17 => need (m == 0 && b == 0) (.lbar d a)
  | 18 => need (m == 0 && b == 0 && a == 0 && d == 0) .chunkend
  | 19 => need (m == 0) (.otdecl d a b)
  | 20 => need (m == 0 && b == 0) (.launch d a)
  | 21 => need (m == 0 && d == 0 && a.toNat ≤ 4 && b.toNat ≤ 4) (.fenceX a b)
  | 22 => if bitAt m 4 || d != 0 then .error .fieldValue else decCrz (low4 m) b a
  | 23 => need (m == 0 && b == 0) (.crzrecv d a)
  | 24 => if bitAt m 4 then need (low4 m == 0 && d == 0) (.haltR a b)
      else need (low4 m == 0 && b == 0 && a == 0 && d == 0) .halt
  | _ => .error .customNone

/-! ### custom-3 (R230) -/

/-- custom-3. -/
def decC3 (f m b a d : BitVec 5) : Except Reject Instr :=
  match f.toNat with
  | 0 => need (m == 0 && b == 0 && d == 0) (.waitC a)
  | 1 => need (m == 0 && b == 0 && d == 0) (.waitT a)
  | 2 => need (m == 0 && b == 0 && d == 0) (.waitTr a)
  | 3 => need (b == 0 && a == 0 && d == 0 && low2 m != 3) (.breq (top3 m) (low2 m))
  | 4 => need (m == 0 && b == 0 && a == 0 && d == 0) .eretS
  | 5 => need (m == 0 && b == 0 && a == 0 && d == 0) .eretM
  | 6 => need (m == 0 && b == 0 && a == 0 && d == 0) .tron
  | 7 => need (m == 0 && b == 0 && a == 0 && d == 0) .troff
  | 8 => need (m == 0 && b == 0 && d == 0) (.trmark a)
  | 9 => need (b == 0 && a == 0 && d == 0) (.capon m)
  | 10 => need (b == 0 && a == 0 && d == 0) (.capoff m)
  | 11 => need (b == 0 && a == 0) (.caprd d m)
  | 12 => need (m == 0 && b == 0) (.scanrun d a)
  | 13 => need (m == 0 && b == 0 && a == 0) (.scanstat d)
  | 14 => need (m == 0 && b == 0 && a == 0 && d == 0) .scanabort
  | 15 => need (m == 0 && b == 0) (.maprd d a)
  | 16 => need (m == 0 && b == 0 && d == 0) (.maprm a)
  | 17 => need (m == 0 && b == 0 && d == 0) (.mapadd a)
  | 18 => need (m == 0 && b == 0) (.preq d a)
  | _ => .error .customNone

/-! ### The word -/

/-- The instruction of a word, or why it is none (R216, R222, R231). -/
def decodeWord (w : BitVec 32) : Except Reject Instr :=
  match (fieldOp w).toNat with
  | 0x03 => decLoad (fieldF7 w ++ fieldS2 w) (fieldS1 w) (fieldD w) (fieldF3 w)
  | 0x0B => decC0 (fieldF w) (fieldM w) (fieldB w) (fieldA w) (fieldD w)
  | 0x0F => if fieldF3 w = 0 then
      .ok (.fence (w.extractLsb' 28 4) (w.extractLsb' 24 4) (w.extractLsb' 20 4) (fieldS1 w) (fieldD w))
    else .error .baseNone
  | 0x13 => decOpImm (w.extractLsb' 26 6) (w.extractLsb' 20 6) (fieldS1 w) (fieldD w) (fieldF3 w)
  | 0x17 => .ok (.auipc (fieldD w) (w.extractLsb' 12 20))
  | 0x1B => decOpImm32 (fieldF7 w) (fieldS2 w) (fieldS1 w) (fieldD w) (fieldF3 w)
  | 0x23 => decStore (fieldF7 w ++ fieldD w) (fieldS1 w) (fieldS2 w) (fieldF3 w)
  | 0x2B => decC1 (fieldF w) (fieldM w) (fieldB w) (fieldA w) (fieldD w)
  | 0x33 => decOp (fieldF7 w) (fieldS2 w) (fieldS1 w) (fieldD w) (fieldF3 w)
  | 0x37 => .ok (.lui (fieldD w) (w.extractLsb' 12 20))
  | 0x3B => decOp32 (fieldF7 w) (fieldS2 w) (fieldS1 w) (fieldD w) (fieldF3 w)
  | 0x5B => decC2 (fieldF w) (fieldM w) (fieldB w) (fieldA w) (fieldD w)
  | 0x63 => decBranch (immB (fieldF7 w) (fieldD w)) (fieldS1 w) (fieldS2 w) (fieldF3 w)
  | 0x67 => if fieldF3 w = 0 then .ok (.jalr (fieldD w) (fieldS1 w) (fieldF7 w ++ fieldS2 w)) else .error .baseNone
  | 0x6F => .ok (.jal (fieldD w) (immJ (w.extractLsb' 12 20)))
  | 0x73 => decSystem w (fieldF7 w ++ fieldS2 w) (fieldS1 w) (fieldD w) (fieldF3 w)
  | 0x7B => decC3 (fieldF w) (fieldM w) (fieldB w) (fieldA w) (fieldD w)
  | _ => .error .majorNone

/-- A word from its four bytes, the first at the lowest address (R4). -/
def wordOfBytes (b0 b1 b2 b3 : Byte) : BitVec 32 := b3 ++ (b2 ++ (b1 ++ b0))

/-- Decoding of bytes: the instruction of the first word and the bytes that follow it, or why there is none. -/
def decode : List Byte → Except Reject (Instr × List Byte)
  | b0 :: b1 :: b2 :: b3 :: rest => (decodeWord (wordOfBytes b0 b1 b2 b3)).map (fun i => (i, rest))
  | _ => .error .short

/-- The instruction that the decoder reads from an instruction whose bits are `w`, numbered as the opcode table numbers
them. Every instruction is one 32-bit word (R216), so bits at and above 32 belong to no instruction. -/
def decodeTableWord (nbits w : Nat) : Option Instr :=
  if nbits ≤ 32 then (decodeWord (BitVec.ofNat 32 w)).toOption else none

/-! ### Encoding -/

/-- Format I: a 12-bit immediate, rs1, funct3, rd. -/
def encI (i : BitVec 12) (s : Reg) (f3 : BitVec 3) (d : Reg) (op : BitVec 7) : BitVec 32 :=
  packR (i.extractLsb' 5 7) (i.extractLsb' 0 5) s f3 d op
/-- Format S. -/
def encS (i : BitVec 12) (t s : Reg) (f3 : BitVec 3) : BitVec 32 :=
  packR (i.extractLsb' 5 7) t s f3 (i.extractLsb' 0 5) 0x23
/-- Format B. -/
def encB (i : BitVec 12) (t s : Reg) (f3 : BitVec 3) : BitVec 32 := packR (immBHi i) t s f3 (immBLo i) 0x63
/-- Formats U and J: bits [31:12], rd. -/
def encU (i : BitVec 20) (d : Reg) (op : BitVec 7) : BitVec 32 := i ++ (d ++ op)
/-- A 3-bit register in a 5-bit field whose upper bits are `u` (R219). -/
def fld3 (u : BitVec 2) (r : Reg3) : BitVec 5 := u ++ r
/-- The M field of a guarded form (R218). -/
def fldG (g : BitVec 3) (t : BitVec 2) : BitVec 5 := g ++ t
/-- A bit above a 4-bit field. -/
def fld14 (h : Bool) (l : BitVec 4) : BitVec 5 := encBit h ++ l
/-- A 4-bit field above a bit. -/
def fld41 (h : BitVec 4) (l : Bool) : BitVec 5 := h ++ encBit l

/-- The word of an instruction, from the same tables; an event has none. -/
def encodeWord : Instr → Option (BitVec 32)
  | .lb d s i => some (encI i s 0 d 0x03)
  | .lh d s i => some (encI i s 1 d 0x03)
  | .lw d s i => some (encI i s 2 d 0x03)
  | .ld d s i => some (encI i s 3 d 0x03)
  | .lbu d s i => some (encI i s 4 d 0x03)
  | .lhu d s i => some (encI i s 5 d 0x03)
  | .lwu d s i => some (encI i s 6 d 0x03)
  | .sb t s i => some (encS i t s 0)
  | .sh t s i => some (encS i t s 1)
  | .sw t s i => some (encS i t s 2)
  | .sd t s i => some (encS i t s 3)
  | .beq s t i => some (encB i t s 0)
  | .bne s t i => some (encB i t s 1)
  | .blt s t i => some (encB i t s 4)
  | .bge s t i => some (encB i t s 5)
  | .bltu s t i => some (encB i t s 6)
  | .bgeu s t i => some (encB i t s 7)
  | .jalr d s i => some (encI i s 0 d 0x67)
  | .jal d i => some (encU (immJBits i) d 0x6F)
  | .lui d i => some (encU i d 0x37)
  | .auipc d i => some (encU i d 0x17)
  | .addi d s i => some (encI i s 0 d 0x13)
  | .slti d s i => some (encI i s 2 d 0x13)
  | .sltiu d s i => some (encI i s 3 d 0x13)
  | .xori d s i => some (encI i s 4 d 0x13)
  | .ori d s i => some (encI i s 6 d 0x13)
  | .andi d s i => some (encI i s 7 d 0x13)
  | .slli d s h => some (encI ((0 : BitVec 6) ++ h) s 1 d 0x13)
  | .srli d s h => some (encI ((0 : BitVec 6) ++ h) s 5 d 0x13)
  | .srai d s h => some (encI ((0b010000 : BitVec 6) ++ h) s 5 d 0x13)
  | .addiw d s i => some (encI i s 0 d 0x1B)
  | .slliw d s h => some (packR 0 h s 1 d 0x1B)
  | .srliw d s h => some (packR 0 h s 5 d 0x1B)
  | .sraiw d s h => some (packR 0b0100000 h s 5 d 0x1B)
  | .add d s t => some (packR 0 t s 0 d 0x33)
  | .sll d s t => some (packR 0 t s 1 d 0x33)
  | .slt d s t => some (packR 0 t s 2 d 0x33)
  | .sltu d s t => some (packR 0 t s 3 d 0x33)
  | .xor d s t => some (packR 0 t s 4 d 0x33)
  | .srl d s t => some (packR 0 t s 5 d 0x33)
  | .or d s t => some (packR 0 t s 6 d 0x33)
  | .and d s t => some (packR 0 t s 7 d 0x33)
  | .sub d s t => some (packR 32 t s 0 d 0x33)
  | .sra d s t => some (packR 32 t s 5 d 0x33)
  | .mul d s t => some (packR 1 t s 0 d 0x33)
  | .mulh d s t => some (packR 1 t s 1 d 0x33)
  | .mulhsu d s t => some (packR 1 t s 2 d 0x33)
  | .mulhu d s t => some (packR 1 t s 3 d 0x33)
  | .div d s t => some (packR 1 t s 4 d 0x33)
  | .divu d s t => some (packR 1 t s 5 d 0x33)
  | .rem d s t => some (packR 1 t s 6 d 0x33)
  | .remu d s t => some (packR 1 t s 7 d 0x33)
  | .addw d s t => some (packR 0 t s 0 d 0x3B)
  | .sllw d s t => some (packR 0 t s 1 d 0x3B)
  | .srlw d s t => some (packR 0 t s 5 d 0x3B)
  | .subw d s t => some (packR 32 t s 0 d 0x3B)
  | .sraw d s t => some (packR 32 t s 5 d 0x3B)
  | .mulw d s t => some (packR 1 t s 0 d 0x3B)
  | .divw d s t => some (packR 1 t s 4 d 0x3B)
  | .divuw d s t => some (packR 1 t s 5 d 0x3B)
  | .remw d s t => some (packR 1 t s 6 d 0x3B)
  | .remuw d s t => some (packR 1 t s 7 d 0x3B)
  | .fence fm p q s d => some (fm ++ (p ++ (q ++ (s ++ ((0 : BitVec 3) ++ (d ++ (0x0F : BitVec 7)))))))
  | .ecall => some 0x00000073
  | .ebreak => some 0x00100073
  | .csrrw d c s => some (encI c s 1 d 0x73)
  | .csrrs d c s => some (encI c s 2 d 0x73)
  | .csrrc d c s => some (encI c s 3 d 0x73)
  | .csrrwi d c s => some (encI c s 5 d 0x73)
  | .csrrsi d c s => some (encI c s 6 d 0x73)
  | .csrrci d c s => some (encI c s 7 d 0x73)
  | .vadd g ty d a b => some (packC 0 (fldG g (encITy ty)) b a d 0x0B)
  | .vsub g ty d a b => some (packC 1 (fldG g (encITy ty)) b a d 0x0B)
  | .vmul g ty d a b => some (packC 2 (fldG g (encITy ty)) b a d 0x0B)
  | .vsel g ty d a b => some (packC 3 (fldG g (encITy ty)) b a d 0x0B)
  | .vsadd g ty d a b => some (packC 4 (fldG g (encITy ty)) b a d 0x0B)
  | .vssub g ty d a b => some (packC 5 (fldG g (encITy ty)) b a d 0x0B)
  | .vmin g ty d a b => some (packC 6 (fldG g (encITy ty)) b a d 0x0B)
  | .vmax g ty d a b => some (packC 7 (fldG g (encITy ty)) b a d 0x0B)
  | .vminu g ty d a b => some (packC 8 (fldG g (encITy ty)) b a d 0x0B)
  | .vmaxu g ty d a b => some (packC 9 (fldG g (encITy ty)) b a d 0x0B)
  | .vand g ty d a b => some (packC 10 (fldG g (encITy ty)) b a d 0x0B)
  | .vor g ty d a b => some (packC 11 (fldG g (encITy ty)) b a d 0x0B)
  | .vxor g ty d a b => some (packC 12 (fldG g (encITy ty)) b a d 0x0B)
  | .vsll g ty d a b => some (packC 13 (fldG g (encITy ty)) b a d 0x0B)
  | .vsrl g ty d a b => some (packC 14 (fldG g (encITy ty)) b a d 0x0B)
  | .vsra g ty d a b => some (packC 15 (fldG g (encITy ty)) b a d 0x0B)
  | .vfadd g ty d a b => some (packC 16 (fldG g (encFTy ty)) b a d 0x0B)
  | .vfsub g ty d a b => some (packC 17 (fldG g (encFTy ty)) b a d 0x0B)
  | .vfmul g ty d a b => some (packC 18 (fldG g (encFTy ty)) b a d 0x0B)
  | .vfma g ty d a b => some (packC 19 (fldG g (encFTy ty)) b a d 0x0B)
  | .vfmin g ty d a b => some (packC 20 (fldG g (encFTy ty)) b a d 0x0B)
  | .vfmax g ty d a b => some (packC 21 (fldG g (encFTy ty)) b a d 0x0B)
  | .vfdiv g ty d a b => some (packC 22 (fldG g (encFTy ty)) b a d 0x0B)
  | .vfexp2 g ty d a => some (packC 23 (fldG g (encFTy ty)) 0 a d 0x0B)
  | .vflog2 g ty d a => some (packC 23 (fldG g (encFTy ty)) 1 a d 0x0B)
  | .vfrcp g ty d a => some (packC 23 (fldG g (encFTy ty)) 2 a d 0x0B)
  | .vfrsqrt g ty d a => some (packC 23 (fldG g (encFTy ty)) 3 a d 0x0B)
  | .vfsqrt g ty d a => some (packC 23 (fldG g (encFTy ty)) 4 a d 0x0B)
  | .vftanh g ty d a => some (packC 23 (fldG g (encFTy ty)) 5 a d 0x0B)
  | .vfsig g ty d a => some (packC 23 (fldG g (encFTy ty)) 6 a d 0x0B)
  | .vferf g ty d a => some (packC 23 (fldG g (encFTy ty)) 7 a d 0x0B)
  | .vcmpeq g ty d a b => some (packC 24 (fldG g (encITy ty)) b a (fld3 0 d) 0x0B)
  | .vcmplt g ty d a b => some (packC 24 (fldG g (encITy ty)) b a (fld3 1 d) 0x0B)
  | .vcmple g ty d a b => some (packC 24 (fldG g (encITy ty)) b a (fld3 2 d) 0x0B)
  | .vcmpltu g ty d a b => some (packC 24 (fldG g (encITy ty)) b a (fld3 3 d) 0x0B)
  | .vfcmpeq g ty d a b => some (packC 25 (fldG g (encFTy ty)) b a (fld3 0 d) 0x0B)
  | .vfcmplt g ty d a b => some (packC 25 (fldG g (encFTy ty)) b a (fld3 1 d) 0x0B)
  | .vfcmple g ty d a b => some (packC 25 (fldG g (encFTy ty)) b a (fld3 2 d) 0x0B)
  | .vfcmpun g ty d a b => some (packC 25 (fldG g (encFTy ty)) b a (fld3 3 d) 0x0B)
  | .vmacc ty d a b => some (packC 26 0 b a (fld3 (encMacTy ty) d) 0x0B)
  | .vdot2 ty d a b => some (packC 26 1 b a (fld3 (encDot2Ty ty) d) 0x0B)
  | .vdot4 ty d a b => some (packC 26 2 b a (fld3 (encDot4Ty ty) d) 0x0B)
  | .vnarrow ty sat d a => some (packC 26 3 ((0 : BitVec 1) ++ (encTy3 ty ++ encBit sat)) (fld3 0 a) d 0x0B)
  | .accz d => some (packC 26 4 0 0 (fld3 0 d) 0x0B)
  | .accst c a => some (packC 26 5 (fld3 0 c) a 0 0x0B)
  | .accld c a => some (packC 26 6 0 a (fld3 0 c) 0x0B)
  | .vxchg d a => some (packC 26 7 0 a d 0x0B)
  | .vld g d a => some (packC 27 (fldG g 0) 0 a d 0x0B)
  | .vst g d a => some (packC 27 (fldG g 1) 0 a d 0x0B)
  | .vlds g d a b => some (packC 27 (fldG g 2) b a d 0x0B)
  | .vsts g d a b => some (packC 27 (fldG g 3) b a d 0x0B)
  | .vldx g d a b => some (packC 28 (fldG g 0) b a d 0x0B)
  | .vstx g d a b => some (packC 28 (fldG g 1) b a d 0x0B)
  | .vldf g ty d a => some (packC 28 (fldG g 2) (fldG 0 (encFTy ty)) a d 0x0B)
  | .pand d a b => some (packC 29 0 (fld3 0 b) (fld3 0 a) (fld3 0 d) 0x0B)
  | .por d a b => some (packC 29 1 (fld3 0 b) (fld3 0 a) (fld3 0 d) 0x0B)
  | .pxor d a b => some (packC 29 2 (fld3 0 b) (fld3 0 a) (fld3 0 d) 0x0B)
  | .pandn d a b => some (packC 29 3 (fld3 0 b) (fld3 0 a) (fld3 0 d) 0x0B)
  | .pnot d a => some (packC 29 4 0 (fld3 0 a) (fld3 0 d) 0x0B)
  | .pcnt d a => some (packC 29 5 0 (fld3 0 a) d 0x0B)
  | .pfirst d a => some (packC 29 6 0 (fld3 0 a) d 0x0B)
  | .plt d a => some (packC 29 7 0 a (fld3 0 d) 0x0B)
  | .vredsum ty d a => some (packC 30 0 (fldG 0 (encITy ty)) a d 0x0B)
  | .vredmax ty d a => some (packC 30 1 (fldG 0 (encITy ty)) a d 0x0B)
  | .vredmin ty d a => some (packC 30 2 (fldG 0 (encITy ty)) a d 0x0B)
  | .vfredsum ty d a => some (packC 30 3 (fldG 0 (encFTy ty)) a d 0x0B)
  | .vfredmax ty d a => some (packC 30 4 (fldG 0 (encFTy ty)) a d 0x0B)
  | .vfredmin ty d a => some (packC 30 5 (fldG 0 (encFTy ty)) a d 0x0B)
  | .vslideup d a b => some (packC 30 6 b a d 0x0B)
  | .vslidedn d a b => some (packC 30 7 b a d 0x0B)
  | .vperm d a b => some (packC 30 8 b a d 0x0B)
  | .vbcast k d a => some (packC 30 9 (fldG 0 (encBcast k)) a d 0x0B)
  | .vget d a b => some (packC 30 10 b a d 0x0B)
  | .vset d a b => some (packC 30 11 b a d 0x0B)
  | .vcvt td mode ts sat d a => some (packC 31 (fldG (encTy3 td) (encMode mode)) (fldG (encTy3 ts) (encBit sat ++ (0 : BitVec 1))) a d 0x0B)
  | .mma p c a b => some (packC 0 (fld41 (encPair p) false) b a c 0x2B)
  | .mmav p c a b => some (packC 1 (fld41 (encPair p) false) b a c 0x2B)
  | .mmat p c a b => some (packC 2 (fld41 (encPair p) false) b a c 0x2B)
  | .aclr a => some (packC 3 0 0 a 0 0x2B)
  | .anarrow ty mode sat m g => some (packC 4 (fldG (encTy3 ty) (encMode mode)) (fld41 0 sat) g m 0x2B)
  | .ald g m => some (packC 5 0 m g 0 0x2B)
  | .ast g m => some (packC 6 0 m g 0 0x2B)
  | .amovv d g => some (packC 7 0 0 g d 0x2B)
  | .amova g b => some (packC 8 0 b g 0 0x2B)
  | .unfcfg a => some (packC 9 0 0 a 0 0x2B)
  | .qbind q a => some (packC 10 0 0 a (fld3 0 q) 0x2B)
  | .qunbind q => some (packC 11 0 0 0 (fld3 0 q) 0x2B)
  | .qld d q => some (packC 12 0 0 (fld3 0 q) d 0x2B)
  | .qst q b => some (packC 13 0 b (fld3 0 q) 0 0x2B)
  | .qldx d q => some (packC 14 0 0 (fld3 0 q) d 0x2B)
  | .qstx q b => some (packC 15 0 b (fld3 0 q) 0 0x2B)
  | .qpos d q => some (packC 16 0 0 (fld3 0 q) d 0x2B)
  | .qflush q => some (packC 17 0 0 (fld3 0 q) 0 0x2B)
  | .cpyGo d a => some (packC 18 0 0 a d 0x2B)
  | .cpyGoM d a b => some (packC 19 0 b a d 0x2B)
  | .cpyCancel n => some (packC 20 0 0 0 n 0x2B)
  | .cpyProg d n => some (packC 21 0 0 n d 0x2B)
  | .waitc l s c t => some (packC 22 t c s l 0x2B)
  | .ascale g b => some (packC 23 0 b g 0 0x2B)
  | .send c n t a b => some (packC 0 (fld14 c n) b a t 0x5B)
  | .sendv c n t a b => some (packC 1 (fld14 c n) b a t 0x5B)
  | .reply a b => some (packC 2 0 b a 0 0x5B)
  | .msgrd d => some (packC 3 0 0 0 d 0x5B)
  | .msgsrc d => some (packC 4 0 0 0 d 0x5B)
  | .chon n => some (packC 5 (fld14 false n) 0 0 0 0x5B)
  | .choff n => some (packC 6 (fld14 false n) 0 0 0 0x5B)
  | .rmadd nr d b a => some (packC 7 (fld14 nr 0) b a d 0x5B)
  | .rmand nr d b a => some (packC 7 (fld14 nr 1) b a d 0x5B)
  | .rmor nr d b a => some (packC 7 (fld14 nr 2) b a d 0x5B)
  | .rmxor nr d b a => some (packC 7 (fld14 nr 3) b a d 0x5B)
  | .rmmin nr d b a => some (packC 7 (fld14 nr 4) b a d 0x5B)
  | .rmmax nr d b a => some (packC 7 (fld14 nr 5) b a d 0x5B)
  | .rmminu nr d b a => some (packC 7 (fld14 nr 6) b a d 0x5B)
  | .rmmaxu nr d b a => some (packC 7 (fld14 nr 7) b a d 0x5B)
  | .rmswap nr d b a => some (packC 7 (fld14 nr 8) b a d 0x5B)
  | .rmcas nr d b a => some (packC 7 (fld14 nr 9) b a d 0x5B)
  | .rmaddI32 nr d b a => some (packC 8 (fld14 nr 0) b a d 0x5B)
  | .rmandI32 nr d b a => some (packC 8 (fld14 nr 1) b a d 0x5B)
  | .rmorI32 nr d b a => some (packC 8 (fld14 nr 2) b a d 0x5B)
  | .rmxorI32 nr d b a => some (packC 8 (fld14 nr 3) b a d 0x5B)
  | .rmminI32 nr d b a => some (packC 8 (fld14 nr 4) b a d 0x5B)
  | .rmmaxI32 nr d b a => some (packC 8 (fld14 nr 5) b a d 0x5B)
  | .rmminuI32 nr d b a => some (packC 8 (fld14 nr 6) b a d 0x5B)
  | .rmmaxuI32 nr d b a => some (packC 8 (fld14 nr 7) b a d 0x5B)
  | .rmswapI32 nr d b a => some (packC 8 (fld14 nr 8) b a d 0x5B)
  | .rmcasI32 nr d b a => some (packC 8 (fld14 nr 9) b a d 0x5B)
  | .rmfadd nr d b a => some (packC 8 (fld14 nr 10) b a d 0x5B)
  | .rmfmin nr d b a => some (packC 8 (fld14 nr 11) b a d 0x5B)
  | .rmfmax nr d b a => some (packC 8 (fld14 nr 12) b a d 0x5B)
  | .logapp a b => some (packC 9 0 b a 0 0x5B)
  | .logmrg d a => some (packC 10 0 0 a d 0x5B)
  | .tktget d a => some (packC 11 0 0 a d 0x5B)
  | .tktwait a b => some (packC 12 0 b a 0 0x5B)
  | .tktadv a => some (packC 13 0 0 a 0 0x5B)
  | .bararr a b => some (packC 14 0 b a 0 0x5B)
  | .barwait d a => some (packC 15 0 0 a d 0x5B)
  | .gbar d => some (packC 16 0 0 0 d 0x5B)
  | .lbar d a => some (packC 17 0 0 a d 0x5B)
  | .chunkend => some (packC 18 0 0 0 0 0x5B)
  | .otdecl d a b => some (packC 19 0 b a d 0x5B)
  | .launch d a => some (packC 20 0 0 a d 0x5B)
  | .fenceX a b => some (packC 21 0 b a 0 0x5B)
  | .crzsendAdd a b => some (packC 22 0 b a 0 0x5B)
  | .crzsendMax a b => some (packC 22 1 b a 0 0x5B)
  | .crzsendMin a b => some (packC 22 2 b a 0 0x5B)
  | .crzsendAnd a b => some (packC 22 3 b a 0 0x5B)
  | .crzsendOr a b => some (packC 22 4 b a 0 0x5B)
  | .crzsendXor a b => some (packC 22 5 b a 0 0x5B)
  | .crzsendBadd a b => some (packC 22 6 b a 0 0x5B)
  | .crzrecv d a => some (packC 23 0 0 a d 0x5B)
  | .halt => some (packC 24 0 0 0 0 0x5B)
  | .haltR a b => some (packC 24 0b10000 b a 0 0x5B)
  | .waitC a => some (packC 0 0 0 a 0 0x7B)
  | .waitT a => some (packC 1 0 0 a 0 0x7B)
  | .waitTr a => some (packC 2 0 0 a 0 0x7B)
  | .breq p l => some (packC 3 (fldG p l) 0 0 0 0x7B)
  | .eretS => some (packC 4 0 0 0 0 0x7B)
  | .eretM => some (packC 5 0 0 0 0 0x7B)
  | .tron => some (packC 6 0 0 0 0 0x7B)
  | .troff => some (packC 7 0 0 0 0 0x7B)
  | .trmark a => some (packC 8 0 0 a 0 0x7B)
  | .capon n => some (packC 9 n 0 0 0 0x7B)
  | .capoff n => some (packC 10 n 0 0 0 0x7B)
  | .caprd d n => some (packC 11 n 0 0 d 0x7B)
  | .scanrun d a => some (packC 12 0 0 a d 0x7B)
  | .scanstat d => some (packC 13 0 0 0 d 0x7B)
  | .scanabort => some (packC 14 0 0 0 0 0x7B)
  | .maprd d a => some (packC 15 0 0 a d 0x7B)
  | .maprm a => some (packC 16 0 0 a 0 0x7B)
  | .mapadd a => some (packC 17 0 0 a 0 0x7B)
  | .preq d a => some (packC 18 0 0 a d 0x7B)
  | _ => none

/-- The word of an instruction that is well formed. -/
def encode (i : Instr) : Option (BitVec 32) := if wellFormed i then encodeWord i else none

/-- Whether a constructor is an instruction of the words (and not an event). -/
def hasWord (i : Instr) : Bool := (encodeWord i).isSome

end Sys2Proof
end

