-- ==== Sys2Proof/Config.lean ====
section
/-! DEFINITION. What one implementation or one moment fixes and the spec leaves open. Every constant here has no body,
so that nothing can be proved of its value; each is named in a log entry under notes/assumptions. -/

namespace Sys2Proof.Config

/-- A fresh value the spec calls undefined; the argument is the state's counter `fresh` (log 8). -/
opaque freeWord : Nat → Word
/-- Deviation of a core's clock from the law of R46, taken modulo 21 and less 10, in thousandths (R46: within 1 %). -/
opaque clockDev : Nat → Nat
/-- The signature that scan pattern `pat` obtains on logical core `L` at a moment (R262, R263). -/
opaque scanSignature : Nat → Nat → Nat → Word
/-- The power that a sorus's own work draws in the 100 ns that end at a moment with a duty, in units of 1/16 W (R70). -/
opaque powerEstimate : Nat → Nat → Nat → Nat
/-- The flits that carry a message of so many words, which the spec leaves open (R420). -/
opaque msgFlits : Nat → Nat
/-- How many 8-byte words a copy, by its number, moves of the sector under way before a halt at a moment freezes it (R412). -/
opaque copyWords : Nat → Nat → Nat
/-- The ticks for which a router's link stalled in one period, a matter of timing (R420): sorus, link, virtual channel, period, and the flits
that it sent. -/
opaque stallCount : Nat → Nat → Nat → Nat → Nat → Nat
/-- The rounded result of a special function at an operand the model's interval cannot decide: function number, format
number, operand bits (R278; log 10). -/
opaque specialFallback : Nat → Nat → Nat → Nat

end Sys2Proof.Config
end

