-- ==== Sys2Proof/Event.lean ====
section
/-! DEFINITION. A happening with what it happens to: for each row of the opcode table that has no word, the unit, the
context or the record it concerns, or what the surroundings brought. The agenda and the script of the state hold these. -/

namespace Sys2Proof

/-- A happening and its arguments. -/
inductive Event
  /-- FUNDAMENTAL_RESET (R45). Deassertion of PERST# with valid supplies abandons any phase, discards applied entries, restarts the global time counter and begins bring-up at phase 0. -/
  | fundamentalReset
  /-- PF_FUNCTION_LEVEL_RESET (R38). A function-level reset of the physical function starts the bring-up sequence from phase 0. -/
  | pfFunctionLevelReset
  /-- SECONDARY_BUS_RESET (R38). A secondary bus reset of the link above the physical function starts the bring-up sequence from phase 0. -/
  | secondaryBusReset
  /-- BRINGUP_PHASE_END (R38). A bring-up phase completes its work, MSTAT PHASE advances and the next phase begins. The arguments
  are what the tests of phases 2 to 4 found: the stacks that passed, the cores that failed, the good lanes of each port from 0 on,
  and of each die-to-die link that has fewer than 64. -/
  | bringupPhaseEnd (good : BitVec 32) (failed : List Nat) (ports : List Nat) (links : List (Nat × Nat))
  /-- CONFIG_REQUEST (R39). A configuration request to the physical function is answered with Request Retry Status until phase 1 ends and normally afterwards. -/
  | configRequest
  /-- MBOOT_GO (R41). A write of 1 to MBOOT GO offers the image in the image window, held until phase 5 if written earlier and ignored once READY is 1. -/
  | mbootGo (v : Bool)
  /-- IMAGE_CHECK (R43). With GO 1 in phase 5 the hub checks the whole image before applying any entry. -/
  | imageCheck
  /-- RAW_RAIL_CHANGE (R47). A change of the raw rail moves every core voltage to min(setpoint, raw minus 0.04 V) within 2 ns and the replica clocks follow. -/
  | rawRailChange (mv : Nat)
  /-- REGULATOR_SLEW_END (R47). A regulator slew toward a new setpoint at 10 mV per ns completes. -/
  | regulatorSlewEnd (s : Nat)
  /-- TRATIO_WINDOW_END (R55). At each GTIME multiple of 40 a 640 ns cycle-count window closes and becomes the value that TRATIO reads 40 ns later. -/
  | tratioWindowEnd
  /-- WAIT_C_EXPIRY (R56). A WAIT.C ends when the core clock has run the requested cycles. -/
  | waitCExpiry (h : Nat)
  /-- WAIT_T_EXPIRY (R56). A WAIT.T or WAIT.TR ends in the first core cycle in which GTIME is at least its target. -/
  | waitTExpiry (h : Nat)
  /-- BOOST_REQUEST_SAMPLE (R63). At GTIME 10,000 times n minus 500 each sorus's requested level and priority are sampled for interval n. -/
  | boostRequestSample
  /-- PERMIT_BOUNDARY (R66). At each permit interval boundary the hub refills pools and assigns every sorus its boost level. -/
  | permitBoundary
  /-- CONTROLLER_STEP (R71). At each GTIME multiple of 1,000 the sorus PI controller updates its integrator and duty target. -/
  | controllerStep
  /-- ADMISSION_REQUEST (R73). A committed heavy-burst matrix operation asks its sorus controller for admission and is admitted at once or queued. -/
  | admissionRequest (h : Nat)
  /-- BALLAST_LIMIT (R74). Ballast in one episode stops 2 µs after it started. -/
  | ballastLimit (s : Nat)
  /-- EXIT_GROUP_RELEASE (R75). After a multi-sorus release, each exit group of sori resumes its contexts or receives its work words at its staggered time. -/
  | exitGroupRelease (p slot grp : Nat) (gang : Bool)
  /-- SELECTION (R86). A core selects a candidate resume or runnable channel, removes RATE words, sets LAST and places the firing in a free context. -/
  | selection (L : Nat)
  /-- STARTING_COMPLETE (R88). A context finishes writing initial state and waking banks and enters Running. -/
  | startingComplete (h : Nat)
  /-- BANK_WAKE_COMPLETE (R93). A powered-down free bank accessed by a firing finishes waking with zero bytes and FMTb at reset. -/
  | bankWakeComplete (L b : Nat)
  /-- RETENTION_EXPIRY (R92). A retained bank not claimed 1 ms after the HALT powers down. -/
  | retentionExpiry (L b : Nat) (since : Nat)
  /-- GROUP_DISPATCH (R100). The dispatcher places its head group in a sorus or core, reserves the contexts and sends the work words. -/
  | groupDispatch (p : Nat)
  /-- LAUNCH_HEADER_ARRIVAL (R106). A header from a host window or LAUNCH enters the hub queue, the overflow ring, or is refused. -/
  | launchHeaderArrival (p : Nat) (hdr : List Word) (src : HdrSrc)
  /-- HUB_QUEUE_REFILL (R106). The hub refills its launch queue in order from the head of the overflow ring. -/
  | hubQueueRefill (p : Nat)
  /-- RESIDENT_SLOT_COPY (R105). When a resident slot is free the dispatcher copies the head header into it within 100 ns. -/
  | residentSlotCopy (p : Nat)
  /-- SORUS_PASS (R107). A sorus marked leaving passes to its new partition when its last resident group completes. -/
  | sorusPass (s : Nat)
  /-- PREEMPTION_REQUEST (R109). A pre-emption request reaches a firing, which drains, is already at its safe point, or refuses. -/
  | preemptionRequest (h : Nat) (who : PreqBy)
  /-- SAFE_POINT (R109). A draining context reaches a listed address, closes its chunk and enters Saving. -/
  | safePoint (h : Nat)
  /-- SAVE_COMPLETE (R110). The save block is written, banks and row groups are released and the context becomes Free. -/
  | saveComplete (h : Nat)
  /-- RESTORE_COMPLETE (R111). A resumed firing's saved state is loaded and the context enters Running or Waiting. -/
  | restoreComplete (h : Nat)
  /-- LAUNCH_COMPLETION (R117). When every firing has ended the dispatcher writes the completion record, raises the signal and frees the resident slot. -/
  | launchCompletion (p slot : Nat)
  /-- GRANT (R139). The thallus grants a request in total order, assigns a CSN, marks lines pending and broadcasts the signature. -/
  | grant
  /-- BROADCAST_ARRIVAL (R140). A core processes a commit broadcast and squashes uncommitted chunks whose signatures meet it. -/
  | broadcastArrival (L : Nat)
  /-- DRAIN_COMPLETE (R139). A granted chunk's write buffer finishes draining, the chunk is committed and its held items leave. -/
  | drainComplete (h : Nat)
  /-- LOCAL_COMMIT (R141). A chunk with no thallus lines commits locally once it has processed broadcasts up to its horizon. -/
  | localCommit (h : Nat)
  /-- RESERVATION_TIMEOUT (R143). A reservation taken after three squashes ends 10 µs after it began. -/
  | reservationTimeout (h : Nat) (since : Nat)
  /-- LOAD_DATA_RETURN (R141). Data for a waiting load returns with the line's version once its drain ends or grant is returned. -/
  | loadDataReturn (h : Nat)
  /-- TILE_OPERATION_COMPLETE (R302). A tile operation's writes become visible, it completes, and the matrix queue starts its next operation. -/
  | tileOperationComplete (L : Nat)
  /-- COPY_HEAD_CHECK (R335). A copy reaching the queue head is checked for space, rights, format and block cuts before any unit moves. -/
  | copyHeadCheck (L : Nat)
  /-- COPY_SECTOR_WRITTEN (R336). A copy finishes writing a sector, and on its last sector completes and delivers its status. -/
  | copySectorWritten (L : Nat)
  /-- STREAM_FETCH_RETURN (R326). A read-port fetch returns its elements to the port. -/
  | streamFetchReturn (h q : Nat)
  /-- STREAM_WRITE_TRANSFER_DONE (R327). A write-port transfer of committed elements becomes visible. -/
  | streamWriteTransferDone (h q : Nat)
  /-- BARRIER_UPDATE (R369). The barrier unit applies an arrival, delivery or matrix status to a barrier object. -/
  | barrierUpdate (s : Nat)
  /-- EXCHANGE_COMPLETE (R297). When every filled position has arrived the exchange writes each member's vd and members resume. -/
  | exchangeComplete (p slot gid set : Nat)
  /-- GROUP_BARRIER_COMPLETE (R371). When every non-halted member has arrived the group barrier completes and members resume. -/
  | groupBarrierComplete (p slot gid : Nat)
  /-- LAUNCH_BARRIER_COMPLETE (R372). When every live firing of the launch has arrived the launch barrier releases with the exit stagger. -/
  | launchBarrierComplete (p slot n : Nat)
  /-- LOG_MERGE_DONE (R366). The slices finish sorting and applying the closed log, the next log opens and the status is written. -/
  | logMergeDone (p : Nat)
  /-- CROZIER_CONTRIBUTION (R379). A crozier reads a member's contribution and combines it into its running result in member order. -/
  | crozierContribution (k : Nat)
  /-- OWNER_REQUEST_ARRIVAL (R363). A remote-atomic request reaches the owner, which retires entries, resends a cached result, discards, or queues it. -/
  | ownerRequestArrival (id : Nat)
  /-- REPLY_ARRIVAL (R359). A remote-atomic reply or acknowledgement reaches the requester and writes xd and its checkpoints. -/
  | replyArrival (id : Nat)
  /-- RESULT_CACHE_RETIREMENT (R363). A result-cache entry retires 256 µs after insertion. -/
  | resultCacheRetirement (s : Nat)
  /-- RETRANSMISSION (R457). An unanswered remote-atomic request is retransmitted at its scheduled time. -/
  | retransmission (rid : Nat)
  /-- SERIAL_WRAP_RELEASE (R458). A request held back for serial wrap leaves 300 µs after serial s minus 32,768 left. -/
  | serialWrapRelease (rid : Nat)
  /-- MESSAGE_ARRIVAL (R349). A message's words enter the target channel FIFO together. -/
  | messageArrival (id : Nat)
  /-- MESSAGE_SEND_RELEASE (R350). A message waiting in the network leaves once the target FIFO has room for all its words. -/
  | messageSendRelease (id : Nat)
  /-- POST_GO (R83). A write of 1 to CHPOST GO posts W0 and W1 into channel CH of the core, or sets ERR. -/
  | postGo (L : Nat) (v : Word)
  /-- HTE_HUB_WRITE (R83). A hub write to a handler-table entry takes effect at once and sets the matching CHMASK bit. -/
  | hteHubWrite (L n : Nat) (v : Word)
  /-- SCAN_DRAIN_END (R262). When all four contexts of the scanned core are Free the pattern starts. -/
  | scanDrainEnd (L : Nat)
  /-- SCAN_DRAIN_TIMEOUT (R262). A scan not drained 1 ms after acceptance ends with DRAINTO. -/
  | scanDrainTimeout (L : Nat) (sid : Nat)
  /-- SCAN_PATTERN_END (R262). After 200,000 ns the pattern ends, the core is reset and the descriptor results are written. -/
  | scanPatternEnd (L : Nat) (sid : Nat)
  /-- LCMAP_ABSENT_SET (R265). A write of 1 to an LCMAP ABSENT bit removes the core as maprm does. -/
  | lcmapAbsentSet (L : Nat)
  /-- LCMAP_ABSENT_CLEAR (R265). A write of 0 to an LCMAP ABSENT bit adds the core as mapadd does. -/
  | lcmapAbsentClear (L : Nat)
  /-- HCDATA_WRITE (R235). A write of HCDATA writes the hub register that HCADDR names at its chunk's commit. -/
  | hcdataWrite (a : Nat) (v : Word)
  /-- HUB_WINDOW_WRITE (R237). A host write through the hub window, or to any register without a row of its own, follows the register's rule or is refused and logged. -/
  | hubWindowWrite (fn off n : Nat) (v : Word) (posted : Bool)
  /-- PTROOT_WRITE (R130). A PTROOT write sets the partition root and invalidates every translation before its chunk commits. -/
  | ptrootWrite (p : Nat) (v : Word)
  /-- TLBINV_WRITE (R130). A TLBINV write invalidates one page or all translations of the partition before its chunk commits. -/
  | tlbinvWrite (p : Nat) (v : Word)
  /-- BOOSTLVL_WRITE (R61). A BOOSTLVL write sets the context's boost request and priority at its commit. -/
  | boostlvlWrite (h : Nat) (v : Word)
  /-- PPOOL_WRITE (R64). An M write to PPOOL sets LCAP, CAP or COUNT, effective at the next sampling boundary. -/
  | ppoolWrite (t : Nat) (v : Word)
  /-- HOST_CXL_MEM_WRITE (R389). A host CXL.mem write is granted by the owning slice as a one-line chunk and broadcast. -/
  | hostCxlMemWrite (line : Nat) (data : BitVec 512)
  /-- HOST_CXL_MEM_READ (R389). A host CXL.mem read returns committed device data. -/
  | hostCxlMemRead (line : Nat)
  /-- LAUNCH_WINDOW_WRITE (R392). A host write to a launch-queue window delivers a header to the bound partition when its word at 0x38 arrives. -/
  | launchWindowWrite (t k first : Nat) (ws : List Word) (posted : Bool)
  /-- HOST_BAR_INVALID_ACCESS (R393). An unlisted or forbidden host BAR access receives an error response and is logged. -/
  | hostBarInvalidAccess (fn off n : Nat) (posted : Bool)
  /-- VF_FUNCTION_LEVEL_RESET (R396). A virtual function reset aborts the slot's launches, kills its firings, cancels copies and revokes its export windows. -/
  | vfFunctionLevelReset (t : Nat)
  /-- VF_RESET_END (R396). The virtual function reset ends within 100 ms and its windows accept writes again. -/
  | vfResetEnd (t : Nat)
  /-- SPART_WRITE (R397). A write moving a sorus sets LEAVING, NVALID and NEXT; the sorus passes later. -/
  | spartWrite (s : Nat) (v : Word)
  /-- PARTITION_CONTROLLER_STEP (R399). Every millisecond the controller marks at most one sorus leaving toward the neediest AUTO partition. -/
  | partitionControllerStep
  /-- DATAGRAM_ARRIVAL (R401). An incoming datagram is port-checked, destination-checked and delivered or dropped and counted. -/
  | datagramArrival (port : Nat) (dg : Datagram)
  /-- EXPORT_REQUEST (R402). A request at an export window is admitted and performed, or answered DENIED or STALE. -/
  | exportRequest (w : Nat) (rq : WinReq)
  /-- REVOKE (R403). A write of 1 to REVOKE advances the window generation so later old-generation requests get STALE. -/
  | revoke (w : Nat)
  /-- REVOKE_DRAIN_END (R403). REVOKE reads 0 once every previously admitted request has replied. -/
  | revokeDrainEnd (w : Nat)
  /-- BUCKET_REFILL (R405). Every microsecond each enabled slot's bucket repays debt, refills, and overflows into the spare pool. -/
  | bucketRefill
  /-- HEAD_REQUEST_RELEASE (R405). A slot's waiting head request leaves once tokens or borrowing cover it and debt is within DEBTCAP. -/
  | headRequestRelease (t : Nat)
  /-- CHECKPOINT_GO (R407). A write of 1 to CKCFG GO checks the import run and starts streaming device memory, or fails. -/
  | checkpointGo (v : Word)
  /-- CHECKPOINT_UNIT_ACK (R407). A checkpoint unit is acknowledged; after the last unit STATE becomes done. -/
  | checkpointUnitAck (unit : Nat) (status : Nat)
  /-- CHECKPOINT_RESEND (R482). A unit unacknowledged for 8 µs is resent, and after eight resends the checkpoint fails with CKFAIL. -/
  | checkpointResend (unit : Nat)
  /-- DEBUG_HALT (R411). A HALT write, armed EBREAK or trigger halts the sorus and raises its XOUT channels. -/
  | debugHalt (s : Nat)
  /-- DEBUG_RESUME (R412). A RESUME write undoes the halt within 24 ns. -/
  | debugResume (s : Nat)
  /-- DEBUG_STEP (R413). A STEP write on a halted sorus issues one instruction of the selected context. -/
  | debugStep (s : Nat)
  /-- DBGRDAT_WRITE (R414). A DBGRDAT write on a halted sorus sets the selected 64 bits of the context's uncommitted value. -/
  | dbgrdatWrite (h : Nat) (sel : Word) (v : Word)
  /-- SYNC_PERIOD (R418). At each GTIME multiple of PER times 1,000 a traced core emits a SYNC record. -/
  | syncPeriod (s : Nat)
  /-- ROUTER_GRID_PERIOD (R421). At each 10 µs period end the router counts are stored in the grid ring with SEQ written last. -/
  | routerGridPeriod
  /-- TRAP_ENTRY (R427). Once the preceding chunk commits, a trap enters the S or M handler or kills the firing. -/
  | trapEntry (h : Nat) (int : Bool) (cause : Nat) (val : Word)
  /-- INTERRUPT_ENTRY (R428). A pending, enabled interrupt is taken between instructions at an inserted chunk bound. -/
  | interruptEntry (h : Nat)
  /-- DETECTION_TIMER_EXPIRY (R438). A launch's deadlock detection timer reaches DLTIME. -/
  | detectionTimerExpiry (p slot : Nat) (due : Nat)
  /-- ENGINE_PAGE_FAULT (R446). A parked transfer's fault is taken between instructions on its issuing context. -/
  | enginePageFault (h : Nat)
  /-- PROMISE_EXPIRY (R450). A copy not complete at its promise sets LATE and raises COPYLATE when PTRAP is 1. -/
  | promiseExpiry (h cid : Nat)
  /-- UNCORRECTABLE_ERROR (R452). An uncorrectable error withholds the data and reaches its requester by kill, ABORT or EI. -/
  | uncorrectableError (site : ErrSite)
  /-- FINJ_WRITE (R463). A FINJ write arms fault injection for a channel and kind at its commit. -/
  | finjWrite (L : Nat) (fromM : Bool) (v : Word)
  /-- FINJ_READ (R463). A FINJ read returns the setting and clears DONE. -/
  | finjRead (L : Nat)
  /-- RAIL_SAMPLE (R467). Every 10 ns the hub samples the raw rail and logs UNDERV or OVERV at an excursion's start. -/
  | railSample
  /-- TIME_BEACON (R470). A hub time beacon reaches a frond, which slews its GTIME copy toward it. -/
  | timeBeacon (f : Nat)
  /-- BEACON_LOSS (R471). A frond with no beacon for 10 µs runs free and SYNCLOSS is logged. -/
  | beaconLoss (f : Nat)
  /-- LINK_LANE_FAILURE (R472). Lanes of a die-to-die link fail and the link begins retraining, or the module stops. -/
  | linkLaneFailure (link good : Nat)
  /-- LINK_RETRAIN_END (R472). A die-to-die link finishes retraining at the widest passing width and LINKDEG is logged. -/
  | linkRetrainEnd (link : Nat)
  /-- PORT_LANE_FAILURE (R473). Lanes of a Cleotte port fail and the port begins retraining. -/
  | portLaneFailure (n good : Nat)
  /-- PORT_RETRAIN_END (R473). A Cleotte port finishes retraining at a new width. -/
  | portRetrainEnd (n : Nat)
  /-- PSTAT_READ (R473). A read of PSTAT word 1 returns and clears the drop counts. -/
  | pstatRead (n : Nat)
  /-- DEBTSTALL_TIMER (R476). A slot stalled for 10 ms is logged once as DEBTSTALL. -/
  | debtstallTimer (t : Nat) (since : Nat)
  /-- REQUEST_LAST_DEADLINE (R457). A remote-atomic request still unanswered 312 µs after its first copy left completes with outcome unknown. -/
  | requestLastDeadline (rid : Nat)
  /-- RETURN_TO_SERVICE (R264). A scanned core whose scan was aborted, or a held failed core released by scanabort, returns to service in the end-phase state within 2 µs. -/
  | returnToService (L : Nat)
  /-- HOST_LANE_FAILURE (R481). Lanes of the CXL host link fail during operation and the port continues at a lower rate. -/
  | hostLaneFailure (lanes : Nat)
  deriving DecidableEq, Repr

/-- The row of the opcode table that a happening is. -/
def Event.instr : Event → Instr
  | .fundamentalReset => .fundamentalReset
  | .pfFunctionLevelReset => .pfFunctionLevelReset
  | .secondaryBusReset => .secondaryBusReset
  | .bringupPhaseEnd _ _ _ _ => .bringupPhaseEnd
  | .configRequest => .configRequest
  | .mbootGo _ => .mbootGo
  | .imageCheck => .imageCheck
  | .rawRailChange _ => .rawRailChange
  | .regulatorSlewEnd _ => .regulatorSlewEnd
  | .tratioWindowEnd => .tratioWindowEnd
  | .waitCExpiry _ => .waitCExpiry
  | .waitTExpiry _ => .waitTExpiry
  | .boostRequestSample => .boostRequestSample
  | .permitBoundary => .permitBoundary
  | .controllerStep => .controllerStep
  | .admissionRequest _ => .admissionRequest
  | .ballastLimit _ => .ballastLimit
  | .exitGroupRelease _ _ _ _ => .exitGroupRelease
  | .selection _ => .selection
  | .startingComplete _ => .startingComplete
  | .bankWakeComplete _ _ => .bankWakeComplete
  | .retentionExpiry _ _ _ => .retentionExpiry
  | .groupDispatch _ => .groupDispatch
  | .launchHeaderArrival _ _ _ => .launchHeaderArrival
  | .hubQueueRefill _ => .hubQueueRefill
  | .residentSlotCopy _ => .residentSlotCopy
  | .sorusPass _ => .sorusPass
  | .preemptionRequest _ _ => .preemptionRequest
  | .safePoint _ => .safePoint
  | .saveComplete _ => .saveComplete
  | .restoreComplete _ => .restoreComplete
  | .launchCompletion _ _ => .launchCompletion
  | .grant => .grant
  | .broadcastArrival _ => .broadcastArrival
  | .drainComplete _ => .drainComplete
  | .localCommit _ => .localCommit
  | .reservationTimeout _ _ => .reservationTimeout
  | .loadDataReturn _ => .loadDataReturn
  | .tileOperationComplete _ => .tileOperationComplete
  | .copyHeadCheck _ => .copyHeadCheck
  | .copySectorWritten _ => .copySectorWritten
  | .streamFetchReturn _ _ => .streamFetchReturn
  | .streamWriteTransferDone _ _ => .streamWriteTransferDone
  | .barrierUpdate _ => .barrierUpdate
  | .exchangeComplete _ _ _ _ => .exchangeComplete
  | .groupBarrierComplete _ _ _ => .groupBarrierComplete
  | .launchBarrierComplete _ _ _ => .launchBarrierComplete
  | .logMergeDone _ => .logMergeDone
  | .crozierContribution _ => .crozierContribution
  | .ownerRequestArrival _ => .ownerRequestArrival
  | .replyArrival _ => .replyArrival
  | .resultCacheRetirement _ => .resultCacheRetirement
  | .retransmission _ => .retransmission
  | .serialWrapRelease _ => .serialWrapRelease
  | .messageArrival _ => .messageArrival
  | .messageSendRelease _ => .messageSendRelease
  | .postGo _ _ => .postGo
  | .hteHubWrite _ _ _ => .hteHubWrite
  | .scanDrainEnd _ => .scanDrainEnd
  | .scanDrainTimeout _ _ => .scanDrainTimeout
  | .scanPatternEnd _ _ => .scanPatternEnd
  | .lcmapAbsentSet _ => .lcmapAbsentSet
  | .lcmapAbsentClear _ => .lcmapAbsentClear
  | .hcdataWrite _ _ => .hcdataWrite
  | .hubWindowWrite _ _ _ _ _ => .hubWindowWrite
  | .ptrootWrite _ _ => .ptrootWrite
  | .tlbinvWrite _ _ => .tlbinvWrite
  | .boostlvlWrite _ _ => .boostlvlWrite
  | .ppoolWrite _ _ => .ppoolWrite
  | .hostCxlMemWrite _ _ => .hostCxlMemWrite
  | .hostCxlMemRead _ => .hostCxlMemRead
  | .launchWindowWrite _ _ _ _ _ => .launchWindowWrite
  | .hostBarInvalidAccess _ _ _ _ => .hostBarInvalidAccess
  | .vfFunctionLevelReset _ => .vfFunctionLevelReset
  | .vfResetEnd _ => .vfResetEnd
  | .spartWrite _ _ => .spartWrite
  | .partitionControllerStep => .partitionControllerStep
  | .datagramArrival _ _ => .datagramArrival
  | .exportRequest _ _ => .exportRequest
  | .revoke _ => .revoke
  | .revokeDrainEnd _ => .revokeDrainEnd
  | .bucketRefill => .bucketRefill
  | .headRequestRelease _ => .headRequestRelease
  | .checkpointGo _ => .checkpointGo
  | .checkpointUnitAck _ _ => .checkpointUnitAck
  | .checkpointResend _ => .checkpointResend
  | .debugHalt _ => .debugHalt
  | .debugResume _ => .debugResume
  | .debugStep _ => .debugStep
  | .dbgrdatWrite _ _ _ => .dbgrdatWrite
  | .syncPeriod _ => .syncPeriod
  | .routerGridPeriod => .routerGridPeriod
  | .trapEntry _ _ _ _ => .trapEntry
  | .interruptEntry _ => .interruptEntry
  | .detectionTimerExpiry _ _ _ => .detectionTimerExpiry
  | .enginePageFault _ => .enginePageFault
  | .promiseExpiry _ _ => .promiseExpiry
  | .uncorrectableError _ => .uncorrectableError
  | .finjWrite _ _ _ => .finjWrite
  | .finjRead _ => .finjRead
  | .railSample => .railSample
  | .timeBeacon _ => .timeBeacon
  | .beaconLoss _ => .beaconLoss
  | .linkLaneFailure _ _ => .linkLaneFailure
  | .linkRetrainEnd _ => .linkRetrainEnd
  | .portLaneFailure _ _ => .portLaneFailure
  | .portRetrainEnd _ => .portRetrainEnd
  | .pstatRead _ => .pstatRead
  | .debtstallTimer _ _ => .debtstallTimer
  | .requestLastDeadline _ => .requestLastDeadline
  | .returnToService _ => .returnToService
  | .hostLaneFailure _ => .hostLaneFailure

end Sys2Proof
end

