-- ==== Sys2Proof/Machine/State.lean ====
section
/-! DEFINITION. The state of the TRD-8040 as plain data: contexts, cores, sori, partitions, tenant slots, the hub, the
thallus, the fabric, memory, and the model's own fields (the turn script, the agenda of what is due, the timers, what
left the module, the counter of free values). A table lists only what differs from the reset value of its kind. -/

namespace Sys2Proof.Machine

/-- A table by number. What it does not list holds the reset value of its kind. -/
abbrev Tab (α : Type) := List (Nat × α)

/-! ### One context (R26, R77) -/

/-- The four register files of a context (R26). Register 0 of `x` and of `p` is never listed (R16). -/
structure Regs where
  x : Tab Word := []
  v : Tab VReg := []
  p : Tab PReg := []
  a : Tab AReg := []
  deriving DecidableEq, Repr

/-- A bound stream port with its position (R321 to R323). `mfmt` is the memory format after R322, `bind` numbers the
binding. -/
structure Port where
  bind : Nat
  base : Word
  wrap : Bool
  satf : Bool
  mode : RMode
  dir : Bool
  pty : Ty3
  mfmt : Nat
  cnt : List Nat
  stride : List Word
  pos : Nat
  deriving DecidableEq, Repr

/-- What a checkpoint holds beside the register files and the pc (R133): the CSRs that are no chunk bound (R232), the
read position of the message buffer (R352), the bound stream ports. `cpy` is by CSR address 0x820 to 0x82A. -/
structure Shadow where
  sscratch : Word := 0
  mscratch : Word := 0
  lcmapx : Word := 0
  hcaddr : Word := 0
  cpy : Tab Word := []
  msgPos : Nat := 0
  ports : Tab Port := []
  deriving DecidableEq, Repr

/-- A register that awaits the answer `id` (R333, R359). -/
structure Pend where
  reg : Nat
  id : Nat
  deriving DecidableEq, Repr

/-- A checkpoint (R133). -/
structure Ckpt where
  regs : Regs := {}
  shadow : Shadow := {}
  pc : Word := 0
  pend : List Pend := []
  deriving DecidableEq, Repr

/-- A region of the accumulator store (R306). -/
structure Region where
  row : Nat
  col : Nat
  nr : Nat
  nc : Nat
  deriving DecidableEq, Repr

/-- An unfolding configuration (R314), the eight words of its descriptor. -/
abbrev Unf := List Word

/-- What a tile operation does (R301). A claim lists the row groups it newly claims (R305). A matrix product carries its form (0 MMA, 1 MMAV, 2 MMAT), its pair, the command
word, the A descriptor or position offset, the B descriptor and, for MMAV, the configuration it was issued under. -/
inductive TileKind
  | product (form : Nat) (pair : Pair) (cmd a b : Word) (unf : Unf)
  | aclr (g0 ng : Nat) (rel : Bool) (fresh : List Nat)
  | anarrow (ty : Ty3) (mode : RMode) (sat : Bool) (desc : Word) (rg : Region)
  | ald (rg : Region) (desc : Word)
  | ast (rg : Region) (desc : Word)
  | amova (rg : Region) (v : VReg)
  | ascale (rg : Region) (k : BitVec 32)
  | unfcfg (u : Unf)
  deriving DecidableEq, Repr

/-- A tile operation: its number, the firing that issued it and the context, the bank format registers at its issue (R178),
and whether it has been admitted (R73). -/
structure Tile where
  id : Nat
  fid : Nat
  h : Nat
  kind : TileKind
  fmt : Tab Word
  admitted : Bool
  running : Bool := false
  deriving DecidableEq, Repr

/-- A copy (R329 to R338). `csr` is the snapshot by CSR address.
`fmt` are the core's bank format registers at issue (R178), `sreg` and `dreg` the formats of the two sides as the check at the
head found them, laid out as a format register (R176). For the sector under way that reaches window pages (R402), `got` are
the bytes read there, `acked` the writes answered, `flying` the request that awaits its reply with the time it left, `seq` the
requests made. `made` is when the data of the sector under way were read and `out` its aligned words of 8 bytes in copy order, as cells
by key, or by 2^100 and the place in a window; `words` of them have been moved where a halt has `frozen` it (R412). -/
structure Copy where
  id : Nat
  fid : Nat
  h : Nat
  slot : Nat
  part : Nat
  csr : Tab Word
  xd : Nat
  promise : Nat
  done : Nat
  parked : Bool
  fault : Bool
  side : Bool
  late : Bool
  lateTrap : Bool
  cancel : Bool
  checked : Bool
  discard : Bool
  fmt : Tab Word
  sreg : Word
  dreg : Word
  got : List Host.Cell
  acked : List Nat
  flying : Option (Nat × Nat)
  seq : Nat
  follow : Option Tile
  words : Nat := 0
  frozen : Bool := false
  made : Option Nat := none
  out : List (List Host.Cell) := []
  deriving DecidableEq, Repr

/-- A copy as it stands at its first unwritten sector (R336). -/
def Copy.restart (c : Copy) : Copy :=
  { c with got := [], acked := [], flying := none, words := 0, frozen := false, made := none, out := [] }

/-- An update of a barrier object (R369): an arrival with the bytes it declares, a delivery, or a matrix status. -/
inductive BarKind
  | arrive (bytes : Nat)
  | deliver (bytes : Nat)
  | status (bits : Nat)
  deriving DecidableEq, Repr

/-- An update on its way to the object at a memory key, with the number of the BARARR that sent it, or 0. -/
structure BarUpd where
  key : Nat
  kind : BarKind
  id : Nat := 0
  deriving DecidableEq, Repr

/-- An update that waits at the barrier unit: the core it came from and when it left (R381). -/
structure BarReq where
  upd : BarUpd
  core : Nat
  at' : Nat
  deriving DecidableEq, Repr

/-- A combine's descriptor (R377). -/
structure CrzDesc where
  fmt : Tab Word := []
  tag : Nat
  ty : Nat
  nel : Nat
  res : Nat
  members : Nat
  deriving DecidableEq, Repr

/-- One element of a held or committed write transfer of a stream port: its address, its size in bytes, its bits. -/
structure StreamEl where
  bind : Nat
  va : Word
  size : Nat
  bits : Nat
  deriving DecidableEq, Repr

/-- What a chunk holds until its commit, in program order (R135, R251). -/
inductive Held
  /-- A CSR write with side effects, made from a level (R134, R248): `op` 0 writes `v`, 1 sets its bits, 2 clears them. An
  address from 4096 on is the hub address less 4096 that HCADDR named. -/
  | csr (addr op : Nat) (v : Word) (priv : Priv) (rd : Nat)
  /-- The clearing of the RC fields that a read returned (R248). -/
  | clear (addr : Nat)
  /-- A message to a target word's core and channel (R346), or the message of a REPLY (R351). -/
  | message (target : Word) (ch : Nat) (words : List Word) (srcw : Word) (reply : Bool)
  /-- A remote-atomic request: its answer number and register (0 and 0 when it has none), the operation, the datum's
  memory key (or the window offset of an import slot) and its address (R356, R357). -/
  | atomic (id xd : Nat) (op : AtomicOp) (key : Nat) (slot : Option Nat) (va : Word)
  /-- A tile operation that joins the matrix queue (R301). -/
  | tile (t : Tile)
  /-- A copy that joins the copy queue, and the answer numbers of its promise and of its status (R333). -/
  | copy (c : Copy) (promise : Nat) (xp : Nat)
  /-- CPY.CANCEL (R338). -/
  | cancel (n : Nat)
  /-- The elements of a store form of a write port (R327). -/
  | stream (q : Nat) (els : List StreamEl)
  /-- A barrier update (R369). -/
  | bar (u : BarUpd)
  /-- LOGAPP (R364). -/
  | logapp (va : Word) (v : Word)
  /-- LOGMRG with its descriptor (R366). -/
  | logmrg (id : Nat) (desc : List Word)
  /-- Tickets (R367). -/
  | tktget (id : Nat) (d : Nat)
  | tktadv (d : Nat)
  /-- The commit of a wait's chunk (R253): from here on the context may leave Waiting. -/
  | wait
  /-- GBAR, LBAR and VXCHG arrivals (R371, R372, R297). -/
  | gbar (id : Nat)
  | lbar (id : Nat) (n : Nat)
  | xchg (id vd : Nat) (v : VReg)
  /-- OTDECL's check (R374). -/
  | otdecl (ts : Word) (dom xd : Nat)
  /-- LAUNCH with its header (R375). -/
  | launch (id : Nat) (hdr : List Word)
  /-- FENCE.X with its two classes: the stall after the commit (R148, R376). -/
  | fence (a b : Nat)
  /-- Crozier contribution and collection (R378, R379). -/
  | crzsend (op : Nat) (d : CrzDesc) (off : Nat)
  | crzrecv (id : Nat) (d : CrzDesc)
  /-- HALT, with the retained banks and the actor (R90, R91). -/
  | halt (banks actor : Nat)
  /-- BREQ (R254). -/
  | boost (level prio : Nat)
  /-- ERET.S and ERET.M (R255). -/
  | eret (toM : Bool)
  /-- Trace and capture (R256, R257). -/
  | traceOn
  | traceOff
  | mark (v : Word)
  | cap (n : Nat) (on : Bool)
  /-- Scan, map and pre-emption requests (R261, R264, R266, R258). -/
  | scanrun (id : Nat) (va : Word) (priv : Priv)
  | scanabort
  | maprm (L : Nat) (priv : Priv)
  | mapadd (L : Nat)
  | preq (id : Nat) (v : Word) (priv : Priv)
  /-- CHON and CHOFF (R354). -/
  | chmask (ch : Nat) (on : Bool) (priv : Priv)
  deriving DecidableEq, Repr

/-- A chunk (R133 to R141). `wbuf` is the write buffer, newest byte first, by memory key; `lines` its buffer lines;
`rset` and `wset` the line names of its shared read and write sets; `hor` its horizon; `nonIdem` its non-idempotent
requests (R361); `ended` that it has met a bound while the older chunk still awaits its commit; `csn` its grant; `sq` how often it has been squashed in a row and `sqLines`
the lines of those attempts (R143); `replays` the failed runs of the checker in it (R434); `otfail` that its OTDECL has failed at the domain's check (R374); `since` when it
ended; `next` how often the chunk after it has been squashed in a row together with it, and the lines of those attempts. -/
structure Chunk where
  ck : Ckpt := {}
  n : Nat := 0
  wbuf : List Host.Cell := []
  lines : List Nat := []
  rset : List Nat := []
  wset : List Nat := []
  hor : Nat := 0
  held : List Held := []
  nonIdem : Nat := 0
  ended : Bool := false
  csn : Option Nat := none
  sq : Nat := 0
  sqLines : List Nat := []
  replays : Nat := 0
  otfail : Bool := false
  since : Nat := 0
  next : Nat × List Nat := (0, [])
  deriving DecidableEq, Repr

/-- The states of R77. -/
inductive CtxSt | free | reserved | starting | running | waiting | draining | saving | restoring
  deriving DecidableEq, Repr

/-- What a Waiting context waits for (R77): an end in core cycles, a `GTIME` target, outstanding counts, a barrier object
by its key and the phase to leave, the group barrier, a launch barrier, an exchange, a ticket, an admission. -/
inductive WaitFor
  | none
  | cycles (target : Nat)
  | time (target : Nat)
  | counts (l s c t : Nat)
  | bar (key : Nat) (phase : Bool) (id : Nat)
  | gbar
  | lbar (n : Nat)
  | xchg
  | ticket (d v : Nat)
  | admission
  deriving DecidableEq, Repr

/-- The per-context trap registers (R426); `status` is mstatus; `ei` and `pendEi` are mie.EI and mip.EI. -/
structure SysRegs where
  status : Word := 0
  ei : Bool := false
  pendEi : Bool := false
  sepc : Word := 0
  scause : Word := 0
  stval : Word := 0
  mepc : Word := 0
  mcause : Word := 0
  mtval : Word := 0
  deriving DecidableEq, Repr

/-- A firing (R86 to R97). `chan` is its channel (16 for the owner handler), `level` its own level, `key` its launch as
64·partition + slot when it came from channel 0, `trigger` the words taken with their source words, `banks` the banks it
owns, `order` its timestamp and domain (R113), `owner` the request the owner handler serves, `retired` the instructions
of its committed chunks, `redel` the redeliveries its trigger has had and `born` the firing that first took it (R433),
`inject` that an injected kill awaits it (R463), `startAt` and `startCyc` when it started, `lift` the dispensers (256·sorus + number) for
whose waiters it counts at a higher priority, with that priority (R436). -/
structure Firing where
  fid : Nat
  chan : Nat
  rtc : Bool
  level : Priv
  prio : Nat
  part : Nat
  slot : Nat
  key : Option Nat
  wid : Word
  gid : Word
  idx : Nat
  vrid : Nat
  serial : Nat
  trigger : List (Word × Word)
  src : Word
  banks : Nat
  spill : Nat
  order : Option (Nat × Nat)
  owner : Option Nat
  retired : Nat
  redel : Nat
  born : Nat
  inject : Bool
  startAt : Nat
  startCyc : Nat
  lift : List (Nat × Nat) := []
  deriving DecidableEq, Repr

/-- The priority at which a firing counts: its own, or the highest of the waiters for which it holds tickets (R436). -/
def Firing.rank (f : Firing) : Nat := f.lift.foldl (fun m l => max m l.2) f.prio

/-- A context reserved by the dispatcher (R99): the launch, the address of its header, the firing's work identifier, group and index, and the banks
held for it. -/
structure Resv where
  part : Nat
  slot : Nat
  addr : Word
  wid : Word
  gid : Word
  idx : Nat
  banks : Nat
  deriving DecidableEq, Repr

/-- The fetch side of a read port (R326): the binding it fetches for, the codes of the elements held by position, the fetches
in flight, the address at which it stopped on a fault (R445), and whether it was ended there (R446). -/
structure Fetch where
  bind : Nat
  els : Tab Nat
  flying : Nat
  stop : Option (Nat × Word)
  dead : Bool
  deriving DecidableEq, Repr

/-- The write side of a port (R327): the partition and the firing it writes for, the committed transfers in order of P, and
the address at which the first is parked. -/
structure Drain where
  part : Nat
  fid : Nat
  queue : List (List StreamEl)
  stop : Option Word
  dead : Option Nat := none
  deriving DecidableEq, Repr

/-- An engine page fault not yet taken (R446): its address, and whether it is a store. `who` is the copy number, or the
port number with `port` set. -/
structure EngFault where
  va : Word
  store : Bool
  port : Bool
  who : Nat
  deriving DecidableEq, Repr

/-- A trap that waits for the chunk before it to commit (R427). -/
structure TrapReq where
  int : Bool
  cause : Nat
  val : Word
  deriving DecidableEq, Repr

/-- One hardware context. `young` is the executing chunk and `older` the one that awaits its commit (R133); `sync` that
nothing issues until both have committed (log 14); `carry` what a run-to-completion firing keeps until its HALT (R89);
`pend` the registers that await an answer; `resv` a reservation of the dispatcher; `floor` the version that every chunk to come must
know at least: the largest CSN of the context's own chunks and of the replies it has had (R141, R149). -/
structure Ctx where
  st : CtxSt := .free
  wait : WaitFor := .none
  waitOk : Bool := false
  priv : Priv := .u
  pc : Word := 0
  regs : Regs := {}
  shadow : Shadow := {}
  pend : List Pend := []
  young : Chunk := {}
  older : Option Chunk := none
  sync : Bool := false
  carry : List Held := []
  trapReq : Option TrapReq := none
  firing : Option Firing := none
  resv : Option Resv := none
  sys : SysRegs := {}
  floor : Nat := 0
  deriving DecidableEq, Repr

/-- An answer to a scalar register, or (VXCHG) to a vector register, which stands in the list of awaiting registers as 32
and its number. -/
inductive Answer
  | scal (w : Word)
  | vect (w : VReg)
  deriving DecidableEq, Repr

/-- What has come for a context whose core's clock is paused or whose sorus is halted, and waits in the interface (R49, R58, R412): the
answer `id` with its value and version, the end of its wait, its admission (R73), an error interrupt with its value (R453). -/
inductive Inbound
  | answer (id : Nat) (a : Answer) (ver : Nat)
  | wake
  | letIn
  | ei (val : Word)
  | late (val : Word)
  deriving DecidableEq, Repr

/-- An asynchronous operation of a context as the in-flight table lists it (R415): KIND, REG, TARGET, the time of issue, and
the number of the record that shows whether it is still under way. -/
structure InfEnt where
  kind : Nat
  reg : Nat
  target : Nat
  time : Nat
  ref : Nat
  deriving DecidableEq, Repr

/-- The rest of a context: boost request (R61), retired-instruction base (R249), capture counters (R257), trace (R256),
stream fetch and write sides, unfolding configurations issued and run (R314), tile operations outstanding (R301), FENCE.X
stall (R376), pre-emption requests and the instruction count at which draining began (R109), pending engine faults and COPYLATE values
(R446, R450), the value of a pending EI (R453), the number of its scan (R263), the debug selectors (R414, R415, R419), the save block that is being read (R111), when it began to be saved with the cycles that then
remained of its WAIT.C (R57, R419), what waits for its core's clock (R58), the length of the save block that is read (R488), and
the instruction that stalls with the answers it waits for (R440). -/
structure CtxAux where
  req : Nat := 0
  bpri : Nat := 0
  instret : Word := 0
  caps : Tab Word := []
  capOn : BitVec 32 := 0
  trace : Bool := false
  fetch : Tab Fetch := []
  drain : Tab Drain := []
  unfIssued : List (Nat × Unf) := []
  unf : Option Unf := none
  tiles : List Nat := []
  fence : Option (Nat × Nat) := none
  preqs : List PreqBy := []
  drainFrom : Nat := 0
  faults : List EngFault := []
  lates : List Word := []
  eiVal : Word := 0
  scan : Option Nat := none
  dbgsel : Word := 0
  dbgridx : Word := 0
  infidx : Word := 0
  capidx : Word := 0
  infl : List InfEnt := []
  block : Option Nat := none
  saveAt : Nat := 0
  left : Option Nat := none
  inq : List Inbound := []
  blockLen : Nat := 0
  stallOn : Option (Word × List Nat) := none
  deriving DecidableEq, Repr

/-! ### One core (R79 to R93) -/

/-- A restored trigger (R433): its words with their source words, and how often it has been redelivered, and the place of their
first taking. -/
structure Restored where
  words : List (Word × Word)
  redel : Nat
  born : Nat
  deriving DecidableEq, Repr

/-- A channel (R79): the FIFO with each word's source word, the restore area, and the room promised to messages that
have left for it (R350). -/
structure Chan where
  fifo : List (Word × Word) := []
  restore : List Restored := []
  room : Nat := 0
  deriving DecidableEq, Repr

/-- A core scratchpad bank (R90 to R93): powered, owned by the firing `own`, retained for an actor since a time, and
waking. -/
structure Bank where
  powered : Bool := false
  own : Option Nat := none
  retain : Option (Nat × Nat) := none
  waking : Bool := false
  deriving DecidableEq, Repr

/-- `CHPOST` (R83). -/
structure Post where
  w0 : Word := 0
  w1 : Word := 0
  ch : Nat := 0
  go : Bool := false
  err : Bool := false
  deriving DecidableEq, Repr

/-- The test state of a core under scan (R262): none, draining, running, held with FAIL. -/
inductive TestSt | none | draining | running | held
  deriving DecidableEq, Repr

/-- One core. `hte` holds the stored fields of HTE0 to HTE15, `rowOwn` the firing that holds each row group, `inbox` the
broadcasts not yet processed (numbers), `icache` the instruction words held by physical address (R244), `fwd` the firings
with a forwarding entry (R459), `curTile` that the head of the matrix queue is running, `cycOff` what a write of mcycle
added (R249), `epochs` the result-cache epoch last learned from each sorus (R362), `turn` the context that issued last and `tried` those
that have been offered a turn in the nanosecond that it names (R489). -/
structure CoreSt where
  hte : Tab Word := []
  chans : Tab Chan := []
  last : Nat := 15
  resume : List Nat := []
  owners : List Nat := []
  stvec : Word := 0
  mtvec : Word := 0
  medeleg : Word := 0
  mideleg : Word := 0
  post : Post := {}
  fmt : Tab Word := []
  banks : Tab Bank := []
  cpyperm : Word := 0
  compat : Word := 0
  finj : Word := 0
  cycOff : Word := 0
  matq : List Tile := []
  rowOwn : Tab Nat := []
  copyq : List Nat := []
  inbox : List Nat := []
  test : TestSt := .none
  testScan : Nat := 0
  fwd : List Nat := []
  capevt : Tab Nat := []
  icache : Tab (BitVec 32) := []
  epochs : Tab Nat := []
  turn : Nat := 3
  tried : Nat × List Nat := (0, [])
  deriving DecidableEq, Repr

/-! ### One sorus -/

/-- A ticket dispenser (R367, R436): NEXT, SERVING, the firings that took the tickets not yet passed. -/
structure Ticket where
  next : Nat := 0
  serving : Nat := 0
  takers : List (Nat × Nat) := []
  deriving DecidableEq, Repr

/-- An entry of the owner result cache (R363); `abort` is R452's. -/
structure CacheEnt where
  tenant : Nat
  vrid : Nat
  serial : Nat
  result : Word
  time : Nat
  epoch : Nat
  abort : Bool
  ver : Nat
  deriving DecidableEq, Repr

/-- A point at which the clock law of a sorus changed (R46, R47): from the time `since` the setpoint moves from `from0` to
`goal` millivolts at 10 mV per ns under the raw rail `raw`, and `acc` millicycles had run. -/
structure ClkPoint where
  since : Nat
  from0 : Nat
  goal : Nat
  raw : Nat
  acc : Nat
  deriving DecidableEq, Repr

/-- A heavy burst that waits for admission (R73): its context, its operation, and when it asked. -/
structure AdmReq where
  h : Nat
  id : Nat
  at' : Nat
  deriving DecidableEq, Repr

/-- One sorus: SPART and the controller's mark (R397), the boost level and grace (R66) with the slot that paid, the sampled request (R63), the
power controller (R68 to R74) with the duty that a cut goes toward, the power of the last 100 ns and its sum over this controller period,
the start of the ballast episode, the ballast of this interval and the charge for that of the last one, tickets, result cache, epoch (R461), the debug module (R410, R416), the barrier queue, the
translations its buffer holds (page key, level and leaf, R128), the copies discarded as too old (R456), the history of its clock. `keeps` says that it still holds a group
that was resident when a core of it was removed (R267). -/
structure SorusSt where
  pvalid : Bool := false
  part : Nat := 0
  leaving : Bool := false
  nvalid : Bool := false
  next : Nat := 0
  level : Nat := 0
  grace : Bool := false
  newTenant : Bool := false
  payer : Option Nat := none
  rreq : Nat := 0
  rpri : Nat := 0
  pwrcfg : Word := 0x010401A0
  pest : Nat := 0
  duty : Nat := 256
  target : Nat := 256
  draw : Nat := 0
  drawSum : Nat := 0
  integ : Nat := 1048576
  ballast : Bool := false
  ballastAt : Nat := 0
  ballastSum : Nat := 0
  ballastCharge : Nat := 0
  rsum : Nat := 0
  admq : List AdmReq := []
  admitted : Nat := 0
  tickets : Tab Ticket := []
  cache : List CacheEnt := []
  floors : Tab Nat := []
  epoch : Nat := 1
  epochAt : Nat := 0
  barq : List BarReq := []
  lost : Nat := 0
  keeps : Bool := false
  deriving DecidableEq, Repr

/-- The debug module, the translation buffer and the clock of a sorus. `slewAt` is a boundary at whose local time a slew to a
setpoint begins (R60), `syncAt` the boundary of the last SYNC record of a setpoint change (R422), `dcache` the lines of device
memory in its data cache (R125). -/
structure SorusAux where
  xout : Nat := 0
  xin : Nat := 0
  trlvl : Nat := 0
  halted : Bool := false
  arm : Bool := false
  trbase : Word := 0
  trsize : Word := 0
  troff : Nat := 0
  trlost : Nat := 0
  syncper : Nat := 10
  stepping : Option Nat := none
  dbgsel : Word := 0
  dbgridx : Word := 0
  infidx : Word := 0
  capidx : Word := 0
  tlb : Tab (Nat × Word) := []
  clk : List ClkPoint := []
  slewAt : Option (Nat × Nat) := none
  syncAt : Option Nat := none
  dcache : Tab Unit := []
  deriving DecidableEq, Repr

/-! ### One partition (R99 to R117) -/

/-- A launch header with where it came from (R106): the tenant slot, and for LAUNCH the issuing core. -/
structure Hdr where
  words : List Word
  slot : Nat
  core : Option Nat
  seq : Nat
  deriving DecidableEq, Repr

/-- A member of a group: its index, and the firing (0 before it starts). -/
structure Group where
  gid : Word
  sorus : Nat
  hs : List Nat
  ended : List Nat := []
  gb : List (Nat × Nat × Nat) := []
  xg : List (Nat × Nat × Nat × VReg) := []
  deriving DecidableEq, Repr

/-- A resident launch (R105, R117). `next` is the number of the next group to dispatch, `ended` the firings that have ended,
`halted` those whose HALT committed, `lb` the arrivals at each launch barrier (firing and answer), `lbOut` the firings still to
resume, by exit group, with their answers and the status, `force` an end status that stands, `silent` that no MSI-X follows (R396), `admitted`
that a COR launch holds its capacity and `before` what the contexts of its partition held then (R102), `relief` that groups give way to its next group and `keep` the contexts that this
freed (R439), `gangOut` the contexts of a gang by exit group (R103), `dlDue` when its detection timer fires, `dlLeft` what it
still has to run while a sorus of the launch is halted (R438), `gone` the cores on which a firing of it has ended (R440). -/
structure Launch where
  hdr : Hdr
  next : Nat := 0
  ended : Nat := 0
  halted : Nat := 0
  faults : Nat := 0
  tstart : Option Nat := none
  tend : Nat := 0
  cycles : Nat := 0
  gangLost : Bool := false
  killed : Bool := false
  force : Option Nat := none
  silent : Bool := false
  admitted : Bool := false
  before : List (Nat × Nat × Word) := []
  relief : Bool := false
  keep : List Nat := []
  gangOut : List (Nat × Nat) := []
  groups : List Group := []
  lb : Tab (List (Nat × Nat)) := []
  lbOut : List (Nat × Nat × Nat × Nat) := []
  dlDue : Option Nat := none
  dlLeft : Option Nat := none
  gone : List Nat := []
  seq : Nat := 0
  deriving DecidableEq, Repr

/-- A saved firing (R110): what its save block holds. `core` is where it was, `kept` its bank bytes by bank and offset,
`rows` its accumulator lanes by store address, `waitLeft` what remained of its wait, `floor` its context's. -/
structure Saved where
  id : Nat
  firing : Firing
  core : Nat
  ctx : Nat
  priv : Priv
  pc : Word
  regs : Regs
  shadow : Shadow
  pend : List Pend
  wait : WaitFor
  banks : Nat
  fmts : Tab Word
  kept : List Host.Cell
  groups : List Nat
  rows : List Host.Cell
  aux : CtxAux
  pendEi : Bool
  copies : List Nat
  block : Nat
  placed : Bool
  floor : Nat
  deriving DecidableEq, Repr

/-- An entry of an update log (R365), by slice: target, kind, value, core, context, sequence. -/
structure LogEnt where
  slice : Nat
  va : Word
  int : Bool
  v : BitVec 32
  core : Nat
  ctx : Nat
  seq : Nat
  deriving DecidableEq, Repr

/-- The open update log of a partition (R364): its base and capacity, its entries, the appends of each context, the drops. -/
structure Log where
  base : Word
  cap : Nat
  ents : List LogEnt := []
  counts : Tab Nat := []
  dropped : Nat := 0
  deriving DecidableEq, Repr

/-- A merge under way or waiting (R366): the answer and the firing that waits for it, its chunk's CSN, the closed log if
MERGE was 1, the next log if OPEN was 1. -/
structure Merge where
  id : Nat
  fid : Nat
  open0 : Option Log
  closed : Option Log
  desc : List Word
  deriving DecidableEq, Repr

/-- One partition: its registers, its hub queue and overflow pointers, its resident launches, saved firings, the save
blocks in use, the open log and merges, the commit points of its order domains (R115). -/
structure Part where
  lqcfg : Word := 0
  svcfg : Word := 0
  spocfg : Word := 0
  ptroot : Word := 0
  partcfg : Word := 0
  tlbinv : Word := 0
  hubq : List Hdr := []
  ovHead : Nat := 0
  ov : List Hdr := []
  launches : Tab Launch := []
  saved : List Saved := []
  blocks : List Nat := []
  log : Option Log := none
  dropped : Nat := 0
  merges : List Merge := []
  points : Tab Nat := []
  deriving DecidableEq, Repr

/-! ### One tenant slot -/

/-- A request of a slot (R405): a datagram of a firing, or of the copy engine, to the module `m` between two cores, which takes its port
as it leaves; or one that a unit makes at a happening of its own, `mark` naming the request. -/
inductive OutAct
  | datagram (fid m a b : Nat) (body : DgBody)
  | turn (who : Event) (mark : Word)
  deriving DecidableEq, Repr

/-- One tenant slot: PPOOL (R64) and the writes to it that await the next sampling boundary, the registers of R394 to R398 and R487, the bucket (R404), the waiting requests with their costs and those that have left but whose units
have not gone on, the requester identities drawn (R361), a function-level reset under way (R396), partly written launch windows (R392), the
MSI-X pending bits, groups completed in this millisecond and the last (R398). -/
structure Slot where
  lcap : Nat := 0
  cap : Nat := 0
  debt : Nat := 0
  count : Nat := 0
  ppend : List Word := []
  tencfg : Word := 0
  tallot : Word := 0
  thost : Word := 0
  tbkt : Word := 0
  tsvc : Word := 0
  bdebt : Nat := 0
  tokens : Nat := 0
  stall : Bool := false
  stallAt : Nat := 0
  queue : List (Nat × OutAct) := []
  granted : List (Event × Word) := []
  vrid : Nat := 0
  flr : Bool := false
  windows : Tab (Tab Word) := []
  msix : Tab Word := []
  pba : Word := 0
  groupsNow : Nat := 0
  achieved : Nat := 0
  deriving DecidableEq, Repr

/-! ### The module -/

/-- An entry of the module error log (R480). -/
structure ElogEnt where
  time : Nat
  kind : Nat
  tslot : Nat
  core : Nat
  addr : Word
  detail : Word
  count : Nat
  deriving DecidableEq, Repr

/-- The hub: MSTAT (R40), MBOOT (R41), the map entries set absent, self-failed and removed (R265), MPWRCFG (R76), DLCFG
(R437), RTCLS (R347) with the messages of each class that were in the network at its last write, the error log (R479), the raw rail (R37), whether global time runs (R38), whether the module has
stopped, and whether the core-side state was lost with that (R469), whether a link halted phase 4 (R472). `image` says that a bring-up image is being applied. -/
structure Hub where
  good : BitVec 32 := 0
  phase : Nat := 0
  imgerr : Bool := false
  bisterr : Bool := false
  linkBad : Bool := false
  lanesLost : Bool := false
  ready : Bool := false
  go : Bool := false
  absent : List Nat := []
  selffail : List Nat := []
  removed : List Nat := []
  mpwrcfg : Word := 0x5dc02808400000
  dltime : Nat := 100
  rtcls : Tab Word := []
  rtOld : Tab (List Nat) := []
  elog : Tab ElogEnt := []
  elogHead : Nat := 0
  elogTail : Nat := 0
  elogLost : Nat := 0
  raw : Nat := 780
  under : Bool := false
  overF : Bool := false
  stopped : Bool := false
  coreLost : Bool := false
  relAt : Nat := 0
  lastSample : Nat := 0
  deriving DecidableEq, Repr

/-- A grant request (R139): when it arrives at its home slice, the context, its write signature's lines, the slices it names. -/
structure GrantReq where
  at' : Nat
  h : Nat
  lines : List Nat
  deriving DecidableEq, Repr

/-- A broadcast (R139): its number, the written lines, the context it belongs to (none for a host write, R389), and for an
ordered task its partition, domain and timestamp (R114). -/
structure Bcast where
  csn : Nat
  lines : List Nat
  owner : Option Nat
  order : Option (Nat × Nat × Nat)
  deriving DecidableEq, Repr

/-- A reservation (R143): the context, the lines of its squashed attempts, whether it occupies its slices and since when. -/
structure Reserve where
  h : Nat
  lines : List Nat
  active : Bool
  since : Nat
  deriving DecidableEq, Repr

/-- The thallus: the last CSN, the requests in order of arrival, the broadcasts some core has still to process, the lines
marked pending with the context, line versions (R141), reservations, the device lines that the host has read and may hold (R389). -/
structure Thallus where
  csn : Nat := 0
  requests : List GrantReq := []
  bcasts : List Bcast := []
  pending : List (Nat × Nat) := []
  vers : Tab Nat := []
  resvs : List Reserve := []
  hostHeld : List Nat := []
  deriving DecidableEq, Repr

/-- A message under way (R349): its sender's number (a context, or 10240 + L for CHPOST, or 20480 for the dispatcher, or more
for a message of another module), the
target core and channel, its words, the source word, whether it has left (R350), the sending launch, by its key and the number of its
header, and slot (R478), the sorus at whose router it enters where no context sends it (log 82). -/
structure Msg where
  sender : Nat
  core : Nat
  ch : Nat
  words : List Word
  srcw : Word
  left : Bool
  key : Option (Nat × Nat) := none
  slot : Nat := 0
  from' : Nat := 0
  deriving DecidableEq, Repr

/-- An outstanding remote-atomic request at its requester (R361, R362, R457). `core` is the core that holds the outstanding
state, `id` the answer number of a return form, `first` when the first copy left, `held` that it waits under R458 or behind an earlier
request that waits, `next` the next serial of its firing once that has ended (R362), `copies` how often it has been sent again. `first` is
by the core's copy of the time (R471). -/
structure Req where
  fid : Nat
  core : Nat
  slot : Nat
  tenant : Nat
  vrid : Nat
  serial : Nat
  nonIdem : Bool
  op : AtomicOp
  key : Nat
  win : Option Nat
  va : Word
  id : Nat
  xd : Nat
  first : Nat
  sorus : Nat
  held : Bool
  next : Nat := 0
  copies : Nat := 0
  deriving DecidableEq, Repr

/-- A copy of a request on its way to or at its owner (R456): the request, its retransmission number, when it left or came into this
module and how old it was then, the owner core, the oldest serial still awaiting (ACK) and the epoch it carries, whether it waits in the owner's queue, how often the
handler that served it was killed for a hardware cause, and the handler's first firing for it (R433), 0 before one; `hit` the answer
(code, result, version) that it has without the handler, which waits for earlier requests of its line (R382); `came` when it reached the
interface of an owner that takes no traffic, where it waits without ageing (R412, R456), with a number by which those that wait there
arrived. A copy from another module carries its whole request. -/
structure ReqCopy where
  rid : Nat
  copyn : Nat
  sent : Nat
  core : Nat
  ack : Nat
  epoch : Nat
  queued : Bool
  tenant : Nat
  vrid : Nat
  serial : Nat
  nonIdem : Bool
  op : AtomicOp
  key : Nat
  remote : Option (Nat × Nat)
  abort : Bool
  redel : Nat := 0
  first : Nat := 0
  hit : Option (Nat × Word × Nat) := none
  came : Option (Nat × Nat) := none
  age : Nat := 0
  deriving DecidableEq, Repr

/-- A reply or acknowledgement on its way (R359): the request, its code (0 done, 3 unknown, 4 aborted), the old value, the
version of the handler's commit, the epoch, the sorus that answered (160 for another module). -/
structure Reply where
  rid : Nat
  code : Nat
  v : Word
  ver : Nat
  epoch : Nat
  sorus : Nat
  deriving DecidableEq, Repr

/-- A pre-emption asked for by PREQ (R258, R259): the firing and answer that wait, the firings asked with their in-group indexes, the
codes so far by in-group index. -/
structure PreqRec where
  fid : Nat
  id : Nat
  todo : List (Nat × Nat)
  codes : List (Nat × Nat)
  deriving DecidableEq, Repr

/-- A scan (R260 to R264): the firing that asked, the target, pattern, expected signature, descriptor's memory key,
auto-abort priority, its state and result, when it started, whether a pause was seen. -/
structure Scan where
  fid : Nat
  core : Nat
  pat : Nat
  expect : Word
  key : Nat
  autoAb : Option Nat
  state : Nat
  result : Nat
  since : Nat
  paused : Bool
  hold : Bool
  deriving DecidableEq, Repr

/-- A combine under way at a crozier (R379): the contributions by member (core, op, descriptor, offset, firing), the member to
read next, the running result, the statuses awaited (firing, answer, core), the statuses delivered, and when it last took or read a
contribution. -/
structure Combine where
  tag : Nat
  sends : List (Nat × Nat × CrzDesc × Nat × Nat)
  next : Nat
  acc : Option (List Byte × List Byte)
  code : Option Nat
  waits : List (Nat × Nat × Nat)
  got : List Nat
  last : Nat := 0
  deriving DecidableEq, Repr

/-- The fabric: KEYSET, MODROUTE, FABCFG, EXPW, IMPW, PSTAT counts, trained port widths, link widths, CKCFG, what it held as the checkpoint
began, CKSTAT, RGCFG,
RGSTAT, the flits counted in this period by 20·sorus + 4·link + virtual channel (R420), requests admitted at export windows and not yet answered (R403), frond time (R470, R471). -/
structure Fabric where
  keyset : Tab Word := []
  modroute : Tab Word := []
  fabcfg : Word := 0
  spare : Nat := 0
  expw0 : Tab Word := []
  expw1 : Tab Word := []
  impw0 : Tab Word := []
  impw1 : Tab Word := []
  keydrop : Tab Nat := []
  otherdrop : Tab Nat := []
  ports : Tab Nat := []
  portsUp : List Nat := []
  links : Tab Nat := []
  retrain : List Nat := []
  ckcfg : Word := 0
  ckrun : Word := 0
  ckstate : Nat := 0
  ckdone : Nat := 0
  ckunits : List (Nat × Nat × Nat × Nat) := []
  cknext : Nat := 0
  rgcfg : Word := 0
  rgseq : Nat := 0
  grid : Tab Nat := []
  admits : List (Nat × Nat × Nat) := []
  lastBeacon : Tab Nat := []
  lost : List Nat := []
  skew : Tab Int := []
  slew : List Nat := []
  muted : List Nat := []
  hostLanes : Nat := 16
  deriving DecidableEq, Repr

/-- What leaves the module. -/
inductive Output
  /-- Completion of a host request: its kind of answer and data. -/
  | configRetry
  | configOk
  | data (v : Word)
  | line (v : BitVec 512)
  | completerAbort
  | nonFatal (fn : Nat)
  | fatal
  | msix (slot vector : Nat)
  | datagram (port : Nat) (dg : Datagram)
  | backInvalidate (line : Nat)
  deriving DecidableEq, Repr

/-- The surroundings' choice of what happens next (log 7): a core issues, an entry of the agenda comes about, a
happening from outside, time passes, a checker mismatch strikes the next retirement of a context so many times, a sorus
takes a translation into its buffer or drops one, a core takes a word of code into its instruction cache, a sorus a line into its
data cache, the copy of the time counter of a frond gains or loses a nanosecond, the beacons to a frond stop or come again. -/
inductive Turn
  | issue (L : Nat)
  | agenda (n : Nat)
  | event (e : Event)
  | tick (n : Nat)
  | checker (h n : Nat)
  | tlbFill (s : Nat) (va : Word)
  | tlbDrop (s : Nat) (key : Nat)
  | icacheFill (L pa : Nat)
  | dcacheFill (s line : Nat)
  | drift (f : Nat) (up : Bool)
  | mute (f : Nat) (on : Bool)
  deriving DecidableEq, Repr

/-- Everything under way between the units; `leftAt` holds, by firing, the serials that left in the last 300 µs with their
times (R458), `sentFor` the slots of the requests to other modules, by the number of the request, or by 2^41 and the number of the copy
(R404). -/
structure Flight where
  msgs : Tab Msg := []
  reqs : Tab Req := []
  rcopies : Tab ReqCopy := []
  replies : Tab Reply := []
  copies : Tab Copy := []
  preqs : Tab PreqRec := []
  scans : Tab Scan := []
  combines : Tab (List Combine) := []
  leftAt : Tab (List (Nat × Nat)) := []
  sentFor : Tab Nat := []
  ids : Nat := 1
  deriving DecidableEq, Repr

/-- The state of the module. `gtime` is the global time counter and `running` whether it runs; `cur` is the context whose
turn it is, `spent` that the turn is over and `idle` that nothing issued in it, `now` the happening that is taking place, `fresh` the counter of free
values (log 8). -/
structure State where
  mem : List Host.Cell
  ctxs : Tab Ctx
  auxs : Tab CtxAux
  cores : Tab CoreSt
  sori : Tab SorusSt
  saux : Tab SorusAux
  parts : Tab Part
  slots : Tab Slot
  hub : Hub
  thallus : Thallus
  fabric : Fabric
  flight : Flight
  gtime : Nat
  running : Bool
  cur : Nat
  spent : Bool
  idle : Bool
  now : Option Event
  script : List Turn
  agenda : List Event
  timers : List (Nat × Event)
  out : List Output
  fresh : Nat
  deriving DecidableEq, Repr

/-- A list of cells whose keys rise strictly from `lo` on, none of them 0 (what an unlisted key reads as, log 2). -/
def Memory.rises (lo : Nat) : List Host.Cell → Bool
  | [] => true
  | (k, b) :: m => lo ≤ k && b != 0 && Memory.rises (k + 1) m

/-- The canonical form of memory: keys strictly rising, no entry equal to what an unlisted key reads as. Equal memories are
equal lists. -/
def Memory.wf (m : List Host.Cell) : Bool := Memory.rises 0 m

/-- Reasons for a fault of the model. -/
inductive Fault
  /-- Raised by `step` where the turn names a context that the module does not have (R26: 10,240 contexts). Safe: no run
  from reset reaches it. -/
  | noSuchContext
  deriving DecidableEq, Repr

/-- Reasons for a refusal. -/
inductive Refusal
  /-- Raised by an arm of `exec` whose instruction has no meaning yet. Safe: the run stops. -/
  | notModelled (mnemonic : String)
  deriving DecidableEq, Repr

/-- The machine right after reset (R38, R40, and the reset columns of the register maps): phase 0 of bring-up begins, no
memory cell is listed, every context, core, sorus, partition and slot holds its reset values. -/
def State.reset : State where
  mem := []
  ctxs := []
  auxs := []
  cores := []
  sori := []
  saux := []
  parts := []
  slots := []
  hub := {}
  thallus := {}
  fabric := {}
  flight := {}
  gtime := 0
  running := false
  cur := 0
  spent := true
  idle := true
  now := none
  script := []
  agenda := []
  timers := []
  out := []
  fresh := 0

end Sys2Proof.Machine
end

