-- ==== Sys2Proof/Machine/Base.lean ====
section
/-! DEFINITION. Tables, the accessors of the units, the geometry of the module, memory keys, line names, clocks. Every
other operation reads and writes the state through these. -/

namespace Sys2Proof.Machine

/-! ### Tables -/

/-- The entry of a table, or `d` where it lists none. -/
def tget {α : Type} (d : α) : Tab α → Nat → α
  | [], _ => d
  | (n, v) :: t, k => if n = k then v else tget d t k

/-- Whether a table lists a number. -/
def thas {α : Type} : Tab α → Nat → Bool
  | [], _ => false
  | (n, _) :: t, k => n = k || thas t k

/-- The entry of a table, if listed. -/
def tget? {α : Type} : Tab α → Nat → Option α
  | [], _ => none
  | (n, v) :: t, k => if n = k then some v else tget? t k

/-- A table with one entry put in its place. -/
def tput {α : Type} : Tab α → Nat → α → Tab α
  | [], k, v => [(k, v)]
  | (n, w) :: t, k, v => if k < n then (k, v) :: (n, w) :: t else if k = n then (k, v) :: t else (n, w) :: tput t k v

/-- A table without one number. -/
def tdel {α : Type} (t : Tab α) (k : Nat) : Tab α := t.filter (fun p => p.1 != k)

/-- Put an entry, unless it is the value of an unlisted one. -/
def tset {α : Type} [DecidableEq α] (d : α) (t : Tab α) (k : Nat) (v : α) : Tab α := if v = d then tdel t k else tput t k v

/-! ### Units -/

/-- Context `h` = 4·L + c (R30, R232 mhartid). -/
def State.ctx (s : State) (h : Nat) : Ctx := tget {} s.ctxs h
/-- Replace context `h`. -/
def State.setCtx (s : State) (h : Nat) (c : Ctx) : State := { s with ctxs := tput s.ctxs h c }
/-- The rest of context `h`. -/
def State.aux (s : State) (h : Nat) : CtxAux := tget {} s.auxs h
/-- Replace the rest of context `h`. -/
def State.setAux (s : State) (h : Nat) (c : CtxAux) : State := { s with auxs := tput s.auxs h c }
/-- Logical core `L`. -/
def State.core (s : State) (L : Nat) : CoreSt := tget {} s.cores L
/-- Replace core `L`. -/
def State.setCore (s : State) (L : Nat) (c : CoreSt) : State := { s with cores := tput s.cores L c }
/-- Logical sorus `n`. -/
def State.sorus (s : State) (n : Nat) : SorusSt := tget {} s.sori n
/-- Replace sorus `n`. -/
def State.setSorus (s : State) (n : Nat) (c : SorusSt) : State := { s with sori := tput s.sori n c }
/-- The debug module, translation buffer and clock of sorus `n`. -/
def State.sx (s : State) (n : Nat) : SorusAux := tget {} s.saux n
/-- Replace them. -/
def State.setSx (s : State) (n : Nat) (c : SorusAux) : State := { s with saux := tput s.saux n c }
/-- Partition `p`. -/
def State.part (s : State) (p : Nat) : Part := tget {} s.parts p
/-- Replace partition `p`. -/
def State.setPart (s : State) (p : Nat) (c : Part) : State := { s with parts := tput s.parts p c }
/-- Tenant slot `t`. -/
def State.slot (s : State) (t : Nat) : Slot := tget {} s.slots t
/-- Replace slot `t`. -/
def State.setSlot (s : State) (t : Nat) (c : Slot) : State := { s with slots := tput s.slots t c }

/-- The context whose turn it is. -/
def State.hart (s : State) : Ctx := s.ctx s.cur
/-- Replace it. -/
def State.setHart (s : State) (c : Ctx) : State := s.setCtx s.cur c
/-- Its core. -/
def State.lcore (s : State) : Nat := s.cur / 4

/-- Add a happening that is due. -/
def State.poke (s : State) (e : Event) : State := { s with agenda := s.agenda ++ [e] }
/-- Add a happening that falls due after `ns`. -/
def State.after (s : State) (ns : Nat) (e : Event) : State := { s with timers := s.timers ++ [(s.gtime + ns, e)] }
/-- A happening that must wait is looked at again in the next nanosecond. -/
def State.again (s : State) (e : Event) : State := if s.timers.any (fun t => t.2 = e) then s else s.after 1 e
/-- Something leaves the module. -/
def State.emit (s : State) (o : Output) : State := { s with out := s.out ++ [o] }
/-- A number for a record. -/
def State.newId (s : State) : Nat × State :=
  (s.flight.ids, { s with flight := { s.flight with ids := s.flight.ids + 1 } })
/-- A free value (log 8). -/
def State.freeWord (s : State) : Word × State := (Config.freeWord s.fresh, { s with fresh := s.fresh + 1 })
/-- The turn has been used. -/
def State.spend (s : State) : State := { s with spent := true }
/-- The context gives its turn up: it is not ready to issue (R489). -/
def State.giveUp (s : State) : State := { s with spent := true, idle := true }

/-- Whether a core is under scan (R262). -/
def TestSt.isTesting : TestSt → Bool
  | .none => false
  | .draining => true
  | .running => true
  | .held => true

/-! ### Geometry (R22, R28, R30) -/

/-- Torus column of a sorus. -/
def torusX (s : Nat) : Nat := s % 16
/-- Torus row of a sorus. -/
def torusY (s : Nat) : Nat := s / 16
/-- Frond of a sorus (R30). -/
def frondOf (s : Nat) : Nat := torusX s / 4 + 4 * (torusY s / 5)
/-- Whether a logical core is present (R31, R265). -/
def State.present (s : State) (L : Nat) : Bool := L < 2560 && !s.hub.absent.contains L
/-- This module's identifier (FABCFG MODID). -/
def State.modId (s : State) : Nat := bits s.fabric.fabcfg 63 48
/-- The entry of a core in the logical core map (R265): ABSENT, SELFFAIL, REMOVED, INTEST and its place. -/
def State.lcmap (s : State) (L : Nat) : Word :=
  let f (b : Bool) (n : Nat) : Nat := if b then 2 ^ n else 0
  let n := L / 16
  if 2560 ≤ L then 0
  else word (f (s.hub.absent.contains L) 63 + f (s.hub.selffail.contains L) 62 + f (s.hub.removed.contains L) 61 +
    f (tget {} s.cores L).test.isTesting 60 + frondOf n * 2 ^ 13 + (torusX n % 4) * 2 ^ 11 + (torusY n % 5) * 2 ^ 8 + L % 16)
/-- Whether a sorus is withdrawn from group placement (R32): a core of it is absent, and no group is resident in it that was so when the
core was removed (R267). -/
def State.withdrawn (s : State) (n : Nat) : Bool := s.hub.absent.any (fun L => L / 16 == n) && !(s.sorus n).keeps
/-- The partition of a core, if its sorus lies in one (R397). -/
def State.partOf (s : State) (L : Nat) : Option Nat :=
  let x := s.sorus (L / 16)
  if x.pvalid then some x.part else none
/-- The tenant slot of a partition (R397 PARTCFG). -/
def State.slotOf (s : State) (p : Nat) : Nat := bits (s.part p).partcfg 3 0
/-- The tenant identifier of a slot (R394). -/
def State.tenantOf (s : State) (t : Nat) : Nat := bits (s.slot t).tencfg 47 32
/-- The partition numbers of a slot. -/
def State.partsOf (s : State) (t : Nat) : List Nat := (List.range 64).filter (fun p => s.slotOf p == t)
/-- The column of a core (R377). -/
def columnOf (L : Nat) : Nat := torusX (L / 16)
/-- The core with a member number of a column (R377). -/
def coreOfMember (k j : Nat) : Nat := (16 * (j / 16) + k) * 16 + j % 16
/-- Stack `j` of frond `f` (R33). -/
def frondStack (f j : Nat) : Nat := 4 * f + j
/-- The healthy stacks in increasing number (R33, R131): those that passed phase 2, fixed until the next reset. -/
def State.stacks (s : State) : List Nat := (List.range 32).filter (fun n => s.hub.good.getLsbD n)
/-- Device capacity in bytes: 128 GiB for each stack that passed (R131). -/
def State.capacity (s : State) : Nat := s.stacks.length * 2 ^ 37
/-- The stack that holds a device physical address, and its byte there (R33, R131): unit `u` of 256 bytes stands in the healthy
stack at position `u` modulo their number. -/
def State.stackOf (s : State) (pa : Nat) : Option (Nat × Nat) :=
  let n := s.stacks.length
  (s.stacks[pa / 256 % n]?).map (fun k => (k, pa / 256 / n * 256 + pa % 256))

/-! ### Ways through the torus (R22, R23, R347) -/

/-- The way round a ring of `n` routers: whether upward, and the hops (R347 XWAY, YWAY); 0 takes the shorter. -/
def ringWay (way a b n : Nat) : Bool × Nat :=
  let up := (b + n - a) % n
  let down := (a + n - b) % n
  if way = 1 || (way = 0 && up ≤ down) then (true, up) else (false, down)

/-- The routers and links of a way along a row: link 0 is +X, 1 is -X. -/
def rowLinks (way x y x' : Nat) : List (Nat × Nat) :=
  let (up, k) := ringWay way x x' 16
  (List.range k).map (fun i => if up then (16 * y + (x + i) % 16, 0) else (16 * y + (x + 16 - i) % 16, 1))

/-- The routers and links of a way along a column: link 2 is +Y, 3 is -Y. -/
def colLinks (way x y y' : Nat) : List (Nat × Nat) :=
  let (up, k) := ringWay way y y' 10
  (List.range k).map (fun i => if up then (16 * ((y + i) % 10) + x, 2) else (16 * ((y + 10 - i) % 10) + x, 3))

/-- Whether a link crosses from one die to another (R23). -/
def dieCross (l : Nat × Nat) : Bool :=
  if l.2 = 0 then torusX l.1 % 4 = 3 else if l.2 = 1 then torusX l.1 % 4 = 0
  else if l.2 = 2 then torusY l.1 % 5 = 4 else torusY l.1 % 5 = 0

/-- The number of the die-to-die link that a router's link crosses: that from frond `f` to the next in its row is `f`, that to the next
in its column `8 + f` (DESIGN CHOICE, unsafe: the spec numbers no links; log 105). -/
def dieLink (l : Nat × Nat) : Nat :=
  let x := torusX l.1
  let y := torusY l.1
  if l.2 = 0 then frondOf l.1 else if l.2 = 1 then frondOf (16 * y + (x + 15) % 16)
  else if l.2 = 2 then 8 + frondOf l.1 else 8 + frondOf (16 * ((y + 9) % 10) + x)

/-- The crossing time of a die-to-die link by its width (R472). -/
def crossTime (lanes : Nat) : Nat := if lanes = 64 then 5 else if lanes = 32 then 7 else 11

/-- The links of the shorter way from one sorus to another, row ring first (R347). -/
def wayLinks (a b : Nat) : List (Nat × Nat) :=
  rowLinks 0 (torusX a) (torusY a) (torusX b) ++ colLinks 0 (torusX b) (torusY a) (torusY b)

/-- The nanoseconds of an unloaded way from one sorus to another: 1 for each hop, and for each crossing what the width of its link takes
(R23, R472). -/
def State.hopTime (s : State) (a b : Nat) : Nat :=
  (wayLinks a b).foldl (fun m l => m + 1 + (if dieCross l then crossTime (tget 64 s.fabric.links (dieLink l)) else 0)) 0

/-- Whether a way crosses a die-to-die link that retrains: traffic waits for it in the routers (R472). -/
def State.wayDown (s : State) (ls : List (Nat × Nat)) : Bool := ls.any (fun l => dieCross l && s.fabric.retrain.contains (dieLink l))

/-- The sorus at whose router the ports of a frond join the torus (R24; log 82). -/
def portSorus (n : Nat) : Nat := 16 * (5 * (n / 8)) + 4 * (n / 2 % 4)

/-- The time that a path by which one core affects another takes at least (R52). -/
def pathTime : Nat := 3

/-! ### Memory keys (R119 to R127, R303) -/

/-- Key of a device physical address. -/
def devKey (pa : Nat) : Nat := pa
/-- Key of a host physical address. -/
def hostKey (pa : Nat) : Nat := 2 ^ 52 + pa
/-- Key of an offset of a sorus scratchpad. -/
def sorusKey (s off : Nat) : Nat := 2 ^ 60 + s * 2 ^ 21 + off
/-- Key of an offset of a core scratchpad, by its scratchpad name (R121). -/
def spadKey (L off : Nat) : Nat := 2 ^ 61 + L * 2 ^ 20 + off
/-- Key of a store address of a core's accumulator store. -/
def accKey (L a : Nat) : Nat := 2 ^ 62 + L * 2 ^ 16 + a
/-- Key of an offset of the bring-up image window (R42). -/
def imageKey (off : Nat) : Nat := 2 ^ 63 + off

/-- Whether a key lies in device memory. -/
def isDev (k : Nat) : Bool := k < 2 ^ 51
/-- Whether a key lies in host memory. -/
def isHost (k : Nat) : Bool := 2 ^ 52 ≤ k && k < 2 ^ 60
/-- Whether a key lies in a sorus scratchpad. -/
def isSorus (k : Nat) : Bool := 2 ^ 60 ≤ k && k < 2 ^ 61
/-- Whether a key lies in a core scratchpad. -/
def isSpad (k : Nat) : Bool := 2 ^ 61 ≤ k && k < 2 ^ 62

/-- The line name of a key, where the line has one (R132). -/
def lineOf (k : Nat) : Option Nat :=
  if isDev k then some (k / 64)
  else if isSorus k then
    let o := k - 2 ^ 60
    some (2 ^ 36 + (o / 2 ^ 21) * 2 ^ 15 + (o % 2 ^ 21) / 64)
  else if isSpad k then
    let o := k - 2 ^ 61
    some (2 ^ 37 + (o / 2 ^ 20) * 2 ^ 13 + (o % 2 ^ 20) / 64)
  else none

/-- Whether a line name is one of device memory or of a sorus scratchpad, whose writes the thallus grants (R139). -/
def thallusLine (a : Nat) : Bool := a < 2 ^ 37

/-- The slice that owns a line: the exclusive-or of its ten 4-bit groups (R132). -/
def sliceOf (a : Nat) : Nat :=
  (List.range 10).foldl (fun x i => x ^^^ ((a >>> (4 * i)) % 16)) 0

/-- Add a number to a list that holds each once. -/
def insertNew (l : List Nat) (n : Nat) : List Nat := if l.contains n then l else l ++ [n]

/-- The slices that own some lines. -/
def slicesOf (lines : List Nat) : List Nat := lines.foldl (fun l a => insertNew l (sliceOf a)) []

/-- The signature constants of R137. -/
def sigConst (k : Nat) : Nat :=
  if k = 0 then 0x9E3779B97F4A7C15 else if k = 1 then 0xC2B2AE3D27D4EB4F
  else if k = 2 then 0x165667B19E3779F9 else 0xD6E8FEB86659FD93

/-- h_k(A): bits [63:56] of A·M_k modulo 2 to the 64 (R137). -/
def sigHash (k a : Nat) : Nat := (a * sigConst k % 2 ^ 64) / 2 ^ 56

/-- Whether part `k` of the signatures of two line lists share a set bit. -/
def sigPartMeets (k : Nat) (as bs : List Nat) : Bool := as.any (fun a => bs.any (fun b => sigHash k a == sigHash k b))

/-- Whether the signatures of two line lists meet (R138). -/
def sigMeets (as bs : List Nat) : Bool := (List.range 4).all (fun k => sigPartMeets k as bs)

/-- The byte at a memory key. -/
def State.byte (s : State) (k : Nat) : Byte := tget 0 s.mem k
/-- Write the byte at a memory key. -/
def State.setByte (s : State) (k : Nat) (b : Byte) : State := { s with mem := tset 0 s.mem k b }

/-- Bytes in a row of a list of cells, the lowest first. -/
def cellsAt (m : List Host.Cell) (k : Nat) : Nat → List Byte
  | 0 => []
  | n + 1 => tget 0 m k :: cellsAt m (k + 1) n

/-- The little-endian number of bytes (R4). -/
def leNat : List Byte → Nat
  | [] => 0
  | b :: bs => b.toNat + 256 * leNat bs

/-- The `n` little-endian bytes of a number (R4). -/
def leBytes (v : Nat) : Nat → List Byte
  | 0 => []
  | n + 1 => BitVec.ofNat 8 v :: leBytes (v / 256) n

/-- `n` bytes from a key as a number. -/
def State.readNat (s : State) (k n : Nat) : Nat := leNat (cellsAt s.mem k n)

/-- Write bytes from a key upward. -/
def writeCells (m : List Host.Cell) (k : Nat) : List Byte → List Host.Cell
  | [] => m
  | b :: bs => writeCells (tset 0 m k b) (k + 1) bs

/-- The copies that the host may hold of some device lines are invalidated before a write to them becomes visible (R389). -/
def State.backInvalidate (s : State) (lines : List Nat) : State :=
  lines.foldl (fun s a =>
    if s.thallus.hostHeld.contains a then
      { s with thallus := { s.thallus with hostHeld := s.thallus.hostHeld.filter (fun b => b != a) }
               out := s.out ++ [.backInvalidate a] }
    else s) s

/-- The device lines of `n` bytes from a key. -/
def linesIn (k n : Nat) : List Nat := if isDev k then (List.range ((n + k % 64 + 63) / 64)).map (fun i => k / 64 + i) else []

/-- The copies that the data caches hold of some device lines are invalidated before a write to them becomes visible (R125). -/
def State.dropCached (s : State) (lines : List Nat) : State :=
  if s.saux.all (fun p => p.2.dcache.isEmpty) then s
  else { s with saux := s.saux.map (fun p => (p.1, { p.2 with dcache := p.2.dcache.filter (fun e => !lines.contains e.1) })) }

/-- What a slice does before a write to some device lines becomes visible (R125, R389). -/
def State.linesWritten (s : State) (lines : List Nat) : State :=
  (if s.thallus.hostHeld.isEmpty then s else s.backInvalidate lines).dropCached lines

/-- Write bytes into memory. -/
def State.writeBytes (s : State) (k : Nat) (bs : List Byte) : State :=
  let s := s.linesWritten (linesIn k bs.length)
  { s with mem := writeCells s.mem k bs }
/-- Write the `n` little-endian bytes of a number. -/
def State.writeNat (s : State) (k n v : Nat) : State := s.writeBytes k (leBytes v n)
/-- Clear a range of keys. -/
def State.clearRange (s : State) (lo n : Nat) : State :=
  { s with mem := s.mem.filter (fun p => !(lo ≤ p.1 && p.1 < lo + n)) }

/-! ### Clocks (R46 to R55) -/

/-- The clock law: MHz at a core voltage in millivolts (R46, R49). -/
def clockMHz (v : Nat) : Nat :=
  if v < 520 then 0 else if v ≤ 700 then 1800 - 5 * (700 - v) else if v ≤ 800 then 1800 + 4 * (v - 700) else 2200

/-- The setpoint `d` ns after a change, at 10 mV per ns (R47). -/
def setpointAt (from0 goal d : Nat) : Nat :=
  if from0 ≤ goal then min goal (from0 + 10 * d) else max goal (from0 - 10 * d)

/-- The core voltage under a setpoint and a raw rail (R47). -/
def coreMv (setp raw : Nat) : Nat := min setp (raw - 40)

/-- Millicycles of the first `d` ns after a change, one ns at a time. -/
def slewCycles (from0 goal raw : Nat) : Nat → Nat
  | 0 => 0
  | d + 1 => slewCycles from0 goal raw d + clockMHz (coreMv (setpointAt from0 goal d) raw)

/-- Millicycles run `d` ns after a point; a slew lasts at most 10 ns (R47). -/
def pointCycles (p : ClkPoint) (d : Nat) : Nat :=
  let k := min d 10
  p.acc + slewCycles p.from0 p.goal p.raw k + (d - k) * clockMHz (coreMv p.goal p.raw)

/-- The point of a clock before any change: the nominal setpoint under the nominal rail (R37, R47). -/
def clkStart : ClkPoint := { since := 0, from0 := 700, goal := 700, raw := 780, acc := 0 }

/-- The last point of a history at or before a time. -/
def clkPoint : List ClkPoint → Nat → ClkPoint
  | [], _ => clkStart
  | p :: ps, t => if p.since ≤ t then p else clkPoint ps t

/-- Millicycles that the law gives a sorus up to a time. -/
def State.milli (s : State) (n t : Nat) : Nat :=
  let p := clkPoint (s.sx n).clk t
  pointCycles p (t - p.since)

/-- Where the regulator of a sorus stands `d` ns after a point (R47): on its way to a new setpoint it starts from the core voltage,
so that a slew from a voltage that the rail holds down begins at once; under a new raw rail it goes on from where it is. While the
clocks pause a slew waits (R483). -/
def regulatorAt (p : ClkPoint) (d goal : Nat) : Nat :=
  if p.raw < 560 then p.from0
  else if goal = p.goal then setpointAt p.from0 p.goal d
  else coreMv (setpointAt p.from0 p.goal d) p.raw

/-- A new point in a sorus's clock history at the time `t`: the regulator moves to `goal` under the raw rail `raw`. The history
keeps every point since the time counter started, so that what a count began from is never lost (R8, R53). -/
def State.clkChangeAt (s : State) (n goal raw t : Nat) : State :=
  let x := s.sx n
  let p := clkPoint x.clk t
  let q : ClkPoint :=
    { since := t, from0 := regulatorAt p (t - p.since) goal, goal := goal, raw := raw, acc := pointCycles p (t - p.since) }
  s.setSx n { x with clk := q :: x.clk }

/-- A new point in a sorus's clock history now. -/
def State.clkChange (s : State) (n goal raw : Nat) : State := s.clkChangeAt n goal raw s.gtime

/-- The cycles of core `L` up to a time, with the deviation of its clock (R46; log 11). -/
def State.cyclesAt (s : State) (L t : Nat) : Nat :=
  s.milli (L / 16) t * (990 + Config.clockDev L % 21) / 1000000

/-- Core cycles run from the release of the cores until now, before what a write of mcycle added. -/
def State.cycles (s : State) (L : Nat) : Nat := s.cyclesAt L s.gtime - s.cyclesAt L s.hub.relAt

/-- Whether the clock of a sorus is paused now (R49). -/
def State.paused (s : State) (n : Nat) : Bool :=
  let p := clkPoint (s.sx n).clk s.gtime
  clockMHz (coreMv (setpointAt p.from0 p.goal (s.gtime - p.since)) p.raw) == 0

/-- Whether a sorus stands still: its engines start nothing and it takes no traffic (R412, R49, R469). -/
def State.still (s : State) (n : Nat) : Bool := (s.sx n).halted || s.paused n || s.hub.stopped

/-- Whether the contexts of a sorus take no traffic now: it is halted (R412), or its clock is paused (R49). -/
def State.quiet (s : State) (n : Nat) : Bool := (s.sx n).halted || s.paused n

/-- The sorus that holds a scratchpad key. -/
def sorusOfKey (k : Nat) : Nat := if isSpad k then (k - 2 ^ 61) / 2 ^ 24 else (k - 2 ^ 60) / 2 ^ 21

/-- The logical core whose scratchpad holds a key, 0 for another key. -/
def keyCore (k : Nat) : Nat := if isSpad k then (k - 2 ^ 61) / 2 ^ 20 else 0

/-- Whether a key lies in a scratchpad of another sorus than `n` that takes no traffic now. -/
def State.keyStill (s : State) (n k : Nat) : Bool :=
  (isSpad k || isSorus k) && sorusOfKey k != n && s.quiet (sorusOfKey k)

/-- What the copy of core `L`'s frond makes of a time of the hub's counter (R51, R470). -/
def State.localOf (s : State) (L t : Nat) : Nat := ((t : Int) + tget 0 s.fabric.skew (frondOf (L / 16))).toNat

/-- `GTIME` at core `L`: the copy of its frond (R51, R470). -/
def State.localTime (s : State) (L : Nat) : Nat := s.localOf L s.gtime

/-- `CYCLE` of core `L` (R53, R249). -/
def State.cycleCsr (s : State) (L : Nat) : Word := word (s.cycles L) + (s.core L).cycOff

/-- Whether the clock paused at a moment of a window: a point of the history that rules some part of it has a law of 0. -/
def pausedIn : List ClkPoint → Nat → Nat → Bool
  | [], _, _ => false
  | p :: ps, lo, hi =>
    if hi ≤ p.since then pausedIn ps lo hi
    else (clockMHz (coreMv p.goal p.raw) == 0) || (if p.since ≤ lo then false else pausedIn ps lo p.since)

/-- `TRATIO` of core `L` (R55): the window that ends at the largest multiple of 40 not above the time less 40. -/
def State.tratio (s : State) (L : Nat) : Word :=
  let e := (s.gtime - 40) / 40 * 40
  if e < 640 || e - 640 < s.hub.relAt || s.hub.phase < 3 then 0
  else
    let n := s.cyclesAt L e - s.cyclesAt L (e - 640)
    let p := if pausedIn (s.sx (L / 16)).clk (e - 640) e then 4096 else 0
    word (n % 4096 + p)

end Sys2Proof.Machine
end

