-- ==== Sys2Proof/Machine/Firing.lean ====
section
/-! DEFINITION. Firings: the fields of a launch header, the error log, trace records, answers to registers, and the end
of a firing by HALT or by a kill (R88 to R97, R416, R431 to R435, R480). -/

namespace Sys2Proof.Machine

/-! ### The launch header (R94 to R97) -/

/-- Word `i` of a header. -/
def hdrWord (ws : List Word) (i : Nat) : Word := ws.getD i 0
/-- Width of field `i` (R94). -/
def hdrW (ws : List Word) (i : Nat) : Nat := bits (hdrWord ws 6) (6 * i + 5) (6 * i)
/-- Extent of field `i`, minus 1. -/
def hdrExt (ws : List Word) (i : Nat) : Nat :=
  if i < 4 then bits (hdrWord ws 4) (16 * i + 15) (16 * i) else bits (hdrWord ws 5) (16 * (i - 4) + 15) (16 * (i - 4))
/-- Number of fields. -/
def hdrNF (ws : List Word) : Nat := bits (hdrWord ws 6) 38 36
/-- Group level. -/
def hdrLevel (ws : List Word) : Nat := bits (hdrWord ws 6) 41 39
/-- Flags of the word at 0x38: RTC 0, GANG 1, COR 2, NOPRE 3, ORDERED 4. -/
def hdrFlag (ws : List Word) (n : Nat) : Bool := bit (hdrWord ws 7) n
/-- Priority. -/
def hdrPrio (ws : List Word) : Nat := bits (hdrWord ws 7) 7 5
/-- Banks each firing claims. -/
def hdrBanks (ws : List Word) : Nat := bits (hdrWord ws 7) 49 40
/-- Spill carve-out in units of 4 KiB. -/
def hdrSpill (ws : List Word) : Nat := bits (hdrWord ws 7) 55 50
/-- Actor number. -/
def hdrActor (ws : List Word) : Nat := bits (hdrWord ws 5) 63 48
/-- Order domain. -/
def hdrOdom (ws : List Word) : Nat := bits (hdrWord ws 5) 47 40
/-- Signal vector or channel. -/
def hdrSigvec (ws : List Word) : Nat := bits (hdrWord ws 5) 39 32
/-- Signal kind. -/
def hdrSigkind (ws : List Word) : Nat := bits (hdrWord ws 7) 33 32
/-- The product of the extents of the first `n` fields: the group size for `n` = GLEVEL, all firings for `n` = NF. -/
def hdrCount (ws : List Word) : Nat → Nat
  | 0 => 1
  | n + 1 => hdrCount ws n * (hdrExt ws n + 1)
/-- Group size S (R97). -/
def hdrSize (ws : List Word) : Nat := hdrCount ws (hdrLevel ws)
/-- Number of firings N (R96). -/
def hdrAll (ws : List Word) : Nat := hdrCount ws (hdrNF ws)
/-- Number of groups. -/
def hdrGroups (ws : List Word) : Nat := hdrAll ws / hdrSize ws
/-- Offset of field `i` in the work identifier (R96). -/
def hdrOff (ws : List Word) : Nat → Nat
  | 0 => 0
  | n + 1 => hdrOff ws n + hdrW ws n
/-- The work identifier bits of the mixed-radix digits of `k` over fields `i` to `i + n - 1`. -/
def hdrDigits (ws : List Word) (i k : Nat) : Nat → Nat
  | 0 => 0
  | n + 1 => (k % (hdrExt ws i + 1)) * 2 ^ hdrOff ws i + hdrDigits ws (i + 1) (k / (hdrExt ws i + 1)) n
/-- Group identifier of the `k`-th group, in increasing order (R97, R99). -/
def hdrGid (ws : List Word) (k : Nat) : Word := word (hdrDigits ws (hdrLevel ws) k (hdrNF ws - hdrLevel ws))
/-- Work identifier of member `j` of a group (R97). -/
def hdrWid (ws : List Word) (gid : Word) (j : Nat) : Word := gid + word (hdrDigits ws 0 j (hdrLevel ws))

/-! ### Error log (R479, R480) -/

/-- Write or merge an entry of the module error log; a stopped module logs nothing more (R483). -/
def State.elog (s : State) (kind t L : Nat) (addr detail : Word) : State :=
  let g := s.hub
  if g.stopped then s
  else
    let newest := (g.elogHead + 255) % 256
    match (tget? g.elog newest).filter (fun e => e.kind = kind && e.tslot = t && e.core = L && e.addr = addr) with
    | some e => { s with hub := { g with elog := tput g.elog newest { e with count := min 65535 (e.count + 1) } } }
    | none =>
      if (g.elogHead + 1) % 256 = g.elogTail then { s with hub := { g with elogLost := min 65535 (g.elogLost + 1) } }
      else { s with hub := { g with
        elog := tput g.elog g.elogHead
          { time := s.gtime, kind := kind, tslot := t, core := L, addr := addr, detail := detail, count := 1 }
        elogHead := (g.elogHead + 1) % 256 } }

/-! ### Trace (R416, R417) -/

/-- Write one trace record of a sorus into its ring; with STOP 1 a full ring drops it (R416, R422). -/
def State.traceRecord (s : State) (n : Nat) (w0 w1 : Word) : State :=
  let x := s.sx n
  let size := bits x.trsize 19 0 * 4096
  if size = 0 then s
  else if x.troff + 16 > size && bit x.trbase 0 then
    s.setSx n { x with trlost := min 65535 (x.trlost + 1) }
  else
    let off := if x.troff + 16 > size then 0 else x.troff
    let a := devKey (bits x.trbase 51 12 * 4096 + off)
    let t := (s.writeNat a 8 w0.toNat).writeNat (a + 8) 8 w1.toNat
    t.setSx n { t.sx n with troff := if off + 16 = size && !bit x.trbase 0 then 0 else off + 16 }

/-- Word 0 of a record of context `h`: type, place, context, cause, cycle count. -/
def State.traceHead (s : State) (h type cause : Nat) : Word :=
  word (type * 2 ^ 60 + (h / 4 % 16) * 2 ^ 56 + (h % 4) * 2 ^ 54 + cause * 2 ^ 51 + (s.cycleCsr (h / 4)).toNat % 2 ^ 48)

/-- Whether the debug module allows trace at a level (R256, R410). -/
def State.traceAllowed (s : State) (h : Nat) (p : Priv) : Bool :=
  (s.sx (h / 64)).trlvl.testBit (match p with | .u => 0 | .s => 1 | .m => 2)

/-- A record of type 1 to 6 of context `h`: only with its trace on, at an allowed level, and not while halted (R417). -/
def State.trace (s : State) (h type : Nat) (payload : Word) : State :=
  if (s.aux h).trace && s.traceAllowed h (s.ctx h).priv && !(s.sx (h / 64)).halted then
    s.traceRecord (h / 64) (s.traceHead h type 0) payload
  else s

/-- A SYNC record of a core, when any of its contexts has trace on (R418). -/
def State.traceSync (s : State) (L cause : Nat) : State :=
  if (List.range 4).any (fun c => (s.aux (4 * L + c)).trace) && !(s.sx (L / 16)).halted then
    s.traceRecord (L / 16) (s.traceHead (4 * L) 0 cause) (word (s.localTime L))
  else s

/-! ### Capture counters (R257, R419) -/

/-- Whether a context holds a firing that runs, so that its counters count (R257). -/
def CtxSt.counts : CtxSt → Bool
  | .starting => true
  | .running => true
  | .waiting => true
  | .draining => true
  | _ => false

/-- Every running counter of context `h` whose event is `evt` counts `n`; it is frozen while no firing of the context runs. -/
def State.capEvent (s : State) (h evt n : Nat) : State :=
  let a := s.aux h
  if a.capOn = 0 || !(s.ctx h).st.counts || (s.sx (h / 64)).halted then s
  else
    let ev := (s.core (h / 4)).capevt
    let caps := (List.range 32).foldl (fun t i =>
      if a.capOn.getLsbD i && tget 0 ev i = evt then tset 0 t i (tget 0 t i + word n) else t) a.caps
    s.setAux h { a with caps := caps }

/-! ### What is uncommitted -/

/-- Whether nothing of a context is uncommitted. -/
def Ctx.clean (c : Ctx) : Bool := c.older.isNone && c.young.n = 0 && c.young.held.isEmpty

/-- The chunks of the squashed work. -/
def Ctx.lostChunks (c : Ctx) (both : Bool) : Nat :=
  if both && c.older.isSome && !(c.young.n = 0 && c.young.held.isEmpty) then 2 else 1

/-! ### Finding firings -/

/-- The context that holds a firing. -/
def State.hartOf (s : State) (fid : Nat) : Option Nat :=
  (s.ctxs.find? (fun p => p.2.firing.any (fun f => f.fid == fid))).map (·.1)

/-- The saved firing with a number, and its partition. -/
def State.savedOf (s : State) (fid : Nat) : Option (Nat × Saved) :=
  s.parts.findSome? (fun p => (p.2.saved.find? (fun v => v.firing.fid == fid)).map (fun v => (p.1, v)))

/-- A firing by its number, where it runs or in its save block. -/
def State.firingOf (s : State) (fid : Nat) : Option Firing :=
  match s.hartOf fid with
  | some h => (s.ctx h).firing
  | none => (s.savedOf fid).map (·.2.firing)

/-- Replace a saved firing. -/
def State.setSaved (s : State) (p : Nat) (v : Saved) : State :=
  let q := s.part p
  s.setPart p { q with saved := q.saved.map (fun w => if w.id = v.id then v else w) }

/-- Whether a firing has not ended: a context or a save block holds it. -/
def State.alive (s : State) (fid : Nat) : Bool := (s.hartOf fid).isSome || (s.savedOf fid).isSome

/-- The launch of a firing. -/
def State.launchOf (s : State) (f : Firing) : Option Launch := f.key.bind (fun k => tget? (s.part (k / 64)).launches (k % 64))

/-- The header words of a firing's launch, empty for a firing of channels 1 to 15. -/
def State.hdrOf (s : State) (f : Firing) : List Word := ((s.launchOf f).map (·.hdr.words)).getD []

/-- Replace the launch with a key 64·p + slot. -/
def State.setLaunch (s : State) (k : Nat) (l : Launch) : State :=
  let q := s.part (k / 64)
  s.setPart (k / 64) { q with launches := tput q.launches (k % 64) l }

/-- One fault counted against a firing's launch, saturating (R117). -/
def State.countFault (s : State) (f : Firing) : State :=
  match f.key, s.launchOf f with
  | some k, some l => s.setLaunch k { l with faults := min (2 ^ 32 - 1) (l.faults + 1) }
  | _, _ => s

/-! ### Registers that await an answer (R333, R359) -/

/-- Write scalar register `r` (R16). -/
def Regs.setX (g : Regs) (r : Nat) (v : Word) : Regs := if r = 0 then g else { g with x := tset 0 g.x r v }
/-- Scalar register `r` (R16). -/
def Regs.getX (g : Regs) (r : Nat) : Word := if r = 0 then 0 else tget 0 g.x r
/-- Write vector register `r`. -/
def Regs.setV (g : Regs) (r : Nat) (v : VReg) : Regs := { g with v := tset 0 g.v r v }
/-- Vector register `r`. -/
def Regs.getV (g : Regs) (r : Nat) : VReg := tget 0 g.v r
/-- Predicate register `r`; p0 reads as ones (R26). -/
def Regs.getP (g : Regs) (r : Nat) : PReg := if r = 0 then BitVec.allOnes 512 else tget 0 g.p r
/-- Write predicate register `r`; p0 ignores writes (R26). -/
def Regs.setP (g : Regs) (r : Nat) (v : PReg) : Regs := if r = 0 then g else { g with p := tset 0 g.p r v }
/-- Accumulator register `r`. -/
def Regs.getA (g : Regs) (r : Nat) : AReg := tget 0 g.a r
/-- Write accumulator register `r`. -/
def Regs.setA (g : Regs) (r : Nat) (v : AReg) : Regs := { g with a := tset 0 g.a r v }

/-- Write an answer into register files. -/
def Answer.into (a : Answer) (g : Regs) (r : Nat) : Regs :=
  match a with
  | .scal w => g.setX r w
  | .vect w => g.setV (r % 32) w

/-- The value of a register that answer `id` supplies, and the register no longer awaits it. -/
def Ckpt.answer (k : Ckpt) (id : Nat) (a : Answer) : Ckpt :=
  match k.pend.find? (fun p => p.id == id) with
  | some p => { k with regs := a.into k.regs p.reg, pend := k.pend.filter (fun p => p.id != id) }
  | none => k

/-- The answer `id` reaches a context: its current value and the checkpoints of its uncommitted chunks (R359). `ver` raises
the horizon of the executing chunk, and of every later one (R149). -/
def Ctx.answer (c : Ctx) (id : Nat) (a : Answer) (ver : Nat) : Ctx :=
  match c.pend.find? (fun p => p.id == id) with
  | none => c
  | some p => { c with
      regs := a.into c.regs p.reg
      pend := c.pend.filter (fun p => p.id != id)
      young := { c.young with ck := c.young.ck.answer id a, hor := max c.young.hor ver }
      floor := max c.floor ver
      older := c.older.map (fun o => { o with ck := o.ck.answer id a }) }

/-- Something that has come for a context waits in the interface of its core (R49, R58, R412). -/
def State.inbound (s : State) (h : Nat) (i : Inbound) : State := s.setAux h { s.aux h with inq := (s.aux h).inq ++ [i] }

/-- The answer `id` reaches firing `fid`: where it runs, in its save block, or nowhere once it has ended (R359, R459). Where its context
takes none now (`waits` of its sorus), it waits in the interface. -/
def State.answerIf (s : State) (waits : Nat → Bool) (fid id : Nat) (a : Answer) (ver : Nat) : State :=
  match s.hartOf fid with
  | some h => if waits (h / 64) then s.inbound h (.answer id a ver) else s.setCtx h ((s.ctx h).answer id a ver)
  | none =>
    match s.savedOf fid with
    | some (p, v) =>
      match v.pend.find? (fun q => q.id == id) with
      | some q => s.setSaved p { v with
          regs := a.into v.regs q.reg, pend := v.pend.filter (fun q => q.id != id), floor := max v.floor ver }
      | none => s
    | none => s

/-- An answer that another unit sends: a halted sorus takes none (R412). -/
def State.answerWith (s : State) (fid id : Nat) (a : Answer) (ver : Nat) : State := s.answerIf s.quiet fid id a ver

/-- A scalar answer. -/
def State.answer (s : State) (fid id : Nat) (v : Word) (ver : Nat) : State := s.answerWith fid id (.scal v) ver

/-- A scalar answer from within the sorus itself, which what was started before a halt, or by a step, still brings (R412, R413). -/
def State.answerHere (s : State) (fid id : Nat) (v : Word) : State := s.answerIf s.paused fid id (.scal v) 0

/-- EI becomes pending on a context with a value; while one is pending a later error is recorded in the log only (R453). -/
def State.eiNow (s : State) (h : Nat) (val : Word) : State :=
  let c := s.ctx h
  if c.sys.pendEi then s
  else (s.setCtx h { c with sys := { c.sys with pendEi := true } }).setAux h { s.aux h with eiVal := val }

/-- EI set pending on firing `fid` (R453, R460); while its core's clock is paused it waits in the interface (R49). -/
def State.setEi (s : State) (fid kind : Nat) (addr : Word) : State :=
  let val := word (kind * 2 ^ 60 + addr.toNat % 2 ^ 60)
  match s.hartOf fid with
  | some h => if s.paused (h / 64) then s.inbound h (.ei val) else s.eiNow h val
  | none =>
    match s.savedOf fid with
    | some (p, v) => if v.pendEi then s else s.setSaved p { v with pendEi := true, aux := { v.aux with eiVal := val } }
    | none => s

/-! ### Pre-emption requests of PREQ (R258, R259) -/

/-- The outcome of one firing of a PREQ. When all are known the answer is 0 if every one was saved, else the first nonzero
code in in-group index order. -/
def State.preqOutcome (s : State) (id idx code : Nat) : State :=
  match tget? s.flight.preqs id with
  | none => s
  | some r =>
    let todo := r.todo.filter (fun t => t.2 != idx)
    let codes := (idx, code) :: r.codes
    if todo.isEmpty then
      let worst := (List.range 64).findSome? (fun i => (codes.find? (fun p => p.1 == i && p.2 != 0)).map (·.2))
      ({ s with flight := { s.flight with preqs := tdel s.flight.preqs id } }).answer r.fid r.id (word (worst.getD 0)) 0
    else { s with flight := { s.flight with preqs := tput s.flight.preqs id { r with todo := todo, codes := codes } } }

/-- Every PREQ that names the firing of context `h` receives a code, one that has yet to reach it included, and the requests that have
reached it are void. -/
def State.preqsDone (s : State) (h code : Nat) : State :=
  let a := s.aux h
  let s := s.setAux h { a with preqs := [] }
  match (s.ctx h).firing with
  | none => s
  | some f => (s.flight.preqs.filter (fun r => r.2.todo.any (fun t => t.1 = f.fid))).foldl (fun s r => s.preqOutcome r.1 f.idx code) s

/-! ### Banks (R90 to R93) -/

/-- Bank `b` of core `L`. -/
def State.bank (s : State) (L b : Nat) : Bank := tget {} (s.core L).banks b
/-- Replace it. -/
def State.setBank (s : State) (L b : Nat) (k : Bank) : State :=
  let c := s.core L
  s.setCore L { c with banks := tset {} c.banks b k }

/-- A bank with every byte zero and its format register at reset (R90, R177). -/
def State.wipeBank (s : State) (L b : Nat) : State :=
  let s := s.clearRange (spadKey L (b * 0x8000)) 0x8000
  let c := s.core L
  s.setCore L { c with fmt := tdel c.fmt b }

/-- Power a bank down: no owner, no retention, and it will wake with every byte zero (R90). -/
def State.bankDown (s : State) (L b : Nat) : State := (s.wipeBank L b).setBank L b {}

/-- Release the banks of a firing; those in `retain` stay, marked for `actor` until 1 ms from now (R90 to R92). -/
def State.releaseBanks (s : State) (L fid retain actor : Nat) : State :=
  (List.range 10).foldl (fun s b =>
    let k := s.bank L b
    if k.own = some fid then
      if retain.testBit b then
        (s.setBank L b { powered := true, retain := some (actor, s.gtime) }).after 1000000 (.retentionExpiry L b s.gtime)
      else s.bankDown L b
    else s) s

/-- Core `L` has room again: its own selection and its partition's dispatcher look (R118). -/
def State.pokeRoom (s : State) (L : Nat) : State :=
  let s := s.poke (.selection L)
  match s.partOf L with
  | some p => s.poke (.groupDispatch p)
  | none => s

/-- Release the row groups of a firing (R304). -/
def State.releaseRows (s : State) (L fid : Nat) : State :=
  let c := s.core L
  s.setCore L { c with rowOwn := c.rowOwn.filter (fun p => p.2 != fid) }

/-! ### Launch accounting (R117, R397, R435) -/

/-- Whether a group of its partition is resident in a sorus: a context holds a firing or a reservation of a launch, or a
saved member of a larger group must come back to it. -/
def State.sorusHolds (s : State) (n : Nat) : Bool :=
  s.ctxs.any (fun q => q.1 / 64 = n && (q.2.resv.isSome || q.2.firing.any (fun f => f.key.isSome))) ||
  (s.part (s.sorus n).part).saved.any (fun v => v.core / 16 = n && 1 < hdrSize (s.hdrOf v.firing))

/-- A sorus with an absent core is withdrawn from group placement once it holds no resident group (R267). -/
def State.settleKeep (s : State) (n : Nat) : State :=
  if (s.sorus n).keeps && !s.sorusHolds n then s.setSorus n { s.sorus n with keeps := false } else s

/-- A firing that begins to run may be asked to give way: the dispatcher looks at its head group again (R104). -/
def State.pokeYield (s : State) (h : Nat) : State :=
  match (s.ctx h).firing with
  | some f => if (s.part f.part).launches.any (fun q => q.1 + 64 * f.part != f.key.getD 0) then s.poke (.groupDispatch f.part) else s
  | none => s

/-- Happenings that may be due once a firing of a partition has left a context. -/
def State.pokeEnd (s : State) (L p : Nat) (f : Firing) : State :=
  let s := ((s.settleKeep (L / 16)).poke (.selection L)).poke (.groupDispatch p)
  let s := if (s.core L).test = .draining then s.poke (.scanDrainEnd L) else s
  let s := if (s.sorus (L / 16)).leaving then s.poke (.sorusPass (L / 16)) else s
  match f.key with
  | some k =>
    let s := (s.poke (.groupBarrierComplete p (k % 64) f.gid.toNat)).poke
      (.exchangeComplete p (k % 64) f.gid.toNat (f.idx / 16))
    let s := (List.range 4).foldl (fun s n => s.poke (.launchBarrierComplete p (k % 64) n)) s
    s.poke (.launchCompletion p (k % 64))
  | none => s

/-- A firing of a launch has ended: `halted` says whether its HALT committed. Its domain takes a killed task's timestamp as
committed (R432). A group whose firings have all ended counts as completed, also where some were killed (DEDUCED, unsafe: R398 does not
say; log 115). -/
def State.launchEnd (s : State) (L : Nat) (f : Firing) (halted : Bool) : State :=
  match f.key, s.launchOf f with
  | some k, some l =>
    let full (g : Group) : Bool := g.ended.length == g.hs.length
    let gs := l.groups.map (fun g => if g.gid = f.gid then { g with ended := insertNew g.ended f.idx } else g)
    let fin := gs.any (fun g => g.gid = f.gid && full g)
    let s := s.setLaunch k { l with
      ended := l.ended + 1
      halted := if halted then l.halted + 1 else l.halted
      killed := l.killed || !halted
      gangLost := l.gangLost || (!halted && hdrFlag l.hdr.words 1)
      tend := s.gtime
      cycles := l.cycles + (s.cycles L - f.startCyc)
      dlDue := none
      dlLeft := none
      gone := insertNew l.gone L
      groups := gs.filter (fun g => !full g || g.gid != f.gid) }
    if fin then
      let t := s.slot f.slot
      s.setSlot f.slot { t with groupsNow := t.groupsNow + 1 }
    else s
  | _, _ => s

/-! ### Deadlock detection (R437, R438) -/

/-- Whether a sorus that holds a group of a launch is halted. -/
def State.launchHalted (s : State) (k : Nat) : Bool :=
  s.ctxs.any (fun p => (s.sx (p.1 / 64)).halted && p.2.firing.any (fun f => f.key = some k)) ||
  (match tget? (s.part (k / 64)).launches (k % 64) with
    | some l => l.groups.any (fun g => (s.sx g.sorus).halted)
    | none => false)

/-- Whether a wait is one that deadlock detection counts (R438). -/
def WaitFor.detected : WaitFor → Bool
  | .bar _ _ _ => true
  | .gbar => true
  | .lbar _ => true
  | .xchg => true
  | .ticket _ _ => true
  | _ => false

/-- The contexts that hold firings of a launch. -/
def State.launchHarts (s : State) (k : Nat) : List Nat :=
  (s.ctxs.filter (fun p => p.2.firing.any (fun f => f.key = some k))).map (·.1)

/-- Whether a core has a firing that may still contribute: one on it, one that is saved for it, or a reserved context. -/
def State.mayContribute (s : State) (L : Nat) : Bool :=
  s.ctxs.any (fun q => q.1 / 4 = L && (q.2.firing.isSome || q.2.resv.isSome)) ||
  s.parts.any (fun p => p.2.saved.any (fun v => v.core = L))

/-- Whether a member of a combine on which a firing of a launch waits has ended without contributing (R440): a firing of the launch has
ended on its core, which has not contributed and has no firing left that may. -/
def State.memberGone (s : State) (k : Nat) (crz : Nat) (c : Combine) : Bool :=
  let ms := (c.sends.head?.map (fun x => x.2.2.1.members)).getD 0
  let ended := ((tget? (s.part (k / 64)).launches (k % 64)).map (·.gone)).getD []
  (List.range 160).any (fun j =>
    let L := coreOfMember crz j
    ms.testBit j && ended.contains L && !c.sends.any (fun x => x.1 = L) && !s.mayContribute L)

/-- Whether a firing of a launch stalls on the status of a combine that can never be complete (R440). -/
def State.crzStalled (s : State) (k h : Nat) : Bool :=
  let c := s.ctx h
  match (s.aux h).stallOn, c.firing with
  | some (pc, ids), some f =>
    (c.st = .running || c.st = .draining) && c.pc = pc && ids.any (fun id => c.pend.any (fun p => p.id = id) &&
      s.flight.combines.any (fun q => q.2.any (fun b =>
        b.code.isNone && b.waits.any (fun w => w.1 = f.fid && w.2.1 = id) && s.memberGone k q.1 b)))
  | _, _ => false

/-- Whether every started firing of a launch is Waiting where detection counts it (R438), the saved ones included. One that stalls for
ever on a combine counts with them, since detection is to kill it (R440; log 86). -/
def State.allStuck (s : State) (k : Nat) : Bool :=
  let hs := s.launchHarts k
  let vs := (s.part (k / 64)).saved.filter (fun v => v.firing.key = some k)
  !(hs.isEmpty && vs.isEmpty) &&
  hs.all (fun h => ((s.ctx h).st = .waiting && (s.ctx h).waitOk && (s.ctx h).wait.detected) || s.crzStalled k h) &&
  vs.all (fun v => v.wait.detected)

/-- Detection time in ns (R437). -/
def State.dlTime (s : State) : Nat := s.hub.dltime * 1000

/-- The detection timer of a launch starts when all its firings wait (R438). -/
def State.dlStart (s : State) (k : Nat) : State :=
  match tget? (s.part (k / 64)).launches (k % 64) with
  | none => s
  | some l =>
    if l.dlDue.isSome || l.dlLeft.isSome || !s.allStuck k then s
    else if s.launchHalted k then s.setLaunch k { l with dlLeft := some s.dlTime }
    else (s.setLaunch k { l with dlDue := some (s.gtime + s.dlTime) }).after s.dlTime
      (.detectionTimerExpiry (k / 64) (k % 64) (s.gtime + s.dlTime))

/-- A firing has ended on core `L`: a combine of its column may skip the core now, where it has been removed (R267), and the launches of
which a firing stalls on one look at their timers (R438, R440). -/
def State.crzEnded (s : State) (L : Nat) : State :=
  let cs := tget [] s.flight.combines (columnOf L)
  cs.foldl (fun s c => c.waits.foldl (fun s w =>
    match (s.hartOf w.1).bind (fun h => (s.ctx h).firing.bind (·.key)) with | some k => s.dlStart k | none => s) s)
    (if cs.isEmpty then s else s.poke (.crozierContribution (columnOf L)))

/-- A launch's detection timer restarts (R438). -/
def State.dlReset (s : State) (f : Firing) : State :=
  match f.key, s.launchOf f with
  | some k, some l => s.setLaunch k { l with dlDue := none, dlLeft := none }
  | _, _ => s

/-! ### Ends -/

/-- A killed or committed ordered task moves its domain's commit point (R115, R432), and the tasks that waited for it may
commit. -/
def State.orderPoint (s : State) (f : Firing) : State :=
  match f.order with
  | some (ts, d) =>
    let q := s.part f.part
    let s := s.setPart f.part { q with points := tput q.points d (max ts (tget 0 q.points d)) }
    s.ctxs.foldl (fun s p =>
      if (p.2.older.isSome || p.2.trapReq.isSome) && p.2.firing.any (fun g => g.fid != f.fid && g.part = f.part && g.order.any (fun o => o.2 = d)) then
        (s.poke .grant).poke (.localCommit p.1) else s) s
  | none => s

/-- The number under which the transfers of a firing's port stand once it has ended: above every one in use, and 8 apart for each
firing that has. -/
def laterPort (t : Tab Drain) (q : Nat) : Nat := if 8 ≤ q then q else 8 * (1 + t.foldl (fun m d => max m (d.1 / 8)) 0) + q

/-- The committed write transfers that a firing leaves behind its ports still complete (R321); those of a parked port are dropped
(R446). -/
def leftDrains (t : Tab Drain) : Tab Drain :=
  (t.filter (fun d => d.2.stop.isNone && !d.2.queue.isEmpty)).foldl (fun l d => tput l (laterPort t d.1) d.2) []

/-- The context of a firing that has ended: Free with nothing in it. Committed write transfers of its ports still complete
(R321), and the debug selectors, the retired-instruction count, the trace switch and the capture counters of the context stay (R256,
R257). Operations of the ended firing that are still outstanding do not count toward the sixteen of the next one (DEDUCED, unsafe: R301
and R333 do not say; log 110). -/
def State.freeCtx (s : State) (h : Nat) : State :=
  let a := s.aux h
  let ds := leftDrains a.drain
  let s := ds.foldl (fun s d => s.poke (.streamWriteTransferDone h d.1)) s
  (s.setCtx h { floor := (s.ctx h).floor }).setAux h
    { drain := ds, dbgsel := a.dbgsel, dbgridx := a.dbgridx, infidx := a.infidx, capidx := a.capidx,
      instret := a.instret, trace := a.trace, capOn := a.capOn, caps := a.caps }

/-- Whether tile operations of a firing are still outstanding at its core (R304). -/
def State.tilesLeft (s : State) (L fid : Nat) : Bool :=
  (s.core L).matq.any (fun t => t.fid == fid) ||
  s.flight.copies.any (fun p => p.2.fid == fid && p.2.follow.isSome)

/-- The copies of an ended firing run on and their statuses are discarded (R339). One that is parked comes back to its core's queue: at
the head, to end there with FAULT, where it had met a fault (R446), else to go on. -/
def State.orphanCopies (s : State) (fid : Nat) : State :=
  let parked := s.flight.copies.filter (fun p => p.2.fid = fid && p.2.parked)
  let s := { s with flight := { s.flight with copies := s.flight.copies.map (fun p =>
    if p.2.fid = fid then (p.1, { p.2 with discard := true, parked := false }) else p) } }
  parked.foldl (fun s p =>
    let L := p.2.h / 4
    let k := s.core L
    (s.setCore L { k with copyq := if p.2.fault then p.1 :: k.copyq else k.copyq ++ [p.1] }).poke (.copyHeadCheck L)) s

/-- The requests of a firing that ends keep its next serial (R362). -/
def State.keepSerial (s : State) (f : Firing) : State :=
  { s with flight := { s.flight with reqs := s.flight.reqs.map (fun (p : Nat × Req) =>
      if p.2.fid = f.fid then (p.1, { p.2 with next := f.serial }) else p) } }

/-- The end of the firing of context `h`, by the commit of its HALT or by a kill (R90, R432). The cycles of Restoring count nowhere (R117). -/
def State.endFiring (s : State) (h : Nat) (halted : Bool) (retain actor : Nat) : State :=
  let L := h / 4
  match (s.ctx h).firing with
  | none => s
  | some f =>
    let s := s.preqsDone h (if halted then 1 else 7)
    let s := (s.aux h).faults.foldl (fun s _ => s.countFault f) s
    let s := s.releaseBanks L f.fid retain actor
    let s := if s.tilesLeft L f.fid then s else s.releaseRows L f.fid
    let s := s.orphanCopies f.fid
    let s := s.keepSerial f
    let s := s.launchEnd L (if (s.ctx h).st = .restoring then { f with startCyc := s.cycles L } else f) halted
    let s := if halted then s else s.orderPoint f
    let s := (s.freeCtx h).crzEnded L
    (match f.key with | some k => s.dlStart k | none => s).pokeEnd L f.part f

/-- A request that is served again, put among those at the head of the owner's queue that are so too, in the order in which they were
first taken (R433). -/
def State.restoreOwner (s : State) (id first : Nat) : List Nat → List Nat
  | [] => [id]
  | i :: is =>
    if (tget? s.flight.rcopies i).any (fun r => r.first != 0 && r.first < first) then i :: s.restoreOwner id first is else id :: i :: is

/-- The trigger of a firing killed for a hardware cause goes back to its channel's restore area, at most three times
(R433); the owner handler's request goes back to the head of its queue. -/
def State.redeliver (s : State) (h : Nat) (f : Firing) : State :=
  let L := h / 4
  let c := s.core L
  match f.owner with
  | some id =>
    if f.redel < 3 then
      let s := { s with flight := { s.flight with
        rcopies := s.flight.rcopies.map (fun (p : Nat × ReqCopy) => if p.1 = id then (p.1, { p.2 with redel := f.redel + 1 }) else p) } }
      s.setCore L { c with owners := s.restoreOwner id f.born c.owners }
    else
      let s := match s.fabric.admits.find? (fun p => p.2.1 = id) with
        | some (w, _) =>
          ({ s with fabric := { s.fabric with admits := s.fabric.admits.filter (fun p => p.2.1 != id) } }).poke (.revokeDrainEnd w)
        | none => s
      ({ s with flight := { s.flight with rcopies := tdel s.flight.rcopies id } }).elog 6 f.slot L 1 0
  | none =>
    if f.chan = 0 || !f.rtc then s
    else if f.redel < 3 then
      let q := tget {} c.chans f.chan
      let r : Restored := { words := f.trigger, redel := f.redel + 1, born := f.born }
      let (lo, hi) := q.restore.partition (fun e => e.born < r.born)
      s.setCore L { c with chans := tput c.chans f.chan { q with restore := lo ++ r :: hi } }
    else s.elog 6 f.slot L (word f.chan) 0

/-- The uncommitted chunks of a killed firing are discarded, as squashes without re-execution (R432, R151): one SQUASH record, and each
chunk counts (R417, R419). -/
def State.discarded (s : State) (h : Nat) : State :=
  let c := s.ctx h
  if c.clean then s
  else (s.trace h 4 (match c.older with | some o => o.ck.pc | none => c.young.ck.pc)).capEvent h 3 (c.lostChunks true)

/-- A kill (R431, R432): the uncommitted chunks and all they hold are dropped, the grant is withdrawn or returned, a
hardware cause redelivers the trigger, and the firing ends. -/
def State.kill (s : State) (h : Nat) (hw : Bool) : State :=
  match (s.ctx h).firing with
  | none => s
  | some f =>
    let s := s.discarded h
    let t := s.thallus
    let s := { s with thallus := { t with
      requests := t.requests.filter (fun r => r.h != h)
      pending := t.pending.filter (fun p => p.2 != h)
      resvs := t.resvs.filter (fun r => r.h != h) } }
    let s := s.endFiring h false 0 0
    let s := if hw then s.redeliver h f else s
    s.poke (.selection (h / 4))

/-- A kill by a trap (R431): one fault is counted and the log records the pc and the cause. -/
def State.killByTrap (s : State) (h cause : Nat) : State :=
  match (s.ctx h).firing with
  | none => s
  | some f => ((s.countFault f).elog 4 f.slot (h / 4) (s.ctx h).pc (word cause)).kill h false

/-- A kill for a hardware cause that counts a fault (R434, R452). -/
def State.killByHardware (s : State) (h kind : Nat) : State :=
  match (s.ctx h).firing with
  | none => s
  | some f =>
    let s := if f.owner.isSome then s else s.countFault f
    (s.elog kind f.slot (h / 4) (s.ctx h).pc (if kind = 3 then 0 else word f.redel)).kill h true

end Sys2Proof.Machine
end

