-- ==== Sys2Proof/Machine/Ops.lean ====
section
/-! DEFINITION. The shared operations over registers, memory and chunks: translation (R119 to R130), loads and stores
through the write buffers (R133 to R143), chunk bounds, taking a trap and returning from one (R423 to R430, R255),
retiring an instruction. -/

namespace Sys2Proof.Machine

/-! ### Registers of the context whose turn it is -/

/-- xreg(r) (R15, R16). -/
def State.x (s : State) (r : Reg) : Word := s.hart.regs.getX r.toNat
/-- Replace the register files of the current context. -/
def State.setRegs (s : State) (g : Regs) : State := s.setHart { s.hart with regs := g }
/-- Write xreg(r). -/
def State.setX (s : State) (r : Reg) (v : Word) : State := s.setRegs (s.hart.regs.setX r.toNat v)
/-- vreg(r). -/
def State.v (s : State) (r : Reg) : VReg := s.hart.regs.getV r.toNat
/-- Write vreg(r). -/
def State.setV (s : State) (r : Reg) (v : VReg) : State := s.setRegs (s.hart.regs.setV r.toNat v)
/-- preg(r). -/
def State.p (s : State) (r : Reg3) : PReg := s.hart.regs.getP r.toNat
/-- Write preg(r). -/
def State.setP (s : State) (r : Reg3) (v : PReg) : State := s.setRegs (s.hart.regs.setP r.toNat v)
/-- acc(r). -/
def State.acc (s : State) (r : Reg3) : AReg := s.hart.regs.getA r.toNat
/-- Write acc(r). -/
def State.setAcc (s : State) (r : Reg3) (v : AReg) : State := s.setRegs (s.hart.regs.setA r.toNat v)

/-! ### Turns (R489) -/

/-- The contexts of core `L`, modulo 4, that have been offered a turn in this nanosecond. -/
def State.triedOn (s : State) (L : Nat) : List Nat := if (s.core L).tried.1 = s.gtime then (s.core L).tried.2 else []

/-- A turn in which an instruction has issued is over: its core has no other in this nanosecond (R489; log 9). -/
def State.endTurn (s : State) : State :=
  if s.idle || !s.spent then s
  else { s.setCore s.lcore { s.core s.lcore with turn := s.cur % 4, tried := (s.gtime, [0, 1, 2, 3]) } with idle := true }

/-- Context `h` is offered the turn of its core. -/
def State.offer (s : State) (h : Nat) : State :=
  { s.setCore (h / 4) { s.core (h / 4) with tried := (s.gtime, h % 4 :: s.triedOn (h / 4)) } with cur := h, spent := false, idle := false }

/-! ### Chunks (R133 to R135) -/

/-- The checkpoint of a context as it stands (R133). -/
def Ctx.snapshot (c : Ctx) : Ckpt := { regs := c.regs, shadow := c.shadow, pc := c.pc, pend := c.pend }

/-- A chunk that begins as the context stands: its horizon is at least what the context has come to know (R141, R149). -/
def Ctx.fresh (c : Ctx) : Chunk := { ck := c.snapshot, hor := c.floor }

/-- The executing chunk becomes the one that awaits its commit, and a new chunk begins, which takes over how often it has been squashed
(R143). -/
def Ctx.shift (c : Ctx) : Ctx :=
  { c with older := some c.young, young := { c.fresh with sq := c.young.next.1, sqLines := c.young.next.2 } }

/-- Whether a chunk holds a HALT. -/
def Chunk.halts (k : Chunk) : Bool := k.held.any (fun i => match i with | .halt _ _ => true | _ => false)

/-- The slice that a request goes home to: the lowest-numbered that owns a line of its write set (R139). Slice `k` is at row 0 of
column `k`. -/
def homeSlice (lines : List Nat) : Nat :=
  match slicesOf lines with
  | [] => 0
  | n :: ns => ns.foldl min n

/-- Put a request in its place: by its arrival at its home slice, ties to the lower core and context (R139). -/
def insertReq (r : GrantReq) : List GrantReq → List GrantReq
  | [] => [r]
  | q :: qs => if r.at' < q.at' || (r.at' = q.at' && r.h < q.h) then r :: q :: qs else q :: insertReq r qs

/-- The chunk that awaits commit asks for it: a grant request to the owning slices when its write set holds a line of
device memory or of a sorus scratchpad (R139), which arrives after its way (R142), else a local commit (R141). Neither has an effect
before 3 ns have passed (R52). -/
def State.requestCommit (s : State) (h : Nat) : State :=
  match (s.ctx h).older with
  | none => s
  | some o =>
    let s := s.setCtx h { s.ctx h with older := some { o with since := s.gtime } }
    if o.wset.any thallusLine then
      let t := s.thallus
      let d := s.hopTime (h / 64) (homeSlice o.wset)
      ({ s with thallus := { t with requests := insertReq { at' := s.gtime + d, h := h, lines := o.wset } t.requests } }).after
        (d + pathTime) .grant
    else s.after pathTime (.localCommit h)

/-- A trap that an ordered task meets at `c` waits, with nothing more issued, until the task could commit (R114, R427): a squash until then
cancels it. The trapping instruction is no bound of the body's chunk, which goes with the kill (R431, R432; log 102). -/
def State.taskTrap (s : State) (h c : Nat) (v : Word) : State :=
  if (s.ctx h).clean then s.killByTrap h c
  else (s.setCtx h { s.ctx h with sync := true, trapReq := some { int := false, cause := c, val := v } }).poke (.localCommit h)

/-- A chunk bound falls here (R134). With an older chunk still uncommitted the context issues nothing until it commits
(R133). An ordered task that meets a bound other than its HALT takes OTBOUND, which kills it once the chunk before it has committed
(R114, R427, R431). -/
def State.endChunk (s : State) (h : Nat) : State :=
  let c := s.ctx h
  if (c.firing.any (fun f => f.order.isSome)) && !c.young.halts then s.taskTrap h 29 0
  else if c.older.isNone then (s.setCtx h c.shift).requestCommit h
  else s.setCtx h { c with young := { c.young with ended := true } }

/-- Hold an item until the commit of the current chunk (R135). -/
def State.hold (s : State) (i : Held) : State :=
  let c := s.hart
  s.setHart { c with young := { c.young with held := c.young.held ++ [i] } }

/-- Register `r` awaits the answer `id` (R333, R359); x0 awaits nothing. -/
def State.await (s : State) (r id : Nat) : State :=
  let c := s.hart
  if r = 0 then s else s.setHart { c with pend := { reg := r, id := id } :: c.pend.filter (fun p => p.reg != r) }

/-- The instruction retires and the next one stands at `npc`; no bound falls yet. While Draining at the firing's own level
it counts toward the 512 of R109 and R430. -/
def State.advance (s : State) (npc : Word) : State :=
  let c := s.hart
  let s := s.setHart { c with pc := npc, young := { c.young with n := c.young.n + 1 } }
  let s := if c.st = .draining && c.firing.any (fun f => f.level = c.priv) then
      s.setAux s.cur { s.aux s.cur with drainFrom := (s.aux s.cur).drainFrom + 1 } else s
  (s.capEvent s.cur 1 1).spend

/-- The bounds that fall after an instruction whatever it is: the 2,048th instruction, a full write buffer, a full read
set (R134). -/
def Chunk.full (k : Chunk) : Bool := k.n = 2048 || k.lines.length = 128 || k.rset.length = 512

/-- The instruction retires with the next one at `npc` (R134). -/
def State.retire (s : State) (npc : Word) : State :=
  let t := s.advance npc
  if t.hart.young.full then t.endChunk t.cur else t

/-- Retire with the next instruction in sequence (R216). -/
def State.step4 (s : State) : State := s.retire (s.hart.pc + 4)

/-- Retire an instruction after which a chunk bound falls (R134). -/
def State.stepEnd (s : State) : State :=
  let t := s.advance (s.hart.pc + 4)
  t.endChunk t.cur

/-- Retire an instruction after which a chunk bound falls and whose effects the next instruction must find: nothing
issues until the chunk has committed (R251, R248; log 14). -/
def State.stepSync (s : State) : State :=
  let t := s.advance (s.hart.pc + 4)
  (t.setHart { t.hart with sync := true }).endChunk t.cur

/-! ### Taking a trap and returning (R426, R427, R255) -/

/-- The causes that count a fault (R423). -/
def counted (c : Nat) : Bool :=
  c = 0 || c = 1 || c = 2 || (4 ≤ c && c ≤ 7) || c = 12 || c = 13 || c = 15 || (24 ≤ c && c ≤ 29)

/-- Level as the two bits of MPP (R426). -/
def privCode : Priv → Nat | .u => 0 | .s => 1 | .m => 3
/-- Level of the two bits of MPP. -/
def privOf (n : Nat) : Priv := if n = 0 then .u else if n = 1 then .s else .m

/-- A word with bits `lo` and up, `n` of them, replaced. -/
def setBits (w : Word) (lo n v : Nat) : Word :=
  word (w.toNat - (w.toNat / 2 ^ lo % 2 ^ n) * 2 ^ lo + (v % 2 ^ n) * 2 ^ lo)

/-- One flag as a number. -/
def flag (b : Bool) : Nat := if b then 1 else 0

/-- mstatus after a trap to S or M (R427). -/
def trapStatus (st : Word) (toM : Bool) (p : Priv) : Word :=
  if toM then setBits (setBits (setBits st 11 2 (privCode p)) 7 1 (bits st 3 3)) 3 1 0
  else setBits (setBits (setBits st 8 1 (flag (p = .s))) 5 1 (bits st 1 1)) 1 1 0

/-- mstatus after ERET.S or ERET.M (R255). -/
def eretStatus (st : Word) (fromM : Bool) : Word :=
  if fromM then setBits (setBits (setBits st 3 1 (bits st 7 7)) 7 1 1) 11 2 0
  else setBits (setBits (setBits st 1 1 (bits st 5 5)) 5 1 1) 8 1 0

/-- The cause word: the interrupt bit and the code (R426). -/
def causeWord (int : Bool) (c : Nat) : Word := word (flag int * 2 ^ 63 + c)

/-- Whether a trap goes to M: below M with its delegation bit set it goes to S (R427). -/
def State.trapToM (s : State) (h : Nat) (int : Bool) (c : Nat) : Bool :=
  let k := s.core (h / 4)
  let deleg := if int then bit k.mideleg c else bit k.medeleg c
  !((s.ctx h).priv != .m && deleg)

/-- Entry into the handler of a level: the saved registers, the status, the level and the pc (R427). -/
def State.trapEnter (s : State) (h : Nat) (int : Bool) (c : Nat) (v : Word) (toM : Bool) : State :=
  let k := s.ctx h
  let y := k.sys
  let vec := if toM then (s.core (h / 4)).mtvec else (s.core (h / 4)).stvec
  let y := if toM then
      { y with status := trapStatus y.status true k.priv, mepc := k.pc, mcause := causeWord int c, mtval := v }
    else { y with status := trapStatus y.status false k.priv, sepc := k.pc, scause := causeWord int c, stval := v }
  let k := { k with sys := y, priv := if toM then .m else .s, pc := setBits vec 0 2 0, trapReq := none }
  s.setCtx h { k with young := k.fresh }

/-- A trap or interrupt is taken with nothing uncommitted before it (R427). DRAINOVR voids the pre-emption requests of the
firing (R109). -/
def State.takeTrap (s : State) (h : Nat) (int : Bool) (c : Nat) (v : Word) : State :=
  match (s.ctx h).firing with
  | none => s
  | some f =>
    if f.rtc || f.order.isSome then s.killByTrap h c
    else
      let toM := s.trapToM h int c
      let vec := if toM then (s.core (h / 4)).mtvec else (s.core (h / 4)).stvec
      if bits vec 1 0 = 0 then s.killByTrap h c
      else
        let s := if !int && counted c then s.countFault f else s
        let s := if !int && c = 28 then (s.setCtx h { s.ctx h with st := .running }).preqsDone h 2 else s
        s.trapEnter h int c v toM

/-- Return from a trap (R255): the pc, the level and the status. -/
def State.trapReturn (s : State) (h : Nat) (fromM : Bool) : State :=
  let k := s.ctx h
  let y := k.sys
  let pc := if fromM then setBits y.mepc 0 2 0 else setBits y.sepc 0 2 0
  let p := if fromM then privOf (bits y.status 12 11) else if bit y.status 8 then .s else .u
  let k := { k with pc := pc, priv := p, sys := { y with status := eretStatus y.status fromM } }
  s.setCtx h { k with young := { k.young with ck := { k.young.ck with pc := pc } } }

/-- A trap is met at the pc of the current context. The chunk before it ends, and the trap is taken once that chunk has
committed (R427): at once when nothing is uncommitted. A run-to-completion firing or an ordered task is killed. -/
def State.raiseAt (s : State) (c : Nat) (v : Word) : State :=
  let k := s.hart
  let s := s.spend
  if k.clean then s.takeTrap s.cur false c v
  else if k.firing.any (fun f => f.order.isSome) then s.taskTrap s.cur c v
  else (s.setHart { k with trapReq := some { int := false, cause := c, val := v } }).endChunk s.cur

/-- The current instruction has issued and raises an exception (R419, R427). -/
def State.raise (s : State) (c : Nat) (v : Word) : State := (s.capEvent s.cur 1 1).raiseAt c v

/-- The bound falls before the current instruction, which issues again in the next chunk (R134). -/
def State.boundBefore (s : State) : State := s.giveUp.endChunk s.cur

/-! ### Why an instruction does not complete -/

/-- A trap, a bound before the instruction, or a stall (with what the attempt set going). -/
inductive Stop
  | trap (cause : Nat) (val : Word)
  | before
  | stall (s : State)

/-- The next state of an instruction that completes, traps, is bounded before, or stalls. -/
def finish (s : State) (r : Except Stop State) : Host.Outcome State Fault Refusal :=
  match r with
  | .ok t => .next t
  | .error (.trap c v) => .next (s.raise c v)
  | .error .before => .next s.boundBefore
  | .error (.stall t) => .next t.giveUp

/-- A check that stops with a trap where it fails. -/
def check (b : Bool) (c : Nat) (v : Word) : Except Stop Unit := if b then .ok () else .error (.trap c v)

/-- The trap value of ILLISSUE: the reason and the word (R423, R425). -/
def illVal (reason : Nat) (w : BitVec 32) : Word := word (reason * 2 ^ 32 + w.toNat)

/-! ### Translation (R119 to R130) -/

/-- What an access does. -/
inductive Acc | load | store | atomic | fetch
  deriving DecidableEq, Repr

/-- Access-fault cause (R423). -/
def Acc.fault : Acc → Nat | .load => 5 | .store => 7 | .atomic => 7 | .fetch => 1
/-- Page-fault cause. -/
def Acc.page : Acc → Nat | .load => 13 | .store => 15 | .atomic => 15 | .fetch => 12
/-- Misaligned cause. -/
def Acc.misaligned : Acc → Nat | .load => 4 | .store => 6 | .atomic => 6 | .fetch => 0

/-- Where an access goes: its memory key, and whether it enters the shared sets (R136). -/
structure Place where
  key : Nat
  shared : Bool
  deriving DecidableEq, Repr

/-- A leaf found by a walk: the entry and the bits of its page. -/
structure Leaf where
  pte : Word
  size : Nat
  deriving DecidableEq, Repr

/-- ADDR of an entry as a physical address. -/
def pteAddr (e : Word) : Nat := bits e 51 12 * 4096
/-- Whether a leaf is a window leaf (R402). -/
def pteWindow (e : Word) : Bool := bit e 51

/-- Whether a leaf lies in the allotment of slot `t` (R129, R395, R487). -/
def State.leafOk (s : State) (t : Nat) (e : Word) (size : Nat) : Bool :=
  let a := pteAddr e
  let q := s.slot t
  a % 2 ^ size = 0 &&
  (if pteWindow e then
    !bit e 63 && bits e 50 43 = 0 && bits (tget 0 s.fabric.impw1 (bits e 42 32)) 51 48 = t
  else if bit e 63 then
    bits q.thost 21 0 * 2 ^ 30 ≤ a && a + 2 ^ size ≤ (bits q.thost 21 0 + bits q.thost 55 34) * 2 ^ 30
  else
    a + 2 ^ size ≤ s.capacity &&
    bits q.tallot 11 0 * 2 ^ 30 ≤ a && a + 2 ^ size ≤ (bits q.tallot 11 0 + bits q.tallot 44 32) * 2 ^ 30)

/-- Whether an entry is valid with its reserved bits zero (R129). -/
def pteOk (e : Word) : Bool :=
  bit e 0 && bits e 62 52 = 0 && bits e 11 8 = 0 && !bit e 6 && !bit e 1

/-- The levels of the tree below the root: index shift, index bits, bits of a leaf's page, whether an entry may be a leaf,
whether it may be a table (R128). -/
def walkLevels : List (Nat × Nat × Nat × Bool × Bool) :=
  [(39, 9, 39, false, true), (30, 9, 30, true, true), (21, 9, 21, true, true), (16, 5, 16, true, false)]

/-- Walk the table at `tbl` (R128, R129); none where it meets a faulty entry. -/
def State.walk (s : State) (t : Nat) (va : Nat) : List (Nat × Nat × Nat × Bool × Bool) → Nat → Option Leaf
  | [], _ => none
  | (sh, n, size, leaf, table) :: ls, tbl =>
    if s.capacity < tbl + 4096 then none
    else
      let e := word (s.readNat (devKey (tbl + (va / 2 ^ sh % 2 ^ n) * 8)) 8)
      if !pteOk e then none
      else if bit e 2 then (if leaf && s.leafOk t e size then some { pte := e, size := size } else none)
      else if table then s.walk t va ls (pteAddr e)
      else none

/-- The leaf of a virtual address in partition `p`: one that the sorus's buffer holds, else a walk (R128, R130; log 12). -/
def State.leafOf (s : State) (n p : Nat) (va : Word) : Option Leaf :=
  match tget? (s.sx n).tlb (p * 2 ^ 32 + bits va 47 16) with
  | some (size, pte) => some { pte := pte, size := size }
  | none => s.walk (s.slotOf p) va.toNat walkLevels (bits (s.part p).ptroot 51 12 * 4096)

/-- Whether a leaf grants an access (R129, R444). -/
def leafGrants (e : Word) : Acc → Bool
  | .load => bit e 3
  | .store => bit e 4
  | .atomic => bit e 3 && bit e 4
  | .fetch => bit e 5

/-- The place of an address within a leaf's page. -/
def leafPlace (l : Leaf) (va : Word) : Place :=
  let pa := pteAddr l.pte + va.toNat % 2 ^ l.size
  if bit l.pte 63 then { key := hostKey pa, shared := false } else { key := devKey pa, shared := bit l.pte 7 }

/-- Region 0x00 to 0xFD: translated (R119). A load or store that reaches a window leaf faults whatever the leaf
grants; a fetch of one that lacks X takes FETCH_PAGE (R444). -/
def State.resolvePage (s : State) (n p : Nat) (acc : Acc) (va : Word) : Except Nat Place :=
  match s.leafOf n p va with
  | none => .error acc.page
  | some l =>
    if pteWindow l.pte && acc != .fetch then .error acc.fault
    else if !leafGrants l.pte acc then .error acc.page
    else if pteWindow l.pte then .error acc.fault
    else .ok (leafPlace l va)

/-- Whether the firing of context `h` may use bank `b` of its core (R93): a channel-0 firing the banks it has claimed,
another firing the banks no firing owns or retains. -/
def State.bankOk (s : State) (h b : Nat) : Bool :=
  match (s.ctx h).firing with
  | none => false
  | some f =>
    let k := s.bank (h / 4) b
    if f.chan = 0 then k.own = some f.fid else k.own.isNone && k.retain.isNone

/-- Whether every byte of an own-scratchpad range lies in banks the firing may use. -/
def State.rangeOk (s : State) (h off n : Nat) : Bool :=
  off + n ≤ 0x50000 && (n = 0 || (List.range 10).all (fun b =>
    b < off / 0x8000 || (off + n - 1) / 0x8000 < b || s.bankOk h b))

/-- Rights of a core over a bank of another core (R340): the target present and in the partition, a firing of it owning or
retaining the bank, the bank open, and the peer allowed. A name of the issuing core carries the rights of space 1. -/
def State.peerOk (s : State) (h T b : Nat) : Bool :=
  let L := h / 4
  if T = L then s.bankOk h b
  else
    let k := s.bank T b
    let w := (s.core T).cpyperm
    s.present T && s.partOf T = s.partOf L && (s.partOf L).isSome && (k.own.isSome || k.retain.isSome) &&
    bit w (48 + b) && (bit w 16 || (T / 16 = L / 16 && bit w (L % 16)))

/-- The banks of a mask, highest first. -/
def banksDown (mask : Nat) : List Nat := ((List.range 10).reverse).filter (fun b => mask.testBit b)

/-- The spill carve-out size of a firing (R122). -/
def carveOut (f : Firing) : Nat := min (f.spill * 4096) (0x8000 * (banksDown f.banks).length)

/-- The offset of the own scratchpad behind a byte of the carve-out, counted from the top of the window (R122). -/
def carveOffset (f : Firing) (i : Nat) : Nat := (banksDown f.banks).getD (i / 0x8000) 0 * 0x8000 + (0x7FFF - i % 0x8000)

/-- Own core scratchpad (R120, R121). -/
def State.resolveOwn (s : State) (h : Nat) (acc : Acc) (off : Nat) : Except Nat Place :=
  if off < 0x50000 && s.bankOk h (off / 0x8000) then .ok { key := spadKey (h / 4) off, shared := true }
  else .error acc.fault

/-- The local windows of region 0xFF (R120, R122, R124). -/
def State.resolveLocal (s : State) (h : Nat) (acc : Acc) (va : Word) : Except Nat Place :=
  let off := bits va 31 0
  if bits va 39 32 = 0 then s.resolveOwn h acc off
  else if bits va 39 32 = 1 then
    if off < 0x1F0000 then .ok { key := sorusKey (h / 64) off, shared := true } else .error acc.fault
  else if bits va 39 32 = 2 then
    match (s.ctx h).firing with
    | none => .error acc.fault
    | some f =>
      if 0x100000 ≤ off then .error acc.fault
      else if 0xFFFFF - off < carveOut f then s.resolveOwn h acc (carveOffset f (0xFFFFF - off))
      else
        let va' := word (bits (s.part f.part).spocfg 63 20 * 2 ^ 20 + h * 2 ^ 20 + off)
        if bits va' 63 48 != 0 || 0xFE ≤ bits va' 47 40 then .error acc.fault
        else s.resolvePage (h / 64) f.part acc va'
  else .error acc.fault

/-- The place of a load, store or fetch of context `h` (R119). -/
def State.resolve (s : State) (h : Nat) (acc : Acc) (va : Word) : Except Nat Place :=
  if bits va 63 48 != 0 then .error acc.fault
  else if bits va 47 40 = 0xFF then (if acc = .fetch then .error acc.fault else s.resolveLocal h acc va)
  else if bits va 47 40 = 0xFE then
    let T := bits va 39 20
    let off := bits va 19 0
    if acc != .fetch && bit (s.core (h / 4)).compat 0 && T < 2560 && off < 0x50000 && s.peerOk h T (off / 0x8000) then
      .ok { key := spadKey T off, shared := true }
    else .error acc.fault
  else
    match (s.ctx h).firing with
    | none => .error acc.fault
    | some f => s.resolvePage (h / 64) f.part acc va

/-! ### Loads and stores (R135 to R146, R242) -/

/-- The first cause of R424 over the elements of one access, with the address of the lowest element that meets it. -/
def firstCause (rs : List (Word × Except Nat Place)) (acc : Acc) (w : Nat) : Option (Nat × Word) :=
  match rs.find? (fun r => r.1.toNat % w != 0) with
  | some r => some (acc.misaligned, r.1)
  | none =>
    let hit (c : Nat) := rs.find? (fun r => match r.2 with | .error d => d == c | .ok _ => false)
    match hit acc.fault with
    | some r => some (acc.fault, r.1)
    | none => (hit acc.page).map (fun r => (acc.page, r.1))

/-- The places of accesses of `w` aligned bytes at addresses, or the trap they meet. -/
def State.places (s : State) (acc : Acc) (w : Nat) (vas : List Word) : Except Stop (List Place) :=
  let rs := vas.map (fun a => (a, s.resolve s.cur acc a))
  match firstCause rs acc w with
  | some (c, v) => .error (.trap c v)
  | none => .ok (rs.filterMap (fun r => match r.2 with | .ok p => some p | .error _ => none))

/-- The free banks among places that must still be powered up (R93), by core and bank. -/
def State.asleep (s : State) (ps : List Place) : List (Nat × Nat) :=
  ps.filterMap (fun p =>
    if isSpad p.key then
      let o := p.key - 2 ^ 61
      let L := o / 2 ^ 20
      let b := o % 2 ^ 20 / 0x8000
      if (s.bank L b).powered then none else some (L, b)
    else none)

/-- An access of a bank that is powered down powers it up, and stalls until it is awake (R93). -/
def State.wakeBanks (s : State) (bs : List (Nat × Nat)) : State :=
  bs.foldl (fun s p =>
    let k := s.bank p.1 p.2
    if k.powered || k.waking then s
    else (s.setBank p.1 p.2 { k with waking := true }).poke (.bankWakeComplete p.1 p.2)) s

/-- The banks behind a range of keys, by core and bank. -/
def keyBanks (r : Nat × Nat) : List (Nat × Nat) :=
  if r.2 = 0 then []
  else ((r.1 + r.2 - 1) :: (List.range (r.2 / 0x8000 + 1)).map (fun i => min (r.1 + r.2 - 1) (r.1 + 0x8000 * i))).filterMap (fun k =>
    if isSpad k then some ((k - 2 ^ 61) / 2 ^ 20, (k - 2 ^ 61) % 2 ^ 20 / 0x8000) else none)

/-- An access of an engine to a bank that is powered down powers it up (R93); it wakes with every byte zero, as it was left. The cycles
for which the access stalls are not counted (log 9). -/
def State.powerBanks (s : State) (rs : List (Nat × Nat)) : State :=
  (rs.flatMap keyBanks).foldl (fun s p =>
    let k := s.bank p.1 p.2
    if k.powered then s else s.setBank p.1 p.2 { k with powered := true, waking := false }) s

/-- Whether a byte stands in a write buffer of a context. -/
def Ctx.buffered (c : Ctx) (k : Nat) : Bool :=
  thas c.young.wbuf k || (match c.older with | some o => thas o.wbuf k | none => false)

/-- The byte a load of a context sees: its chunk's youngest store, then its older chunk's, then memory (R135). Memory is the newest
committed version, one of those that R141 allows (DESIGN CHOICE, unsafe: R299 allows x = 0 after an exchange, here only x = 1 comes
about; log 109). -/
def State.seen (s : State) (c : Ctx) (k : Nat) : Byte :=
  match tget? c.young.wbuf k with
  | some b => b
  | none =>
    match c.older.bind (fun o => tget? o.wbuf k) with
    | some b => b
    | none => s.byte k

/-- `n` bytes from a key as a load sees them, as a number. -/
def State.seenNat (s : State) (c : Ctx) (k : Nat) : Nat → Nat
  | 0 => 0
  | n + 1 => (s.seen c k).toNat + 256 * s.seenNat c (k + 1) n

/-- Whether a load of `n` bytes must wait: its line is pending in its slice and its bytes are not all buffered (R141). -/
def State.lineBusy (s : State) (c : Ctx) (k n : Nat) : Bool :=
  match lineOf k with
  | none => false
  | some a => s.thallus.pending.any (fun p => p.1 == a) && !((List.range n).all (fun i => c.buffered (k + i)))

/-- The lines that accesses add to a shared set. -/
def addLines (set : List Nat) (ps : List Place) : List Nat :=
  ps.foldl (fun l p => if p.shared then (match lineOf p.key with | some a => insertNew l a | none => l) else l) set

/-- The largest version that loads of places return (R141). -/
def State.version (s : State) (ps : List Place) : Nat :=
  ps.foldl (fun m p => match lineOf p.key with
    | some a => if thallusLine a then max m (tget 0 s.thallus.vers a) else m
    | none => m) 0

/-- The tokens that a slot can give its head request of `c` tokens now (R405): its bucket, spare pool and debt after it
leaves, or none where it waits. A slot with requests already waiting lets none pass. -/
def chargeTokens (q : Slot) (spare c : Nat) : Option (Slot × Nat) :=
  if bits q.tbkt 23 4 < q.bdebt then none
  else if c ≤ q.tokens then some ({ q with tokens := q.tokens - c }, spare)
  else if bit q.tbkt 0 && c ≤ q.tokens + spare then
    some ({ q with bdebt := min (2 ^ 24 - 1) (q.bdebt + (c - q.tokens)), tokens := 0 }, spare - (c - q.tokens))
  else none

/-- What names the request that a unit makes at a happening of its own (R405): none where it makes none now. -/
def State.turnMark (s : State) : Event → Option Word
  | .loadDataReturn h => if (s.ctx h).st = .running || (s.ctx h).st = .draining then some (s.ctx h).pc else none
  | .drainComplete h => (s.ctx h).older.bind (fun o => o.csn.map word)
  | .localCommit h => (s.ctx h).older.bind (fun o => if o.csn.isNone then some (word o.since) else none)
  | .streamFetchReturn h q => (tget? (s.aux h).fetch q).bind (fun f => if f.flying = 0 then none else some (word f.bind))
  | .streamWriteTransferDone h q =>
    (tget? (s.aux h).drain q).bind (fun d => if d.stop.isSome then none else d.queue.head?.bind (fun t => t.head?.map (·.va)))
  | .copySectorWritten L =>
    ((s.core L).copyq.head?.bind (tget? s.flight.copies)).bind (fun c => if c.parked then none else some (word (c.id * 2 ^ 32 + c.done)))
  | _ => none

/-- Whether a request that waits is still to be made. -/
def State.turnLive (s : State) : OutAct → Bool
  | .datagram _ _ _ _ _ => true
  | .turn who m => s.turnMark who = some m

/-- A slot without the requests at the front of its queue that are no longer to be made: a chunk squashed, an engine operation ended. -/
def State.trimmed (s : State) (t : Nat) : Slot :=
  let q := s.slot t
  let r := q.queue.dropWhile (fun p => !s.turnLive p.2)
  { q with queue := r, stall := q.stall && !r.isEmpty, granted := q.granted.filter (fun p => s.turnMark p.1 = some p.2) }

/-- A request of `c` tokens of slot `t` takes its tokens, or none where they do not suffice (R404, R405). -/
def State.pay (s : State) (t c : Nat) : Option State :=
  match chargeTokens (s.slot t) s.fabric.spare c with
  | some (q, sp) => some { (s.setSlot t { q with stall := false }) with fabric := { s.fabric with spare := sp } }
  | none => none

/-- Traffic that a slot owes is charged as debt and never held (R404). -/
def State.owe (s : State) (t cost : Nat) : State :=
  s.setSlot t { s.slot t with bdebt := min (2 ^ 24 - 1) ((s.slot t).bdebt + cost) }

/-- The host request of `c` tokens that a unit makes at a happening of its own leaves now, or has left before, or none where it must wait
(R404, R405). What the host port brings back for it, the data of a load or the completion of a write, is charged as debt of as many
tokens (R404; log 13). -/
def State.charge (s : State) (t c : Nat) (who : Event) : Option State :=
  let q := s.trimmed t
  let mine : Event × Word := (who, (s.turnMark who).getD 0)
  (if q.granted.contains mine then some (s.setSlot t { q with granted := q.granted.filter (fun p => p != mine) })
    else if q.queue.isEmpty then (s.setSlot t q).pay t c
    else none).map (fun s => s.owe t c)

/-- The slot's head request waits: STALL reads 1, and after 10 ms it is logged (R404, R476). -/
def State.stallSlot (s : State) (t : Nat) : State :=
  let q := s.slot t
  if q.stall then s
  else (s.setSlot t { q with stall := true, stallAt := s.gtime }).after 10000000 (.debtstallTimer t s.gtime)

/-- A unit's request waits behind the earlier requests of its slot; the unit goes on at `who` once it has left (R405). -/
def State.waitTurn (s : State) (t c : Nat) (who : Event) : State :=
  let q := s.trimmed t
  let a : OutAct := .turn who ((s.turnMark who).getD 0)
  let moved := q.queue.length < (s.slot t).queue.length
  let s := s.setSlot t (if q.queue.any (fun p => p.2 = a) then q else { q with queue := q.queue ++ [(c, a)] })
  (if moved then s.poke (.headRequestRelease t) else s).stallSlot t

/-- The slot of the current firing. -/
def State.mySlot (s : State) : Nat := (s.hart.firing.map (·.slot)).getD 0

/-- Host accesses among places are requests of the slot: one token for each 64 bytes (R404; log 13). -/
def State.chargeHost (s : State) (ps : List Place) (w : Nat) : Except Stop State :=
  let n := (ps.filter (fun p => isHost p.key)).length
  if n = 0 then .ok s
  else match s.charge s.mySlot ((n * w + 63) / 64) (.loadDataReturn s.cur) with
    | some t => .ok t
    | none => .error (.stall (s.waitTurn s.mySlot ((n * w + 63) / 64) (.loadDataReturn s.cur)))

/-- Load elements of `w` bytes at addresses: their numbers and the state with the read set and the horizon raised. A load from another
sorus that takes no traffic now waits (R412, R49). -/
def State.loads (s : State) (w : Nat) (vas : List Word) : Except Stop (List Nat × State) := do
  let ps ← s.places .load w vas
  let zz := s.asleep ps
  if !zz.isEmpty then .error (.stall (s.wakeBanks zz))
  else if ps.any (fun p => s.lineBusy s.hart p.key w || s.keyStill (s.cur / 64) p.key) then .error (.stall s)
  else
    let rset := addLines s.hart.young.rset ps
    if 512 < rset.length then .error .before
    else do
      let s ← s.chargeHost ps w
      let c := s.hart
      let hor := max c.young.hor (s.version ps)
      let t := s.setHart { c with young := { c.young with rset := rset, hor := hor } }
      .ok (ps.map (fun p => s.seenNat c p.key w), t)

/-- Load one element. -/
def State.load1 (s : State) (w : Nat) (va : Word) : Except Stop (Nat × State) := do
  let (vs, t) ← s.loads w [va]
  .ok (vs.headD 0, t)

/-- The cells of elements to be stored: the bytes of each at its place. -/
def storeCells (w : Nat) : List Place → List Nat → List Host.Cell
  | p :: ps, v :: vs => ((List.range w).map (fun i => (p.key + i, BitVec.ofNat 8 (v / 256 ^ i)))) ++ storeCells w ps vs
  | _, _ => []

/-- Store elements of `w` bytes at addresses into the write buffer (R135, R242). -/
def State.stores (s : State) (w : Nat) (vas : List Word) (vs : List Nat) : Except Stop State := do
  let ps ← s.places .store w vas
  let zz := s.asleep ps
  if !zz.isEmpty then .error (.stall (s.wakeBanks zz))
  else
    let c := s.hart
    let lines := ps.foldl (fun l p => insertNew l (p.key / 64)) c.young.lines
    if 128 < lines.length then .error .before
    else
      let wset := addLines c.young.wset ps
      .ok (s.setHart { c with young := { c.young with
        wbuf := (storeCells w ps vs).reverse ++ c.young.wbuf, lines := lines, wset := wset } })

/-- A descriptor of `n` 8-byte words, aligned to `al` bytes, read with ordinary loads (R424). -/
def State.descriptor (s : State) (al n : Nat) (va : Word) : Except Stop (List Word × State) := do
  check (va.toNat % al = 0) 4 va
  let (vs, t) ← s.loads 8 ((List.range n).map (fun i => va + word (8 * i)))
  .ok (vs.map word, t)

/-- Whether a level may do what needs `p` (R232, R250). -/
def State.atLeast (s : State) (p : Priv) : Bool := privLe p s.hart.priv

/-- The word of an instruction, for the trap values that carry it. -/
def instrWord (w : Option (BitVec 32)) : BitVec 32 := w.getD 0

/-- The firing of the current context is run-to-completion. -/
def State.isRtc (s : State) : Bool := s.hart.firing.any (·.rtc)

end Sys2Proof.Machine
end

