-- ==== Sys2Proof/Machine/Operands.lean ====
section
/-! DEFINITION. Operand forms: immediates (R217), elements of vector registers and of groups (R269, R270), guards
(R197, R270), and the shape of the meanings that only write a register. -/

namespace Sys2Proof.Machine

/-- The outcome of an instruction. -/
abbrev Out := Host.Outcome State Fault Refusal

/-! ### Immediates (R217, R239) -/

/-- A 12-bit immediate, sign-extended. -/
def sext12 (i : BitVec 12) : Word := i.signExtend 64
/-- A branch offset from imm[12:1]. -/
def branchOff (i : BitVec 12) : Word := (i ++ (0 : BitVec 1)).signExtend 64
/-- A jump offset from imm[20:1]. -/
def jumpOff (i : BitVec 20) : Word := (i ++ (0 : BitVec 1)).signExtend 64
/-- The value of an upper immediate. -/
def upperImm (i : BitVec 20) : Word := (i ++ (0 : BitVec 12)).signExtend 64

/-- sext(x, 64) of the low `n` bits of a number (R15). -/
def sextNat (n x : Nat) : Word := if x % 2 ^ n < 2 ^ (n - 1) then word (x % 2 ^ n) else word (2 ^ 64 - 2 ^ n + x % 2 ^ n)

/-- The low `n` bits of a number read as two's complement (R14). -/
def toSigned (n x : Nat) : Int := if x % 2 ^ n < 2 ^ (n - 1) then (x % 2 ^ n : Nat) else (x % 2 ^ n : Nat) - (2 ^ n : Nat)

/-- An integer modulo 2 to the `n`. -/
def fromInt (n : Nat) (x : Int) : Nat := (x % (2 ^ n : Nat)).toNat

/-! ### Meanings that write one register -/

/-- Write xreg(d) and go on. -/
def State.putX (s : State) (d : Reg) (v : Word) : Out := .next ((s.setX d v).step4)
/-- Write vreg(d) and go on. -/
def State.putV (s : State) (d : Reg) (v : VReg) : Out := .next ((s.setV d v).step4)
/-- Write preg(d) and go on. -/
def State.putP (s : State) (d : Reg3) (v : PReg) : Out := .next ((s.setP d v).step4)
/-- Write acc(d) and go on. -/
def State.putA (s : State) (d : Reg3) (v : AReg) : Out := .next ((s.setAcc d v).step4)

/-- The word of an instruction for a trap value. -/
def wordOf (i : Instr) : BitVec 32 := (encodeWord i).getD 0
/-- ILLISSUE with a reason for an instruction (R425). -/
def illegal (reason : Nat) (i : Instr) : Stop := .trap 25 (illVal reason (wordOf i))
/-- Stop with ILLISSUE unless a condition holds. -/
def require (b : Bool) (reason : Nat) (i : Instr) : Except Stop Unit := if b then .ok () else .error (illegal reason i)

/-! ### Elements (R14, R269) -/

/-- elem(v, w, i): bits [w·i + w − 1 : w·i] (R14). -/
def elem {n : Nat} (v : BitVec n) (w i : Nat) : Nat := (v.toNat >>> (w * i)) % 2 ^ w

/-- The bits of `n` elements of `w` bits, element `i` being `f i`. -/
def packNat (w : Nat) (f : Nat → Nat) : Nat → Nat
  | 0 => 0
  | n + 1 => packNat w f n + (f n % 2 ^ w) * 2 ^ (w * n)

/-- A vector register of 2048 ÷ w elements. -/
def packV (w : Nat) (f : Nat → Nat) : VReg := BitVec.ofNat 2048 (packNat w f (2048 / w))

end Sys2Proof.Machine
end

