-- ==== Sys2Proof/Machine/Flags.lean ====
section
/-! DEFINITION. The device has no flag register: what other machines keep in flags is computed where it is used. These are
the conditions of the branches and of the comparing instructions (R223, R239). -/

namespace Sys2Proof.Machine

/-- a < b, signed. -/
def lessS (a b : Word) : Bool := a.slt b
/-- a < b, unsigned. -/
def lessU (a b : Word) : Bool := a.ult b
/-- A condition as 1 or 0 (R239). -/
def truth (b : Bool) : Word := if b then 1 else 0

end Sys2Proof.Machine
end

