-- ==== Sys2Proof/Machine/Formats.lean ====
section
/-! DEFINITION. Number formats: exact values, one rounding function for every format and mode, conversions, block formats
(R163 to R175), exact sums (R180). -/

namespace Sys2Proof.Machine

/-- The floating-point formats. -/
inductive Fmt | f32 | bf16 | f16 | e4m3 | e5m2 | e2m1
  deriving DecidableEq, Repr

/-- Exponent bits. -/
def Fmt.ew : Fmt → Nat | .f32 => 8 | .bf16 => 8 | .f16 => 5 | .e4m3 => 4 | .e5m2 => 5 | .e2m1 => 2
/-- Fraction bits. -/
def Fmt.fw : Fmt → Nat | .f32 => 23 | .bf16 => 7 | .f16 => 10 | .e4m3 => 3 | .e5m2 => 2 | .e2m1 => 1
/-- Exponent bias. -/
def Fmt.bias : Fmt → Nat | .f32 => 127 | .bf16 => 127 | .f16 => 15 | .e4m3 => 7 | .e5m2 => 15 | .e2m1 => 1
/-- Whether the exponent of all ones is kept for infinities and NaN (R164). -/
def Fmt.ieee : Fmt → Bool | .e4m3 => false | .e2m1 => false | _ => true
/-- Width in bits. -/
def Fmt.width (f : Fmt) : Nat := 1 + f.ew + f.fw
/-- The code of the sign bit. -/
def Fmt.signBit (f : Fmt) : Nat := 2 ^ (f.ew + f.fw)
/-- The code of +∞, for the formats that have one. -/
def Fmt.infCode (f : Fmt) : Nat := (2 ^ f.ew - 1) * 2 ^ f.fw
/-- The code of the largest finite value. -/
def Fmt.maxCode (f : Fmt) : Nat := match f with | .e4m3 => 0x7E | .e2m1 => 7 | f => f.infCode - 1

/-- An exact value: ± m·2 to the e with the sign of a zero kept, an infinity, or a NaN with its sign and its payload aligned
at the top of 22 bits (R170). -/
inductive Val
  | fin (neg : Bool) (m : Nat) (e : Int)
  | inf (neg : Bool)
  | nan (neg : Bool) (payload : Nat)
  deriving DecidableEq, Repr

/-- The canonical NaN (R165). -/
def Val.canon : Val := .nan false 0
/-- Whether a value is NaN. -/
def Val.isNan : Val → Bool | .nan _ _ => true | _ => false
/-- Whether a value is an infinity. -/
def Val.isInf : Val → Bool | .inf _ => true | _ => false
/-- The sign. -/
def Val.neg : Val → Bool | .fin n _ _ => n | .inf n => n | .nan n _ => n
/-- The value with its sign turned. -/
def Val.negate : Val → Val | .fin n m e => .fin (!n) m e | .inf n => .inf (!n) | .nan n p => .nan n p
/-- An integer. -/
def Val.int (x : Int) : Val := .fin (x < 0) x.natAbs 0

/-- The value of a code (R164, R165). -/
def Fmt.decode (f : Fmt) (c : Nat) : Val :=
  let neg := c / f.signBit % 2 = 1
  let e := c / 2 ^ f.fw % 2 ^ f.ew
  let m := c % 2 ^ f.fw
  if f.ieee && e = 2 ^ f.ew - 1 then
    if m = 0 then .inf neg else .nan neg ((m % 2 ^ (f.fw - 1)) * 2 ^ (23 - f.fw))
  else if f = .e4m3 && e = 15 && m = 7 then .nan neg 0
  else if e = 0 then .fin neg m (1 - (f.bias : Int) - f.fw)
  else .fin neg (2 ^ f.fw + m) ((e : Int) - f.bias - f.fw)

/-- Whether a magnitude with remainder `rem` of `2·half` (and something more below it when `sticky`) rounds up (R168). -/
def roundsUp (mode : RMode) (neg odd : Bool) (rem half : Nat) (sticky : Bool) : Bool :=
  match mode with
  | .rne => half < rem || (rem = half && (sticky || odd))
  | .rtz => false
  | .rup => !neg && (rem != 0 || sticky)
  | .rdn => neg && (rem != 0 || sticky)

/-- m·2 to the e in units of 2 to the q, rounded to an integer. -/
def roundUnits (mode : RMode) (neg : Bool) (m : Nat) (e q : Int) (sticky : Bool) : Nat :=
  if q ≤ e then
    let n := m <<< (e - q).toNat
    if roundsUp mode neg (n % 2 = 1) 0 1 sticky then n + 1 else n
  else
    let d := (q - e).toNat
    let n := m >>> d
    if roundsUp mode neg (n % 2 = 1) (m % 2 ^ d) (2 ^ (d - 1)) sticky then n + 1 else n

/-- The code of a finite overflow (R169). -/
def Fmt.overflow (f : Fmt) (mode : RMode) (satf neg : Bool) : Nat :=
  if !f.ieee || satf then f.maxCode
  else match mode with
    | .rne => f.infCode
    | .rtz => f.maxCode
    | .rup => if neg then f.maxCode else f.infCode
    | .rdn => if neg then f.infCode else f.maxCode

/-- The magnitude code of a positive m·2 to the e, `sticky` when the exact value is larger by less than 2 to the e (R169). -/
def Fmt.roundMag (f : Fmt) (mode : RMode) (satf neg : Bool) (m : Nat) (e : Int) (sticky : Bool) : Nat :=
  let low : Int := 1 - (f.bias : Int) - f.fw
  let q := max low ((m.log2 : Int) + e - f.fw)
  let c := (q - low).toNat * 2 ^ f.fw + roundUnits mode neg m e q sticky
  if f.maxCode < c then f.overflow mode satf neg else c

/-- The code of a sign and a magnitude. -/
def Fmt.signed (f : Fmt) (neg : Bool) (c : Nat) : Nat := if neg then f.signBit + c else c

/-- `round(x, fmt, mode)` with SATF, for every value (R169, R170). -/
def Fmt.round (f : Fmt) (mode : RMode) (satf : Bool) (v : Val) : Nat :=
  match v with
  | .fin neg 0 _ => f.signed neg 0
  | .fin neg m e => f.signed neg (f.roundMag mode satf neg m e false)
  | .inf neg => f.signed neg (if !f.ieee || satf then f.maxCode else f.infCode)
  | .nan neg p =>
    match f with
    | .e4m3 => f.signed neg 0x7F
    | .e2m1 => 0
    | f => f.signed neg (f.infCode + 2 ^ (f.fw - 1) + p / 2 ^ (23 - f.fw))

/-- A value rounded to an integer (R169). -/
def roundInt (mode : RMode) (neg : Bool) (m : Nat) (e : Int) : Int :=
  let n := roundUnits mode neg m e 0 false
  if neg then -(n : Int) else n

/-- sat(x) to a signed range of `w` bits (R14, R169). -/
def satInt (w : Nat) (x : Int) : Int := max (-(2 ^ (w - 1) : Nat)) (min ((2 ^ (w - 1) : Nat) - 1) x)

/-- The saturated two's complement of a value, `w` bits (R169). -/
def Val.toInt (v : Val) (mode : RMode) (w : Nat) : Nat :=
  match v with
  | .nan _ _ => 0
  | .inf neg => fromInt w (satInt w (if neg then -(2 ^ w : Nat) else (2 ^ w : Nat)))
  | .fin neg m e => fromInt w (satInt w (roundInt mode neg m e))

/-! ### Exact arithmetic (R166, R180) -/

/-- A product. 0 · ∞ and every NaN give the canonical NaN. -/
def Val.mul : Val → Val → Val
  | .fin a m e, .fin b n d => .fin (a != b) (m * n) (e + d)
  | .inf a, .fin b n _ => if n = 0 then .canon else .inf (a != b)
  | .fin a m _, .inf b => if m = 0 then .canon else .inf (a != b)
  | .inf a, .inf b => .inf (a != b)
  | _, _ => .canon

/-- The signed units of a finite value at an exponent not above its own. -/
def Val.units (q : Int) : Val → Int
  | .fin neg m e => let n : Int := (m <<< (e - q).toNat : Nat); if neg then -n else n
  | _ => 0

/-- The exponent of a value. -/
def Val.exp : Val → Int | .fin _ _ e => e | _ => 0

/-- An exact sum, special values as R180. -/
def sumVals (vs : List Val) : Val :=
  if vs.any Val.isNan then .canon
  else match vs.find? Val.isInf with
    | some i => if vs.any (fun v => v.isInf && v.neg != i.neg) then .canon else i
    | none =>
      match vs with
      | [] => .fin false 0 0
      | v :: ws =>
        let q := ws.foldl (fun q w => min q w.exp) v.exp
        let t : Int := vs.foldl (fun t w => t + w.units q) 0
        if t = 0 then .fin (vs.all Val.neg) 0 0 else .fin (t < 0) t.natAbs q

/-- The first NaN among sources with their order, if any (R166). -/
def firstNan (vs : List Val) : Option Val := vs.find? Val.isNan

/-- The code of a result, or of the first NaN among its sources (R166). -/
def Fmt.result (f : Fmt) (sources : List Val) (r : Val) : Nat := f.round .rne false ((firstNan sources).getD r)

/-- The code of a result that is always the canonical NaN where it is NaN (R166). -/
def Fmt.canonical (f : Fmt) (r : Val) : Nat := f.round .rne false (if r.isNan then .canon else r)

/-- The order of codes with −0 below +0, for minimumNumber and maximumNumber (R167). -/
def Fmt.key (f : Fmt) (c : Nat) : Int :=
  if c / f.signBit % 2 = 1 then -1 - (c % f.signBit : Nat) else (c % f.signBit : Nat)

/-- The order of codes with +0 = −0 (R279). -/
def Fmt.order (f : Fmt) (c : Nat) : Int :=
  if c / f.signBit % 2 = 1 then -(c % f.signBit : Nat) else (c % f.signBit : Nat)

/-- Minimum or maximum number of two codes (R167). -/
def Fmt.minmax (f : Fmt) (mx : Bool) (p q : Nat) : Nat :=
  let a := f.decode p
  let b := f.decode q
  if a.isNan then (if b.isNan then f.round .rne false a else q)
  else if b.isNan then p
  else if (f.key p ≤ f.key q) != mx then p else q

/-- A quotient of magnitudes as a code: 64 significant bits and what is left below them. -/
def Fmt.quotient (f : Fmt) (neg : Bool) (m n : Nat) (e : Int) : Nat :=
  let k := 64 + n.log2
  f.signed neg (f.roundMag .rne false neg ((m <<< k) / n) (e - k) ((m <<< k) % n != 0))

/-- A quotient (R277). -/
def Fmt.div (f : Fmt) (a b : Val) : Nat :=
  let neg := a.neg != b.neg
  match a, b with
  | .fin _ m e, .fin _ n d =>
    if n = 0 then (if m = 0 then f.round .rne false .canon else f.round .rne false (.inf neg))
    else if m = 0 then f.signed neg 0
    else f.quotient neg m n (e - d)
  | .fin _ _ _, .inf _ => f.signed neg 0
  | .inf _, .fin _ _ _ => f.round .rne false (.inf neg)
  | _, _ => f.result [a, b] .canon

/-! ### Element types (R220, R221) -/

/-- Width of an integer type. -/
def ITyWidth : ITy → Nat | .i8 => 8 | .i16 => 16 | .i32 => 32 | .i4 => 4
/-- Format of a float type. -/
def FTyFmt : FTy → Fmt | .f32 => .f32 | .bf16 => .bf16 | .f16 => .f16
/-- Width of a 3-bit coded type. -/
def Ty3Width : Ty3 → Nat
  | .i8 => 8 | .i16 => 16 | .i32 => 32 | .f32 => 32 | .bf16 => 16 | .f16 => 16 | .e4m3 => 8 | .e5m2 => 8
/-- Format of a 3-bit coded type, if it is a float type. -/
def Ty3Fmt : Ty3 → Option Fmt
  | .f32 => some .f32 | .bf16 => some .bf16 | .f16 => some .f16 | .e4m3 => some .e4m3 | .e5m2 => some .e5m2
  | _ => none

/-- The exact value of an element. -/
def Ty3Val (t : Ty3) (c : Nat) : Val :=
  match Ty3Fmt t with
  | some f => f.decode c
  | none => .int (toSigned (Ty3Width t) c)

/-- A value rounded and saturated into an element type (R169). -/
def Ty3Round (t : Ty3) (mode : RMode) (satf : Bool) (v : Val) : Nat :=
  match Ty3Fmt t with
  | some f => f.round mode satf v
  | none => v.toInt mode (Ty3Width t)

/-- A converted element (R282). -/
def convert (d s : Ty3) (mode : RMode) (sat : Bool) (c : Nat) : Nat :=
  if d = s then c
  else match Ty3Fmt d, Ty3Fmt s with
    | none, none =>
      let x := toSigned (Ty3Width s) c
      fromInt (Ty3Width d) (if sat then satInt (Ty3Width d) x else x)
    | _, _ => Ty3Round d mode sat (Ty3Val s c)

/-! ### Memory formats (R176) and block formats (R171 to R175) -/

/-- Element bits of a memory format: 0 RAW has none; a block format counts its element bits. -/
def mfBits (mf : Nat) : Nat :=
  match mf with
  | 1 => 8 | 2 => 16 | 3 => 32 | 4 => 4 | 5 => 32 | 6 => 16 | 7 => 16 | 8 => 8 | 9 => 8 | 10 => 8 | 11 => 4
  | _ => 8

/-- The float format of a memory format. -/
def mfFmt (mf : Nat) : Option Fmt :=
  match mf with | 5 => some .f32 | 6 => some .bf16 | 7 => some .f16 | 8 => some .e4m3 | 9 => some .e5m2 | _ => none

/-- The exact value of an element of formats 1 to 9. -/
def mfVal (mf c : Nat) : Val :=
  match mfFmt mf with
  | some f => f.decode c
  | none => .int (toSigned (mfBits mf) c)

/-- A value rounded into an element of formats 1 to 9 (R169, R179). -/
def mfRound (mf : Nat) (mode : RMode) (satf : Bool) (v : Val) : Nat :=
  match mfFmt mf with
  | some f => f.round mode satf v
  | none => v.toInt mode (mfBits mf)

/-- An element of a block with its scale; a NaN is canonical whatever made it (R172). -/
def blockVal (elem scale : Val) : Val := elem.mul scale

/-- Element byte `k` of a block held as one number. -/
def blkByte (blk k : Nat) : Nat := blk / 256 ^ k % 256

/-- The values of an O4 block, its elements from `i` on, with the skip bits of elements `i` and up (R173). -/
def o4From (blk : Nat) (s : Val) : Nat → Nat → Nat → List Val
  | 0, _, _ => []
  | n + 1, i, skip =>
    let c := blkByte blk (i / 2) / 16 ^ (i % 2) % 16
    if skip % 2 = 1 then blockVal (.fin false 0 0) s :: o4From blk s n (i + 1) (skip / 2)
    else if c = 8 then
      if i % 2 = 0 && i ≤ 28 then
        blockVal (Fmt.decode .e4m3 (blkByte blk (i / 2 + 1))) s :: o4From blk s n (i + 1) (skip / 2 ||| 6)
      else blockVal (.fin false 0 0) s :: o4From blk s n (i + 1) (skip / 2)
    else blockVal (.int (toSigned 4 c)) s :: o4From blk s n (i + 1) (skip / 2)

/-- The 32 values of an O4 block (R173). -/
def o4Decode (blk : Nat) (s : Val) : List Val := o4From blk s 32 0 0

/-- What `block_encode` depends on (R175): the element format, emax, and the bounds of the scale's exponent. -/
structure BlockKind where
  fmt : Fmt
  emax : Int
  lo : Int
  hi : Int
  deriving DecidableEq, Repr

/-- The kinds of R175. -/
def kindB8 : BlockKind := { fmt := .e4m3, emax := 8, lo := -149, hi := 127 }
/-- MXFP8 with E4M3 elements. -/
def kindMx8a : BlockKind := { fmt := .e4m3, emax := 8, lo := -127, hi := 127 }
/-- MXFP8 with E5M2 elements. -/
def kindMx8b : BlockKind := { fmt := .e5m2, emax := 15, lo := -127, hi := 127 }
/-- MXFP4. -/
def kindMx4 : BlockKind := { fmt := .e2m1, emax := 2, lo := -127, hi := 127 }

/-- floor(log2) of the largest finite magnitude, if one is not zero. -/
def maxLog2 (vs : List Val) : Option Int :=
  vs.foldl (fun a v => match v with
    | .fin _ m e => if m = 0 then a else some (match a with | some b => max b ((m.log2 : Int) + e) | none => (m.log2 : Int) + e)
    | _ => a) none

/-- A value divided by a power of two. -/
def Val.shift (v : Val) (e : Int) : Val := match v with | .fin n m d => .fin n m (d - e) | v => v

/-- `block_encode` (R175): the element codes and the exponent of the scale, none where the scale is NaN. -/
def blockEncode (k : BlockKind) (mode : RMode) (vs : List Val) : List Nat × Option Int :=
  if vs.any Val.isNan then (vs.map (fun _ => 0), none)
  else
    let e := max k.lo (min k.hi (match maxLog2 vs with | some l => l - k.emax | none => 0))
    (vs.map (fun v => k.fmt.round mode true (v.shift e)), some e)

/-- The FP32 scale of B8 (R175). -/
def b8Scale (e : Option Int) : Nat :=
  match e with | none => 0x7FC00000 | some e => Fmt.round .f32 .rne false (.fin false 1 e)

/-- The E8M0 scale of MX formats (R175). -/
def mxScale (e : Option Int) : Nat := match e with | none => 0xFF | some e => (e + 127).toNat

/-- The value of an E8M0 code (R174). -/
def e8m0 (c : Nat) : Val := if c = 0xFF then .canon else .fin false 1 ((c : Int) - 127)

/-! ### Elements of a bank (R171, R176, R286) -/

/-- The bytes of a bank that element `j` of a tensor of format `mf` with its scales at `sbase` stands in. -/
def bankBytes (mf sbase j : Nat) : List Nat :=
  if mf = 11 then (List.range 16).map (fun i => 16 * (j / 32) + i) ++ (List.range 4).map (fun i => sbase + 4 * (j / 32) + i)
  else
    let es := mfBits mf
    let own := (List.range ((j * es % 8 + es + 7) / 8)).map (fun i => j * es / 8 + i)
    if mf = 10 then own ++ (List.range 4).map (fun i => sbase + 4 * (j / 32) + i) else own

/-- `n` bytes from an offset as a number. -/
def bytesNat (rd : Nat → Nat) (o : Nat) : Nat → Nat
  | 0 => 0
  | n + 1 => rd o + 256 * bytesNat rd (o + 1) n

/-- The code of element `j` of elements of `es` bits. -/
def codeAt (rd : Nat → Nat) (es j : Nat) : Nat :=
  bytesNat rd (j * es / 8) ((j * es % 8 + es + 7) / 8) / 2 ^ (j * es % 8) % 2 ^ es

/-- The exact value of element `j` of a tensor of format 1 to 11 (R171 to R173, R176). -/
def bankVal (rd : Nat → Nat) (mf sbase j : Nat) : Val :=
  let scale := Fmt.decode .f32 (bytesNat rd (sbase + 4 * (j / 32)) 4)
  if mf = 11 then (o4Decode (bytesNat rd (16 * (j / 32)) 16) scale).getD (j % 32) .canon
  else if mf = 10 then blockVal (Fmt.decode .e4m3 (codeAt rd 8 j)) scale
  else mfVal mf (codeAt rd (mfBits mf) j)

/-- The offset of the scales that a format register names (R176). -/
def fmtSbase (r : Word) : Nat := bits r 15 9 * 256
/-- FMT. -/
def fmtFmt (r : Word) : Nat := bits r 3 0
/-- SATF. -/
def fmtSat (r : Word) : Bool := bit r 8
/-- A rounding mode from its code (R168). -/
def modeOf (n : Nat) : RMode := if n = 0 then .rne else if n = 1 then .rtz else if n = 2 then .rup else .rdn
/-- RM. -/
def fmtRm (r : Word) : RMode := modeOf (bits r 7 6)

end Sys2Proof.Machine
end

