-- ==== Sys2Proof/Machine/Special.lean ====
section
/-! DEFINITION. The special functions of R278: each result is the exact value rounded once. A square root and a reciprocal
are exact up to a remainder; the others are enclosed between two fixed-point bounds that round to one code, and where
they do not the result is open (log 10). -/

namespace Sys2Proof.Machine

/-- Fraction bits of the fixed-point bounds. -/
def fixP : Nat := 320
/-- One in fixed point. -/
def fixOne : Nat := 2 ^ fixP

/-- A lower and an upper bound of a nonnegative real, in units of 2 to the −fixP. -/
abbrev Bound := Nat × Nat

/-- Bounds of a sum. -/
def Bound.add (a b : Bound) : Bound := (a.1 + b.1, a.2 + b.2)
/-- Bounds of a product. -/
def Bound.mul (a b : Bound) : Bound := (a.1 * b.1 / fixOne, a.2 * b.2 / fixOne + 1)
/-- Bounds of a quotient by a positive integer. -/
def Bound.divN (a : Bound) (n : Nat) : Bound := (a.1 / n, a.2 / n + 1)
/-- Bounds of a quotient. -/
def Bound.div (a b : Bound) : Bound := (a.1 * fixOne / b.2, a.2 * fixOne / b.1 + 1)
/-- Bounds of 1 minus a real not above 1. -/
def Bound.oneMinus (a : Bound) : Bound := (fixOne - a.2, fixOne - a.1)
/-- Bounds of 1 plus a real. -/
def Bound.onePlus (a : Bound) : Bound := (fixOne + a.1, fixOne + a.2)

/-- The exact fixed-point value of m·2 to the e, rounded outward. -/
def fixOf (m : Nat) (e : Int) : Bound :=
  let k := e + fixP
  if 0 ≤ k then (m <<< k.toNat, m <<< k.toNat) else (m >>> (-k).toNat, m >>> (-k).toNat + 1)

/-- The terms t^n ÷ n! from `term` on, summed; what is left is at most the last term for t below 1. -/
def expTerms (t : Bound) : Nat → Nat → Bound → Bound → Bound
  | 0, _, term, sum => (sum.1, sum.2 + term.2 + 1)
  | k + 1, n, term, sum =>
    let next := (term.mul t).divN n
    expTerms t k (n + 1) next (sum.add next)

/-- e to the t for t in 0 to 1. -/
def expBound (t : Bound) : Bound := expTerms t 90 1 (fixOne, fixOne) (fixOne, fixOne)

/-- The 2^n-th power by squaring. -/
def squareBound (a : Bound) : Nat → Bound
  | 0 => a
  | n + 1 => squareBound (a.mul a) n

/-- e to the −x for x = m·2 to the e below 256. -/
def expNegBound (m : Nat) (e : Int) : Bound :=
  let y := squareBound (expBound (fixOf m (e - 8))) 8
  Bound.div (fixOne, fixOne) y

/-- The terms z^(2k+1) ÷ (2k+1) for z at most 1/3, summed. -/
def atanhTerms (zz : Bound) : Nat → Nat → Bound → Bound → Bound
  | 0, _, pow, sum => (sum.1, sum.2 + pow.2 + 1)
  | k + 1, n, pow, sum => atanhTerms zz k (n + 2) (pow.mul zz) (sum.add (pow.divN n))

/-- 2·atanh(z), the logarithm of (1+z) ÷ (1−z). -/
def logBound (z : Bound) : Bound :=
  let s := atanhTerms (z.mul z) 110 1 z (0, 0)
  (2 * s.1, 2 * s.2)

/-- The natural logarithm of 2. -/
def ln2Bound : Bound := logBound (Bound.divN (fixOne, fixOne) 3)

/-- The terms of the arc tangent of 1/n: the positive and the negative ones. -/
def atanTerms (nn : Nat) : Nat → Nat → Bound → Bound → Bound → Bound
  | 0, _, pow, plus, minus => (plus.1 - minus.2 - pow.2 - 1, plus.2 - minus.1 + pow.2 + 1)
  | k + 1, n, pow, plus, minus =>
    let t := pow.divN n
    atanTerms nn k (n + 2) (pow.divN nn) (if n % 4 = 1 then plus.add t else plus) (if n % 4 = 1 then minus else minus.add t)

/-- The arc tangent of 1/n. -/
def atanInv (n : Nat) : Bound := atanTerms (n * n) 80 1 (Bound.divN (fixOne, fixOne) n) (0, 0) (0, 0)

/-- π, by 16·atan(1/5) − 4·atan(1/239). -/
def piBound : Bound :=
  let a := atanInv 5
  let b := atanInv 239
  (16 * a.1 - 4 * b.2, 16 * a.2 - 4 * b.1)

/-- The integer square root of a number below 4 to the `n`, from a partial root. -/
def isqrtBits (x : Nat) : Nat → Nat → Nat
  | 0, r => r
  | n + 1, r => let t := r + 2 ^ n; isqrtBits x n (if t * t ≤ x then t else r)

/-- The integer square root. -/
def isqrt (x : Nat) : Nat := isqrtBits x (x.log2 / 2 + 1) 0

/-- 2 ÷ √π. -/
def erfScale : Bound :=
  let p := piBound
  Bound.div (2 * fixOne, 2 * fixOne) (isqrt (p.1 * fixOne), isqrt (p.2 * fixOne) + 1)

/-- The terms 2^n·x^(2n+1) ÷ (1·3·…·(2n+1)), summed; for x below 8 what is left is at most the last term. -/
def erfTerms (xx2 : Bound) : Nat → Nat → Bound → Bound → Bound
  | 0, _, term, sum => (sum.1, sum.2 + term.2 + 1)
  | k + 1, n, term, sum =>
    let next := (term.mul xx2).divN n
    erfTerms xx2 k (n + 2) next (sum.add next)

/-- The code of a positive real between two dyadic bounds (m, n)·2 to the e: where both round alike. -/
def Fmt.between (f : Fmt) (fn c : Nat) (neg : Bool) (m n : Nat) (e : Int) : Nat :=
  let a := f.round .rne false (.fin neg m e)
  let b := f.round .rne false (.fin neg n e)
  if a = b then a else Config.specialFallback fn f.width c % 2 ^ f.width

/-- x·(1 − δ) to x with δ below 2 to the −80: bounds for a result that is its operand but for a tiny part. -/
def nearBelow (m : Nat) : Nat × Nat := (m * 2 ^ 80 - m, m * 2 ^ 80)

/-- 2 to the ±x for a finite x = m·2 to the e that is not 0 (R278 VFEXP2). -/
def Fmt.exp2 (f : Fmt) (c : Nat) (neg : Bool) (m : Nat) (e : Int) : Nat :=
  let top := (m.log2 : Int) + e
  if 9 ≤ top then f.round .rne false (.fin false 1 (if neg then -600 else 600))
  else if top < -60 then f.between 0 c false (2 ^ 60 - flag neg) (2 ^ 60 + flag (!neg)) (-60)
  else
    let x : Int := if neg then -((m <<< (e + 160).toNat : Nat) : Int) else (m <<< (e + 160).toNat : Nat)
    let n := x.fdiv (2 ^ 160)
    let r := (x.fmod (2 ^ 160)).toNat
    if r = 0 then f.round .rne false (.fin false 1 n)
    else
      let b := expBound ((fixOf r (-160)).mul ln2Bound)
      f.between 0 c false b.1 b.2 (n - fixP)

/-- log2 of a positive m·2 to the e (R278 VFLOG2). -/
def Fmt.log2 (f : Fmt) (c m : Nat) (e : Int) : Nat :=
  let k := m.log2
  let n := (k : Int) + e
  if m = 2 ^ k then f.round .rne false (.int n)
  else
    let z := Bound.div (((m - 2 ^ k) * fixOne, (m - 2 ^ k) * fixOne)) (((m + 2 ^ k) * fixOne, (m + 2 ^ k) * fixOne))
    let l := Bound.div (logBound z) ln2Bound
    let lo := n * fixOne + l.1
    let hi := n * fixOne + l.2
    if 0 < lo then f.between 1 c false lo.toNat hi.toNat (-fixP)
    else f.between 1 c true (-hi).toNat (-lo).toNat (-fixP)

/-- tanh x for x = m·2 to the e above 0. -/
def Fmt.tanh (f : Fmt) (c : Nat) (neg : Bool) (m : Nat) (e : Int) : Nat :=
  let top := (m.log2 : Int) + e
  if 5 ≤ top then f.between 5 c neg (2 ^ 60 - 1) (2 ^ 60) (-60)
  else if top < -40 then let b := nearBelow m; f.between 5 c neg b.1 b.2 (e - 80)
  else
    let y := expNegBound m (e + 1)
    let b := Bound.div y.oneMinus y.onePlus
    f.between 5 c neg b.1 b.2 (-fixP)

/-- 1 ÷ (1 + e to the ∓x) for x = m·2 to the e above 0. -/
def Fmt.sig (f : Fmt) (c : Nat) (neg : Bool) (m : Nat) (e : Int) : Nat :=
  let top := (m.log2 : Int) + e
  if top < -60 then f.between 6 c false (2 ^ 60 - flag neg) (2 ^ 60 + flag (!neg)) (-61)
  else if neg then
    if 7 ≤ top then f.round .rne false (.fin false 1 (-184))
    else
      let y := expNegBound m e
      f.between 6 c false (Bound.div (y.1, y.1) (fixOne + y.1, fixOne + y.1)).1
        (Bound.div (y.2, y.2) (fixOne + y.2, fixOne + y.2)).2 (-fixP)
  else if 6 ≤ top then f.between 6 c false (2 ^ 60 - 1) (2 ^ 60) (-60)
  else
    let b := Bound.div (fixOne, fixOne) (expNegBound m e).onePlus
    f.between 6 c false b.1 b.2 (-fixP)

/-- erf x for x = m·2 to the e above 0. -/
def Fmt.erf (f : Fmt) (c : Nat) (neg : Bool) (m : Nat) (e : Int) : Nat :=
  let top := (m.log2 : Int) + e
  let k := erfScale
  if 3 ≤ top then f.between 7 c neg (2 ^ 60 - 1) (2 ^ 60) (-60)
  else if top < -60 then
    f.between 7 c neg ((nearBelow (m * k.1)).1) ((nearBelow (m * k.2)).2) (e - 80 - fixP)
  else
    let x := fixOf m e
    let xx := fixOf (m * m) (2 * e)
    let s := erfTerms (2 * xx.1, 2 * xx.2) 400 3 x x
    let b := (k.mul (expNegBound (m * m) (2 * e))).mul s
    f.between 7 c neg b.1 b.2 (-fixP)

/-- √(m·2 to the e), exact up to what is left below 64 bits and more. -/
def Fmt.sqrt (f : Fmt) (m : Nat) (e : Int) : Nat :=
  let (m, e) := if e % 2 = 0 then (m, e) else (2 * m, e - 1)
  let x := m <<< 128
  let r := isqrt x
  f.roundMag .rne false false r (e / 2 - 64) (r * r != x)

/-- 1 ÷ √(m·2 to the e). -/
def Fmt.rsqrt (f : Fmt) (m : Nat) (e : Int) : Nat :=
  let (m, e) := if e % 2 = 0 then (m, e) else (2 * m, e - 1)
  let r := isqrt (2 ^ 256 / m)
  f.roundMag .rne false false r (-(e / 2) - 128) (r * r * m != 2 ^ 256)

/-- A special function of an element (R278). -/
def Fmt.special (f : Fmt) (fn c : Nat) : Nat :=
  let code (v : Val) : Nat := f.round .rne false v
  let one (neg : Bool) : Nat := code (.fin neg 1 0)
  match f.decode c with
  | .nan n p => code (.nan n p)
  | .inf n =>
    match fn with
    | 0 => if n then 0 else f.infCode
    | 1 => if n then code .canon else f.infCode
    | 2 => f.signed n 0
    | 3 => if n then code .canon else 0
    | 4 => if n then code .canon else f.infCode
    | 6 => if n then 0 else one false
    | _ => one n
  | .fin n 0 _ =>
    match fn with
    | 0 => one false
    | 1 => code (.inf true)
    | 2 => code (.inf n)
    | 3 => code (.inf n)
    | 6 => code (.fin false 1 (-1))
    | _ => f.signed n 0
  | .fin n m e =>
    match fn with
    | 0 => f.exp2 c n m e
    | 1 => if n then code .canon else f.log2 c m e
    | 2 => f.quotient n 1 m (-e)
    | 3 => if n then code .canon else f.rsqrt m e
    | 4 => if n then code .canon else f.sqrt m e
    | 5 => f.tanh c n m e
    | 6 => f.sig c n m e
    | _ => f.erf c n m e

end Sys2Proof.Machine
end

