-- ==== Sys2Proof/Machine/Vector.lean ====
section
/-! DEFINITION. Vector arithmetic, compares, conversion, predicates, reductions, permutes (R273 to R282, R287 to R291). -/

namespace Sys2Proof.Machine

/-! ### Forms -/

/-- Write the elements of vreg(d) whose guard bit is 1 (R270). -/
def State.vmap (s : State) (g : Reg3) (w : Nat) (d : Reg) (f : Nat → Nat) : Out :=
  let gd := s.p g
  let old := s.v d
  s.putV d (packV w (fun i => if gd.getLsbD i then f i else elem old w i))

/-- An integer form of two elements (R274). -/
def State.vint (s : State) (g : Reg3) (ty : ITy) (d a b : Reg) (op : Nat → Nat → Nat → Nat) : Out :=
  let w := ITyWidth ty
  let x := s.v a
  let y := s.v b
  s.vmap g w d (fun i => op w (elem x w i) (elem y w i))

/-- A float form of two elements and the old destination (R277). -/
def State.vflt (s : State) (g : Reg3) (ty : FTy) (d a b : Reg) (op : Fmt → Nat → Nat → Nat → Nat) : Out :=
  let f := FTyFmt ty
  let w := f.width
  let x := s.v a
  let y := s.v b
  let z := s.v d
  s.vmap g w d (fun i => op f (elem x w i) (elem y w i) (elem z w i))

/-- A special function (R278). -/
def State.vspec (s : State) (g : Reg3) (ty : FTy) (d a : Reg) (fn : Nat) : Out :=
  let f := FTyFmt ty
  let x := s.v a
  s.vmap g f.width d (fun i => f.special fn (elem x f.width i))

/-- 512 bits, bit `i` being `f i`. -/
def packP (f : Nat → Bool) : PReg := BitVec.ofNat 512 (packNat 1 (fun i => flag (f i)) 512)

/-- A compare of `n` elements (R280). -/
def State.vcmp (s : State) (g : Reg3) (w : Nat) (d : Reg3) (f : Nat → Bool) : Out :=
  let gd := s.p g
  s.putP d (packP (fun i => i < 2048 / w && gd.getLsbD i && f i))

/-- An integer compare (R279). -/
def State.vcmpI (s : State) (g : Reg3) (ty : ITy) (d : Reg3) (a b : Reg) (op : Nat → Nat → Nat → Bool) : Out :=
  let w := ITyWidth ty
  let x := s.v a
  let y := s.v b
  s.vcmp g w d (fun i => op w (elem x w i) (elem y w i))

/-- A float compare (R279). -/
def State.vcmpF (s : State) (g : Reg3) (ty : FTy) (d : Reg3) (a b : Reg) (op : Fmt → Nat → Nat → Bool) : Out :=
  let f := FTyFmt ty
  let x := s.v a
  let y := s.v b
  s.vcmp g f.width d (fun i => op f (elem x f.width i) (elem y f.width i))

/-! ### Operations of elements -/

/-- Smaller or larger of two codes under an order. -/
def pick (mx : Bool) (key : Nat → Int) (p q : Nat) : Nat := if (key p ≤ key q) != mx then p else q
/-- Signed reading. -/
def skey (w p : Nat) : Int := toSigned w p
/-- Unsigned reading. -/
def ukey (p : Nat) : Int := p

/-- A sum rounded (R277). -/
def Fmt.add (f : Fmt) (p q : Nat) : Nat := f.result [f.decode p, f.decode q] (sumVals [f.decode p, f.decode q])
/-- A difference rounded. -/
def Fmt.sub (f : Fmt) (p q : Nat) : Nat :=
  f.result [f.decode p, f.decode q] (sumVals [f.decode p, (f.decode q).negate])
/-- A product rounded. -/
def Fmt.mulc (f : Fmt) (p q : Nat) : Nat := f.result [f.decode p, f.decode q] ((f.decode p).mul (f.decode q))
/-- A fused product and sum (R180). -/
def Fmt.fma (f : Fmt) (p q c : Nat) : Nat :=
  f.result [f.decode p, f.decode q, f.decode c] (sumVals [(f.decode p).mul (f.decode q), f.decode c])

/-! ### Integer arithmetic (R273 to R275) -/

/-- VADD (R274). -/
def execVadd (g : Reg3) (ty : ITy) (vd va vb : Reg) (s : State) : Out :=
  s.vint g ty vd va vb (fun w p q => (p + q) % 2 ^ w)
/-- VSUB (R274). -/
def execVsub (g : Reg3) (ty : ITy) (vd va vb : Reg) (s : State) : Out :=
  s.vint g ty vd va vb (fun w p q => (p + 2 ^ w - q) % 2 ^ w)
/-- VMUL (R274). -/
def execVmul (g : Reg3) (ty : ITy) (vd va vb : Reg) (s : State) : Out :=
  s.vint g ty vd va vb (fun w p q => p * q % 2 ^ w)
/-- VSADD (R274). -/
def execVsadd (g : Reg3) (ty : ITy) (vd va vb : Reg) (s : State) : Out :=
  s.vint g ty vd va vb (fun w p q => fromInt w (satInt w (toSigned w p + toSigned w q)))
/-- VSSUB (R274). -/
def execVssub (g : Reg3) (ty : ITy) (vd va vb : Reg) (s : State) : Out :=
  s.vint g ty vd va vb (fun w p q => fromInt w (satInt w (toSigned w p - toSigned w q)))
/-- VMIN (R274). -/
def execVmin (g : Reg3) (ty : ITy) (vd va vb : Reg) (s : State) : Out :=
  s.vint g ty vd va vb (fun w p q => pick false (skey w) p q)
/-- VMAX (R274). -/
def execVmax (g : Reg3) (ty : ITy) (vd va vb : Reg) (s : State) : Out :=
  s.vint g ty vd va vb (fun w p q => pick true (skey w) p q)
/-- VMINU (R274). -/
def execVminu (g : Reg3) (ty : ITy) (vd va vb : Reg) (s : State) : Out :=
  s.vint g ty vd va vb (fun _ p q => min p q)
/-- VMAXU (R274). -/
def execVmaxu (g : Reg3) (ty : ITy) (vd va vb : Reg) (s : State) : Out :=
  s.vint g ty vd va vb (fun _ p q => max p q)
/-- VAND (R274). -/
def execVand (g : Reg3) (ty : ITy) (vd va vb : Reg) (s : State) : Out :=
  s.vint g ty vd va vb (fun _ p q => p &&& q)
/-- VOR (R274). -/
def execVor (g : Reg3) (ty : ITy) (vd va vb : Reg) (s : State) : Out :=
  s.vint g ty vd va vb (fun _ p q => p ||| q)
/-- VXOR (R274). -/
def execVxor (g : Reg3) (ty : ITy) (vd va vb : Reg) (s : State) : Out :=
  s.vint g ty vd va vb (fun _ p q => p ^^^ q)
/-- VSLL (R274). -/
def execVsll (g : Reg3) (ty : ITy) (vd va vb : Reg) (s : State) : Out :=
  s.vint g ty vd va vb (fun w p q => (p * 2 ^ (q % w)) % 2 ^ w)
/-- VSRL (R274). -/
def execVsrl (g : Reg3) (ty : ITy) (vd va vb : Reg) (s : State) : Out :=
  s.vint g ty vd va vb (fun w p q => p / 2 ^ (q % w))
/-- VSRA (R274). -/
def execVsra (g : Reg3) (ty : ITy) (vd va vb : Reg) (s : State) : Out :=
  s.vint g ty vd va vb (fun w p q => fromInt w ((toSigned w p).fdiv (2 ^ (q % w) : Nat)))
/-- VSEL: the guard field selects (R275). -/
def execVsel (g : Reg3) (ty : ITy) (vd va vb : Reg) (s : State) : Out :=
  let w := ITyWidth ty
  let ps := s.p g
  let x := s.v va
  let y := s.v vb
  s.putV vd (packV w (fun i => if ps.getLsbD i then elem x w i else elem y w i))

/-! ### Floating-point arithmetic (R276 to R278) -/

/-- VFADD (R277). -/
def execVfadd (g : Reg3) (ty : FTy) (vd va vb : Reg) (s : State) : Out :=
  s.vflt g ty vd va vb (fun f p q _ => f.add p q)
/-- VFSUB (R277). -/
def execVfsub (g : Reg3) (ty : FTy) (vd va vb : Reg) (s : State) : Out :=
  s.vflt g ty vd va vb (fun f p q _ => f.sub p q)
/-- VFMUL (R277). -/
def execVfmul (g : Reg3) (ty : FTy) (vd va vb : Reg) (s : State) : Out :=
  s.vflt g ty vd va vb (fun f p q _ => f.mulc p q)
/-- VFMA (R277). -/
def execVfma (g : Reg3) (ty : FTy) (vd va vb : Reg) (s : State) : Out :=
  s.vflt g ty vd va vb (fun f p q c => f.fma p q c)
/-- VFMIN (R277). -/
def execVfmin (g : Reg3) (ty : FTy) (vd va vb : Reg) (s : State) : Out :=
  s.vflt g ty vd va vb (fun f p q _ => f.minmax false p q)
/-- VFMAX (R277). -/
def execVfmax (g : Reg3) (ty : FTy) (vd va vb : Reg) (s : State) : Out :=
  s.vflt g ty vd va vb (fun f p q _ => f.minmax true p q)
/-- VFDIV (R277). -/
def execVfdiv (g : Reg3) (ty : FTy) (vd va vb : Reg) (s : State) : Out :=
  s.vflt g ty vd va vb (fun f p q _ => f.div (f.decode p) (f.decode q))
/-- VFEXP2 (R278). -/
def execVfexp2 (g : Reg3) (ty : FTy) (vd va : Reg) (s : State) : Out := s.vspec g ty vd va 0
/-- VFLOG2 (R278). -/
def execVflog2 (g : Reg3) (ty : FTy) (vd va : Reg) (s : State) : Out := s.vspec g ty vd va 1
/-- VFRCP (R278). -/
def execVfrcp (g : Reg3) (ty : FTy) (vd va : Reg) (s : State) : Out := s.vspec g ty vd va 2
/-- VFRSQRT (R278). -/
def execVfrsqrt (g : Reg3) (ty : FTy) (vd va : Reg) (s : State) : Out := s.vspec g ty vd va 3
/-- VFSQRT (R278). -/
def execVfsqrt (g : Reg3) (ty : FTy) (vd va : Reg) (s : State) : Out := s.vspec g ty vd va 4
/-- VFTANH (R278). -/
def execVftanh (g : Reg3) (ty : FTy) (vd va : Reg) (s : State) : Out := s.vspec g ty vd va 5
/-- VFSIG (R278). -/
def execVfsig (g : Reg3) (ty : FTy) (vd va : Reg) (s : State) : Out := s.vspec g ty vd va 6
/-- VFERF (R278). -/
def execVferf (g : Reg3) (ty : FTy) (vd va : Reg) (s : State) : Out := s.vspec g ty vd va 7

/-! ### Compares (R279, R280) -/

/-- VCMPEQ (R279). -/
def execVcmpeq (g : Reg3) (ty : ITy) (pd : Reg3) (va vb : Reg) (s : State) : Out :=
  s.vcmpI g ty pd va vb (fun _ p q => p == q)
/-- VCMPLT (R279). -/
def execVcmplt (g : Reg3) (ty : ITy) (pd : Reg3) (va vb : Reg) (s : State) : Out :=
  s.vcmpI g ty pd va vb (fun w p q => decide (toSigned w p < toSigned w q))
/-- VCMPLE (R279). -/
def execVcmple (g : Reg3) (ty : ITy) (pd : Reg3) (va vb : Reg) (s : State) : Out :=
  s.vcmpI g ty pd va vb (fun w p q => decide (toSigned w p ≤ toSigned w q))
/-- VCMPLTU (R279). -/
def execVcmpltu (g : Reg3) (ty : ITy) (pd : Reg3) (va vb : Reg) (s : State) : Out :=
  s.vcmpI g ty pd va vb (fun _ p q => decide (p < q))

/-- Neither element is NaN. -/
def Fmt.ordered (f : Fmt) (p q : Nat) : Bool := !(f.decode p).isNan && !(f.decode q).isNan

/-- VFCMPEQ (R279). -/
def execVfcmpeq (g : Reg3) (ty : FTy) (pd : Reg3) (va vb : Reg) (s : State) : Out :=
  s.vcmpF g ty pd va vb (fun f p q => f.ordered p q && f.order p == f.order q)
/-- VFCMPLT (R279). -/
def execVfcmplt (g : Reg3) (ty : FTy) (pd : Reg3) (va vb : Reg) (s : State) : Out :=
  s.vcmpF g ty pd va vb (fun f p q => f.ordered p q && decide (f.order p < f.order q))
/-- VFCMPLE (R279). -/
def execVfcmple (g : Reg3) (ty : FTy) (pd : Reg3) (va vb : Reg) (s : State) : Out :=
  s.vcmpF g ty pd va vb (fun f p q => f.ordered p q && decide (f.order p ≤ f.order q))
/-- VFCMPUN (R279). -/
def execVfcmpun (g : Reg3) (ty : FTy) (pd : Reg3) (va vb : Reg) (s : State) : Out :=
  s.vcmpF g ty pd va vb (fun f p q => !f.ordered p q)

/-! ### Groups and conversion (R271, R281, R282) -/

/-- Whether a destination and a source group are legal (R271). -/
def groupsOk (d dn a an : Nat) : Bool :=
  d + dn ≤ 32 && a + an ≤ 32 && ((d = a && dn = an) || d + dn ≤ a || a + an ≤ d)

/-- Element `i` of the group at register `n`. -/
def Regs.gelem (g : Regs) (n w i : Nat) : Nat := elem (g.getV (n + i / (2048 / w))) w (i % (2048 / w))

/-- Write the `k` registers of the group at `n`. -/
def Regs.putGroup (g : Regs) (n w : Nat) (f : Nat → Nat) : Nat → Regs
  | 0 => g
  | k + 1 => (g.putGroup n w f k).setV (n + k) (packV w (fun j => f (k * (2048 / w) + j)))

/-- OVERLAP unless a condition holds (R271). -/
def overlap (b : Bool) (i : Instr) : Except Stop Unit := check b 26 (word (wordOf i).toNat)

/-- VCVT (R281, R282). -/
def execVcvt (tyd : Ty3) (mode : RMode) (tys : Ty3) (sat : Bool) (vd vs : Reg) (s : State) : Out :=
  finish s (do
    let wd := Ty3Width tyd
    let ws := Ty3Width tys
    let n := 2048 / min wd ws
    overlap (groupsOk vd.toNat (n * wd / 2048) vs.toNat (n * ws / 2048)) (.vcvt tyd mode tys sat vd vs)
    let g := s.hart.regs
    .ok (s.setRegs (g.putGroup vd.toNat wd (fun i => convert tyd tys mode sat (g.gelem vs.toNat ws i)) (n * wd / 2048))).step4)

/-! ### Predicates (R287) -/

/-- PAND (R287). -/
def execPand (pd pa pb : Reg3) (s : State) : Out := s.putP pd (s.p pa &&& s.p pb)
/-- POR (R287). -/
def execPor (pd pa pb : Reg3) (s : State) : Out := s.putP pd (s.p pa ||| s.p pb)
/-- PXOR (R287). -/
def execPxor (pd pa pb : Reg3) (s : State) : Out := s.putP pd (s.p pa ^^^ s.p pb)
/-- PANDN (R287). -/
def execPandn (pd pa pb : Reg3) (s : State) : Out := s.putP pd (s.p pa &&& ~~~(s.p pb))
/-- PNOT (R287). -/
def execPnot (pd pa : Reg3) (s : State) : Out := s.putP pd (~~~(s.p pa))
/-- PCNT (R287). -/
def execPcnt (xd : Reg) (pa : Reg3) (s : State) : Out :=
  s.putX xd (word ((List.range 512).filter (fun i => (s.p pa).getLsbD i)).length)
/-- PFIRST (R287). -/
def execPfirst (xd : Reg) (pa : Reg3) (s : State) : Out :=
  s.putX xd (match (List.range 512).find? (fun i => (s.p pa).getLsbD i) with
    | some i => word i
    | none => BitVec.allOnes 64)
/-- PLT (R287). -/
def execPlt (pd : Reg3) (xs : Reg) (s : State) : Out := s.putP pd (packP (fun i => decide (i < (s.x xs).toNat)))

/-! ### Reductions (R288 to R290) -/

/-- The elements of a register. -/
def elems (v : VReg) (w : Nat) : List Nat := (List.range (2048 / w)).map (elem v w)

/-- VREDSUM (R289). -/
def execVredsum (ty : ITy) (xd va : Reg) (s : State) : Out :=
  let w := ITyWidth ty
  s.putX xd (word (fromInt 64 ((elems (s.v va) w).foldl (fun t e => t + toSigned w e) 0)))
/-- VREDMAX (R289). -/
def execVredmax (ty : ITy) (xd va : Reg) (s : State) : Out :=
  let w := ITyWidth ty
  let l := elems (s.v va) w
  s.putX xd (sextNat w (l.foldl (pick true (skey w)) (l.headD 0)))
/-- VREDMIN (R289). -/
def execVredmin (ty : ITy) (xd va : Reg) (s : State) : Out :=
  let w := ITyWidth ty
  let l := elems (s.v va) w
  s.putX xd (sextNat w (l.foldl (pick false (skey w)) (l.headD 0)))

/-- One level of the tree of R290. -/
def pairUp (op : Nat → Nat → Nat) : List Nat → List Nat
  | a :: b :: l => op a b :: pairUp op l
  | l => l

/-- The tree of R290, `n` levels. -/
def treeUp (op : Nat → Nat → Nat) : Nat → List Nat → Nat
  | 0, l => l.headD 0
  | n + 1, l => treeUp op n (pairUp op l)

/-- A float reduction in FP32 (R290), by its tree also where ∞ − ∞ comes about beside a NaN element of a higher number: there the
sentence on the lowest-numbered NaN would say otherwise (DEDUCED, unsafe; log 108). -/
def State.vfred (s : State) (ty : FTy) (xd va : Reg) (op : Nat → Nat → Nat) : Out :=
  let f := FTyFmt ty
  let l := (elems (s.v va) f.width).map (fun c => if f = .f32 then c else Fmt.round .f32 .rne false (f.decode c))
  s.putX xd (word (treeUp op 7 l))

/-- VFREDSUM (R290). -/
def execVfredsum (ty : FTy) (xd va : Reg) (s : State) : Out := s.vfred ty xd va (Fmt.add .f32)
/-- VFREDMAX (R290). -/
def execVfredmax (ty : FTy) (xd va : Reg) (s : State) : Out := s.vfred ty xd va (Fmt.minmax .f32 true)
/-- VFREDMIN (R290). -/
def execVfredmin (ty : FTy) (xd va : Reg) (s : State) : Out := s.vfred ty xd va (Fmt.minmax .f32 false)

/-! ### Permutes (R291) -/

/-- VSLIDEUP (R291). -/
def execVslideup (vd va xn : Reg) (s : State) : Out :=
  let k := (s.x xn).toNat
  s.putV vd (packV 8 (fun i => if k ≤ i then elem (s.v va) 8 (i - k) else 0))
/-- VSLIDEDN (R291). -/
def execVslidedn (vd va xn : Reg) (s : State) : Out :=
  let k := (s.x xn).toNat
  s.putV vd (packV 8 (fun i => if i + k ≤ 255 then elem (s.v va) 8 (i + k) else 0))
/-- VPERM (R291). -/
def execVperm (vd va vi : Reg) (s : State) : Out :=
  s.putV vd (packV 8 (fun i => elem (s.v va) 8 (elem (s.v vi) 8 i)))
/-- Width of VBCAST. -/
def bcastWidth : BcastW → Nat | .w8 => 8 | .w16 => 16 | .w32 => 32 | .w64 => 64
/-- VBCAST (R291). -/
def execVbcast (k : BcastW) (vd xs : Reg) (s : State) : Out :=
  s.putV vd (packV (bcastWidth k) (fun _ => (s.x xs).toNat))
/-- VGET (R291). -/
def execVget (xd va xi : Reg) (s : State) : Out := s.putX xd (word (elem (s.v va) 64 (bits (s.x xi) 4 0)))
/-- VSET (R291). -/
def execVset (vd xv xi : Reg) (s : State) : Out :=
  s.putV vd (packV 64 (fun i => if i = bits (s.x xi) 4 0 then (s.x xv).toNat else elem (s.v vd) 64 i))

end Sys2Proof.Machine
end

