-- ==== Sys2Proof/Machine/VectorMem.lean ====
section
/-! DEFINITION. Vector loads and stores, VLDF (R283 to R286). -/

namespace Sys2Proof.Machine

/-- The elements below `n` whose guard bit is 1. -/
def active (g : PReg) (n : Nat) : List Nat := (List.range n).filter (fun i => g.getLsbD i)

/-- The value that stands beside a number in two lists, or `d`. -/
def valueAt (d : Nat) : List Nat → List Nat → Nat → Nat
  | i :: is, v :: vs, k => if i = k then v else valueAt d is vs k
  | _, _, _ => d

/-- A vector load of 32-bit elements (R284, R285). -/
def State.vload (s : State) (g : Reg3) (vd : Reg) (addr : Nat → Word) : Out :=
  finish s (do
    let is := active (s.p g) 64
    let (vs, t) ← s.loads 4 (is.map addr)
    .ok ((t.setV vd (packV 32 (fun i => valueAt (elem (s.v vd) 32 i) is vs i))).step4))

/-- A vector store of 32-bit elements, in increasing element number (R284, R285). -/
def State.vstore (s : State) (g : Reg3) (vd : Reg) (addr : Nat → Word) : Out :=
  finish s (do
    let is := active (s.p g) 64
    let t ← s.stores 4 (is.map addr) (is.map (elem (s.v vd) 32))
    .ok t.step4)

/-- Address of element `i` in a row (R284). -/
def State.rowAddr (s : State) (xb : Reg) (i : Nat) : Word := s.x xb + word (4 * i)
/-- Strided (R284). -/
def State.strideAddr (s : State) (xb xs : Reg) (i : Nat) : Word := s.x xb + word i * s.x xs
/-- Indexed (R284). -/
def State.indexAddr (s : State) (xb vi : Reg) (i : Nat) : Word := s.x xb + word (elem (s.v vi) 32 i)

/-- VLD (R284). -/
def execVld (g : Reg3) (vd xb : Reg) (s : State) : Out := s.vload g vd (s.rowAddr xb)
/-- VST (R284). -/
def execVst (g : Reg3) (vd xb : Reg) (s : State) : Out := s.vstore g vd (s.rowAddr xb)
/-- VLDS (R284). -/
def execVlds (g : Reg3) (vd xb xs : Reg) (s : State) : Out := s.vload g vd (s.strideAddr xb xs)
/-- VSTS (R284). -/
def execVsts (g : Reg3) (vd xb xs : Reg) (s : State) : Out := s.vstore g vd (s.strideAddr xb xs)
/-- VLDX (R284). -/
def execVldx (g : Reg3) (vd xb vi : Reg) (s : State) : Out := s.vload g vd (s.indexAddr xb vi)
/-- VSTX (R284). -/
def execVstx (g : Reg3) (vd xb vi : Reg) (s : State) : Out := s.vstore g vd (s.indexAddr xb vi)

/-! ### VLDF (R286) -/

/-- What the offset in the bank must be a multiple of. -/
def vldfAlign (mf wd : Nat) : Nat :=
  match mf with
  | 1 => 1 | 2 => 2 | 3 => 4 | 4 => 1 | 5 => 4 | 6 => 2 | 7 => 2 | 8 => 1 | 9 => 1 | 10 => 32 | 11 => 16
  | _ => wd / 8

/-- The first source element. -/
def vldfFirst (mf o : Nat) : Nat := o * 8 / mfBits mf

/-- The bytes of the bank that element `i` is read from. -/
def vldfBytes (mf wd sbase o i : Nat) : List Nat :=
  if mf = 0 then (List.range (wd / 8)).map (fun j => o + i * (wd / 8) + j) else bankBytes mf sbase (vldfFirst mf o + i)

/-- Element `i` of the destination. -/
def vldfElem (rd : Nat → Nat) (f : Fmt) (mf sbase o i : Nat) : Nat :=
  if mf = 0 then bytesNat rd (o + i * (f.width / 8)) (f.width / 8)
  else f.round .rne false (bankVal rd mf sbase (vldfFirst mf o + i))

/-- VLDF (R286). -/
def execVldf (g : Reg3) (ty : FTy) (vd xb : Reg) (s : State) : Out :=
  finish s (do
    let va := s.x xb
    let off := bits va 31 0
    let f := FTyFmt ty
    check (bits va 63 32 = 0xFF00 && off < 0x50000) 5 va
    let k := off / 0x8000
    let o := off % 0x8000
    let r := tget 0 (s.core s.lcore).fmt k
    let mf := fmtFmt r
    check (o % vldfAlign mf f.width = 0) 4 va
    check (s.bankOk s.cur k) 5 va
    let is := active (s.p g) (2048 / f.width)
    let bs := (is.flatMap (vldfBytes mf f.width (fmtSbase r) o)).foldl insertNew []
    let base := va - word o
    match bs.find? (fun b => 0x8000 ≤ b) with
    | some b => .error (.trap 5 (base + word b))
    | none =>
      let (vs, t) ← s.loads 1 (bs.map (fun b => base + word b))
      let rd := valueAt 0 bs vs
      .ok ((t.setV vd (packV f.width (fun i =>
        if (s.p g).getLsbD i then vldfElem rd f mf (fmtSbase r) o i else elem (s.v vd) f.width i))).step4))

end Sys2Proof.Machine
end

