-- ==== Sys2Proof/Machine/Chunk.lean ====
section
/-! DEFINITION. Squashes and reservations (R140, R143), waking a context and what waits in its interface (R58, R77), the end of a pre-emption request that fails, and closing a chunk
where the device inserts a bound. -/

namespace Sys2Proof.Machine

/-! ### Reservations (R143) -/

/-- A reservation that no active one hinders occupies its slices. -/
def wakeResv (now : Nat) (rs : List Reserve) (r : Reserve) : Reserve :=
  if r.active || rs.any (fun q => q.active && (slicesOf q.lines).any (fun a => (slicesOf r.lines).contains a)) then r
  else { r with active := true, since := now }

/-- Occupy slices in the order of the reservations. -/
def wakeResvs (now : Nat) : List Reserve → List Reserve → List Reserve
  | done, [] => done
  | done, r :: rs => wakeResvs now (done ++ [wakeResv now (done ++ rs) r]) rs

/-- Reservations that wait for slices occupy them when they can, and end 10 µs after they began. -/
def State.settleResvs (s : State) : State :=
  let old := s.thallus.resvs
  let new := wakeResvs s.gtime [] old
  let s := { s with thallus := { s.thallus with resvs := new } }
  new.foldl (fun s r => if r.active && !(old.any (fun q => q.h = r.h && q.active)) then
      s.after 10000 (.reservationTimeout r.h r.since) else s) s

/-- The reservation of a context ends. -/
def State.dropResv (s : State) (h : Nat) : State :=
  if s.thallus.resvs.any (fun r => r.h = h) then
    ({ s with thallus := { s.thallus with resvs := s.thallus.resvs.filter (fun r => r.h != h) } }).settleResvs.poke .grant
  else s

/-- A context reserves after the third squash of one chunk in a row; a reservation of it that does not hold some of the lines gives way. -/
def State.reserve (s : State) (h : Nat) (lines : List Nat) : State :=
  if s.thallus.resvs.any (fun r => r.h = h && lines.all r.lines.contains) then s
  else
    let s := s.dropResv h
    ({ s with thallus := { s.thallus with
      resvs := s.thallus.resvs ++ [(Reserve.mk h lines false 0)] } }).settleResvs

/-! ### Squash (R140) -/

/-- The state a context that waited takes up again: Draining when a pre-emption request stands (R109), in a halt not before the sorus
resumes (R422). -/
def State.runSt (s : State) (h : Nat) : CtxSt :=
  if (s.aux h).preqs.isEmpty || (s.sx (h / 64)).halted then .running else .draining

/-- Whether a chunk holds the declaration of an ordered task. -/
def Chunk.declares (k : Chunk) : Bool := k.held.any (fun i => match i with | .otdecl _ _ _ => true | _ => false)

/-- The tile operations a chunk holds. -/
def Chunk.tileIds (k : Chunk) : List Nat :=
  k.held.filterMap (fun i => match i with | .tile t => some t.id | .copy c _ _ => c.follow.map (·.id) | _ => none)

/-- The lines of the squashed attempts of a chunk, this one included (R143). -/
def Chunk.tried (k : Chunk) : List Nat := (k.rset ++ k.wset).foldl insertNew k.sqLines

/-- What the chunk before `k` keeps of it where both are squashed (R143). -/
def Chunk.kept (k : Chunk) : Nat × List Nat :=
  if k.n = 0 && k.held.isEmpty then (k.sq, k.sqLines) else (k.sq + 1, k.tried)

/-- The chunk that re-executes after a squash of `k`, with what is kept of the chunk after it. -/
def Chunk.again (k : Chunk) (nx : Nat × List Nat) : Chunk :=
  { ck := k.ck, sq := k.sq + 1, sqLines := k.tried, replays := k.replays, next := nx }

/-- The lines that the context of a squashed chunk reserves: those of it and of the chunk after it, of each that has been squashed three
times in a row (R143). -/
def Chunk.reserves (k : Chunk) : List Nat :=
  (if 3 ≤ k.next.1 then k.next.2 else []).foldl insertNew (if 3 ≤ k.sq then k.sqLines else [])

/-- Whether an operation of a context awaits admission (R73). -/
def State.awaitsAdm (s : State) (h : Nat) : Bool := (s.sorus (h / 64)).admq.any (fun r => r.h = h)

/-- The context restores the checkpoint of the squashed chunk and executes it afresh; a wait of it is cancelled (R253), and
so is a trap that waited for it (R427); while a committed operation awaits admission (`adm`) it waits for that (R73, R312). -/
def Ctx.back (c : Ctx) (run : CtxSt) (k : Chunk) (nx : Nat × List Nat) (older : Option Chunk) (undeclare adm : Bool) : Ctx :=
  { c with
    st := if c.st = .waiting && !adm then run else c.st
    wait := if adm then .admission else .none
    waitOk := adm
    pc := k.ck.pc
    regs := k.ck.regs
    shadow := k.ck.shadow
    pend := k.ck.pend
    young := { k.again nx with hor := c.floor }
    older := older
    sync := false
    trapReq := none
    firing := c.firing.map (fun f => if undeclare then { f with order := none } else f) }

/-- The chunk that a squash of context `h` re-executes, with what stays uncommitted before it and whether the task's
declaration is squashed. -/
def Ctx.squashed (c : Ctx) (both : Bool) : Chunk × Option Chunk × Bool :=
  match c.older with
  | some o => if both then (o, none, o.declares || c.young.declares) else (c.young, some o, c.young.declares)
  | none => (c.young, none, c.young.declares)

/-- The instructions of the squashed work. -/
def Ctx.lostInstrs (c : Ctx) (both : Bool) : Nat :=
  c.young.n + (if both then (match c.older with | some o => o.n | none => 0) else 0)

/-- The tile operations of the squashed work. -/
def Ctx.lostTiles (c : Ctx) (both : Bool) : List Nat :=
  c.young.tileIds ++ (if both then (match c.older with | some o => o.tileIds | none => []) else [])

/-- The row groups that a chunk newly claims (R305). -/
def Chunk.claims (k : Chunk) : List Nat :=
  k.held.flatMap (fun i => match i with | .tile t => (match t.kind with | .aclr _ _ _ fresh => fresh | _ => []) | _ => [])

/-- The row groups that the squashed work newly claims. -/
def Ctx.lostClaims (c : Ctx) (both : Bool) : List Nat :=
  c.young.claims ++ (if both then (match c.older with | some o => o.claims | none => []) else [])

/-- The number of messages a chunk holds. -/
def Chunk.messages (k : Chunk) : Nat := (k.held.filter (fun i => match i with | .message _ _ _ _ _ => true | _ => false)).length

/-- The messages of the squashed work. -/
def Ctx.lostMessages (c : Ctx) (both : Bool) : Nat :=
  c.young.messages + (if both then (match c.older with | some o => o.messages | none => 0) else 0)

/-- The in-flight table without its first `n` held messages. -/
def dropMessages : List InfEnt → Nat → List InfEnt
  | l, 0 => l
  | [], _ => []
  | e :: es, n + 1 => if e.kind = 5 then dropMessages es n else e :: dropMessages es (n + 1)

/-- Whether the chunk that a squash would hit is bare: nothing of it has been executed. -/
def Ctx.bare (c : Ctx) (both : Bool) : Bool := c.clean || (!both && c.young.n = 0 && c.young.held.isEmpty)

/-- The read ports that a squash has restored fetch again from where they stand (R328, R344). -/
def State.refetch (s : State) (h : Nat) : State :=
  (s.ctx h).shadow.ports.foldl (fun s p =>
    if p.2.dir || (tget? (s.aux h).fetch p.1).any (fun f => f.flying != 0) then s else s.poke (.streamFetchReturn h p.1)) s

/-- Squash the executing chunk of context `h` and, with `both`, the one that awaits its commit (R140). -/
def State.squash (s : State) (h : Nat) (both : Bool) : State :=
  let c := s.ctx h
  if c.bare both then s
  else
    let (k, rest, und) := c.squashed both
    let nx := if both && c.older.isSome then c.young.kept else k.next
    let lost := c.lostTiles both
    let a := s.aux h
    let t := s.thallus
    let s := { s with thallus := if both then { t with
        requests := t.requests.filter (fun r => r.h != h)
        pending := t.pending.filter (fun p => p.2 != h) } else t }
    let gs := c.lostClaims both
    let w := s.core (h / 4)
    let s := if gs.isEmpty then s else s.setCore (h / 4) { w with rowOwn := w.rowOwn.filter (fun p => !gs.contains p.1) }
    let s := s.trace h 4 k.ck.pc
    let s := s.capEvent h 3 (c.lostChunks both)
    let a := { s.aux h with
      drainFrom := a.drainFrom - (if c.st = .draining then c.lostInstrs both else 0)
      tiles := a.tiles.filter (fun i => !lost.contains i)
      unfIssued := a.unfIssued.filter (fun p => !lost.contains p.1)
      infl := (dropMessages a.infl.reverse (c.lostMessages both)).reverse }
    let s := (s.setCtx h (c.back (s.runSt h) k nx rest und (s.awaitsAdm h))).setAux h a
    let s := match c.firing with | some f => if c.st = CtxSt.waiting && c.wait.detected then s.dlReset f else s | none => s
    let q := k.again nx
    let s := if 3 ≤ q.sq || 3 ≤ q.next.1 then s.reserve h q.reserves else s
    let s := s.refetch h
    if both then s.poke .grant else s

/-! ### Bounds that the device inserts -/

/-- Close the chunk of context `h`, and issue nothing until it has committed. -/
def State.closeChunk (s : State) (h : Nat) : State :=
  let c := s.ctx h
  if c.clean || c.sync then s
  else
    let s := s.setCtx h { c with sync := true }
    if c.young.n = 0 && c.young.held.isEmpty then s else s.endChunk h

/-- The pre-emption requests of a firing are refused and it runs on (R109). -/
def State.refuseDrain (s : State) (h code : Nat) : State :=
  let c := s.ctx h
  (s.setCtx h { c with st := if c.st = .draining then .running else c.st }).preqsDone h code

/-! ### Waking -/

/-- A Waiting context whose wait has ended leaves it (R77), unless an operation of it still awaits admission (R73). One that is
being saved or restored will be Running. -/
def State.wakeNow (s : State) (h : Nat) : State :=
  let c := s.ctx h
  if c.st = .saving || c.st = .restoring then s.setCtx h { c with wait := .none, waitOk := false }
  else if c.st != .waiting then s
  else if c.wait != .admission && s.awaitsAdm h then
    s.setCtx h { c with wait := .admission, waitOk := true }
  else
    let s := s.setCtx h { c with st := s.runSt h, wait := .none, waitOk := false }
    match c.firing with | some f => s.dlReset f | none => s

/-- The end of a wait that another unit sends reaches its context; while its sorus is halted or its clock is paused it waits in the
interface (R49, R58, R412). -/
def State.wake (s : State) (h : Nat) : State := if s.quiet (h / 64) then s.inbound h .wake else s.wakeNow h

/-- A wait ends that the sorus itself ends: a time, counts, a ticket. A halt does not hold it. -/
def State.wakeHere (s : State) (h : Nat) : State := if s.paused (h / 64) then s.inbound h .wake else s.wakeNow h

/-- A context goes on once none of its operations awaits admission (R73, R312). -/
def State.admitNow (s : State) (h : Nat) : State :=
  let c := s.ctx h
  if c.wait = .admission && !s.awaitsAdm h then s.setCtx h { c with st := s.runSt h, wait := .none, waitOk := false } else s

/-- A context Waiting in WAITC leaves it: the WAITC stands to be issued again (R446, R450). -/
def State.leaveWaitc (s : State) (h : Nat) : State :=
  let c := s.ctx h
  match c.wait with
  | .counts _ _ _ _ =>
    if c.st = .waiting && c.waitOk then
      let c := { c with st := s.runSt h, wait := .none, waitOk := false, pc := c.pc - 4 }
      s.setCtx h { c with young := { c.young with ck := { c.young.ck with pc := c.pc } } }
    else s
  | _ => s

/-- COPYLATE is raised on a context (R450). -/
def State.lateNow (s : State) (h : Nat) (v : Word) : State :=
  (s.setAux h { s.aux h with lates := (s.aux h).lates ++ [v] }).leaveWaitc h

/-- What has waited in the interface for context `h` reaches it, in order (R58). -/
def State.takeInbound (s : State) (h : Nat) : State :=
  (s.aux h).inq.foldl (fun s i => match i with
    | .answer id a ver => s.setCtx h ((s.ctx h).answer id a ver)
    | .wake => s.wakeNow h
    | .letIn => s.admitNow h
    | .ei v => s.eiNow h v
    | .late v => s.lateNow h v) (s.setAux h { s.aux h with inq := [] })

/-- What has waited for the contexts of a sorus reaches them, if it takes traffic again (R49, R412). -/
def State.takeAll (s : State) (n : Nat) : State :=
  if s.quiet n then s
  else (List.range 64).foldl (fun s c => if (s.aux (64 * n + c)).inq.isEmpty then s else s.takeInbound (64 * n + c)) s

/-! ### The checker (R434) -/

/-- `n` mismatches in a row strike the next retirement of context `h` (R434): the check itself, then replays, of which the third is the
last. A replay issues the instruction again and counts in the capture counters and in the error log (log 33), and changes nothing else;
when all have failed the chunk is squashed, and after a second run in the same chunk the firing is killed. -/
def State.checkerStrike (s : State) (h n : Nat) : State :=
  match (s.ctx h).firing with
  | none => s
  | some f =>
    if n = 0 || !((s.ctx h).st = .running || (s.ctx h).st = .draining) then s
    else
      let s := (List.range (min n 3)).foldl (fun s _ => s.elog 1 f.slot (h / 4) 0 0) (s.capEvent h 1 (min n 3))
      let c := s.ctx h
      if n < 4 then s
      else if 1 ≤ c.young.replays then s.killByHardware h 3
      else if c.bare false then
        let s := (s.trace h 4 c.young.ck.pc).capEvent h 3 1
        let s := s.setCtx h { c with young := { c.young with replays := 1, sq := c.young.sq + 1 } }
        if 3 ≤ c.young.sq + 1 then s.reserve h c.young.sqLines else s
      else (s.setCtx h { c with young := { c.young with replays := 1 } }).squash h false

end Sys2Proof.Machine
end

