-- ==== Sys2Proof/Machine/Waits.lean ====
section
/-! DEFINITION. What the instructions that hold a request have in common: waits (R252, R253), a request with an answer
(R333, R359), the checks of level and class (R89, R250), the in-flight table (R415). -/

namespace Sys2Proof.Machine

/-- PRIV below a level (R250). -/
def State.needs (s : State) (p : Priv) (i : Instr) : Except Stop Unit :=
  check (s.atLeast p) 24 (word (wordOf i).toNat)

/-- ILLISSUE 1 in a run-to-completion firing (R89). -/
def State.notRtc (s : State) (i : Instr) : Except Stop Unit := require (!s.isRtc) 1 i

/-- Note an asynchronous operation for the in-flight table (R415). -/
def State.note (s : State) (kind reg target ref : Nat) : State :=
  let a := s.aux s.cur
  s.setAux s.cur { a with infl := a.infl ++ [(InfEnt.mk kind reg target s.gtime ref)] }

/-- A request with an answer: a number for it, and the register that awaits it. -/
def State.ask (s : State) (d : Reg) : Nat × State :=
  let (id, t) := s.newId
  (id, t.await d.toNat id)

/-- The context is Waiting from the issue of the wait on; it may leave once the wait's chunk has committed (R253). The in-flight table
keeps no earlier wait of it (R415); `id` numbers the arrival that the wait belongs to. -/
def State.beginWait (s : State) (w : WaitFor) (id : Nat := 0) : State :=
  let t := (s.hold .wait).advance (s.hart.pc + 4)
  let a := t.aux t.cur
  let t := (t.setAux t.cur { a with infl := a.infl.filter (fun e => e.kind != 6) }).note 6 0 0 id
  let t := t.setHart { t.hart with st := .waiting, wait := w, waitOk := false }
  t.endChunk t.cur

/-- Whether an entry of the in-flight table is still under way (R415). A wait for admission is no operation of its own; an arrival whose
result no register takes is under way while its wait is; an update of a barrier object until the barrier unit has applied it. -/
def State.inflLive (s : State) (h : Nat) (e : InfEnt) : Bool :=
  let c := s.ctx h
  let heldAny (p : Held → Bool) : Bool :=
    c.young.held.any p || (match c.older with | some o => o.held.any p | none => false) || c.carry.any p
  let waits : Bool := c.wait != .none && c.wait != .admission
  match e.kind with
  | 2 => thas s.flight.copies e.ref || heldAny (fun i => match i with | .copy k _ _ => k.id = e.ref | _ => false)
  | 3 => (s.aux h).tiles.contains e.ref
  | 4 => s.flight.reqs.any (fun p => p.2.id = e.ref) ||
      heldAny (fun i => match i with | .atomic id _ _ _ _ _ => id = e.ref | _ => false)
  | 5 => true
  | 6 => waits
  | 7 => c.pend.any (fun p => p.id = e.ref) || (waits && (s.aux h).infl.any (fun w => w.kind = 6 && w.ref = e.ref)) ||
      heldAny (fun i => match i with | .bar u => u.id = e.ref | _ => false) ||
      s.sori.any (fun x => x.2.barq.any (fun r => r.upd.id = e.ref))
  | _ => false

/-- The in-flight table of a context, oldest first (R415). A chunk that awaits its commit counts as issued when it ended (log 93), after
its own operations. -/
def State.inflTable (s : State) (h : Nat) : List InfEnt :=
  let l := (s.aux h).infl.filter (s.inflLive h)
  match (s.ctx h).older with
  | some o => l.takeWhile (fun e => e.time ≤ o.since) ++ InfEnt.mk 1 0 0 o.since 0 :: l.dropWhile (fun e => e.time ≤ o.since)
  | none => l

end Sys2Proof.Machine
end

