-- ==== Sys2Proof/Machine/Accum.lean ====
section
/-! DEFINITION. Accumulator registers (R292 to R295) and the sorus exchange (R296 to R298). -/

namespace Sys2Proof.Machine

/-- An accumulator register of 128 lanes. -/
def packA (f : Nat → Nat) : AReg := BitVec.ofNat 4096 (packNat 32 f 128)

/-- The sources of lane `i` in the order of R293: a and b of each product. -/
def macSources (f : Fmt) (k i : Nat) (a b : Nat → Nat) : List (Val × Val) :=
  (List.range k).map (fun j => (f.decode (a (k * i + j)), f.decode (b (k * i + j))))

/-- A float lane after `k` fused products (R293). -/
def macFloat (f : Fmt) (k i : Nat) (a b : Nat → Nat) (c : Nat) : Nat :=
  let ps := macSources f k i a b
  let old := Fmt.decode .f32 c
  Fmt.result .f32 (ps.flatMap (fun p => [p.1, p.2]) ++ [old]) (sumVals (ps.map (fun p => p.1.mul p.2) ++ [old]))

/-- An integer lane after `k` products; it wraps (R293). -/
def macInt (w k i : Nat) (a b : Nat → Nat) (c : Nat) : Nat :=
  fromInt 32 ((List.range k).foldl (fun t j => t + toSigned w (a (k * i + j)) * toSigned w (b (k * i + j))) (toSigned 32 c))

/-- A multiply-add form over groups (R293). -/
def State.mac (s : State) (ad : Reg3) (va vb : Reg) (w : Nat) (lane : Nat → (Nat → Nat) → (Nat → Nat) → Nat → Nat) : State :=
  let g := s.hart.regs
  let old := s.acc ad
  (s.setAcc ad (packA (fun i => lane i (g.gelem va.toNat w) (g.gelem vb.toNat w) (elem old 32 i)))).step4

/-- VMACC (R293). -/
def execVmacc (ty : MacTy) (ad : Reg3) (va vb : Reg) (s : State) : Out :=
  .next (s.mac ad va vb 16 (macFloat (match ty with | .bf16 => .bf16 | .f16 => .f16) 1))

/-- VDOT2 (R293). -/
def execVdot2 (ty : Dot2Ty) (ad : Reg3) (va vb : Reg) (s : State) : Out :=
  finish s (do
    overlap (va.toNat + 2 ≤ 32 && vb.toNat + 2 ≤ 32) (.vdot2 ty ad va vb)
    .ok (s.mac ad va vb 16 (match ty with
      | .bf16 => macFloat .bf16 2
      | .f16 => macFloat .f16 2
      | .i16 => macInt 16 2)))

/-- VDOT4 (R293). -/
def execVdot4 (ty : Dot4Ty) (ad : Reg3) (va vb : Reg) (s : State) : Out :=
  finish s (do
    overlap (va.toNat + 2 ≤ 32 && vb.toNat + 2 ≤ 32) (.vdot4 ty ad va vb)
    .ok (s.mac ad va vb 8 (match ty with
      | .e4m3 => macFloat .e4m3 4
      | .e5m2 => macFloat .e5m2 4
      | .i8 => macInt 8 4)))

/-- A lane narrowed to a type (R294, R316). -/
def narrowLane (ty : Ty3) (mode : RMode) (sat : Bool) (c : Nat) : Nat :=
  match Ty3Fmt ty with
  | some f => f.round mode sat (Fmt.decode .f32 c)
  | none => fromInt (Ty3Width ty) (satInt (Ty3Width ty) (toSigned 32 c))

/-- VNARROW (R294). -/
def execVnarrow (ty : Ty3) (sat : Bool) (vd : Reg) (aa : Reg3) (s : State) : Out :=
  finish s (do
    let w := Ty3Width ty
    let n := if w = 32 then 2 else 1
    overlap (vd.toNat + n ≤ 32) (.vnarrow ty sat vd aa)
    let acc := s.acc aa
    .ok (s.setRegs (s.hart.regs.putGroup vd.toNat w
      (fun i => if i < 128 then narrowLane ty .rne sat (elem acc 32 i) else 0) n)).step4)

/-- ACCZ (R295). -/
def execAccz (ad : Reg3) (s : State) : Out := s.putA ad 0

/-- The addresses of the 128 lanes at a base. -/
def laneAddrs (va : Word) : List Word := (List.range 128).map (fun i => va + word (4 * i))

/-- ACCST (R295). -/
def execAccst (sa : Reg3) (xb : Reg) (s : State) : Out :=
  finish s (do
    check ((s.x xb).toNat % 64 = 0) 6 (s.x xb)
    let t ← s.stores 4 (laneAddrs (s.x xb)) ((List.range 128).map (elem (s.acc sa) 32))
    .ok t.step4)

/-- ACCLD (R295). -/
def execAccld (ad : Reg3) (xb : Reg) (s : State) : Out :=
  finish s (do
    check ((s.x xb).toNat % 64 = 0) 4 (s.x xb)
    let (vs, t) ← s.loads 4 (laneAddrs (s.x xb))
    .ok ((t.setAcc ad (packA (fun i => vs.getD i 0))).step4))

/-- VXCHG: the contribution is latched, the context waits, and vd awaits the exchange (R297). -/
def execVxchg (vd va : Reg) (s : State) : Out :=
  finish s (do
    s.notRtc (.vxchg vd va)
    let (id, t) := s.newId
    let t := (t.await (32 + vd.toNat) id).hold (.xchg id vd.toNat (s.v va))
    .ok ((t.note 7 0 0 id).beginWait .xchg id))

end Sys2Proof.Machine
end

