-- ==== Sys2Proof/Machine/Atomic.lean ====
section
/-! DEFINITION. Remote atomics at their requester (R355 to R361) and the update-log append (R364). -/

namespace Sys2Proof.Machine

/-- The place of a remote atomic's datum: its memory key, or the import slot and the offset in its window (R402). -/
structure AtomPlace where
  key : Nat
  slot : Option Nat
  deriving DecidableEq, Repr

/-- The offset in an import window that a leaf and an address name (R402). -/
def windowOffset (l : Leaf) (va : Word) : Nat := (bits l.pte 31 12 * 4096 + va.toNat % 2 ^ l.size) % 2 ^ 32

/-- A translated datum (R355): readable and writable, on a page of device memory or of an import window. -/
def State.atomicPage (s : State) (va : Word) : Except Nat AtomPlace :=
  match s.hart.firing with
  | none => .error 7
  | some f =>
    match s.leafOf (s.cur / 64) f.part va with
    | none => .error 15
    | some l =>
      if !leafGrants l.pte .atomic then .error 15
      else if bit l.pte 63 then .error 7
      else if pteWindow l.pte then .ok { key := windowOffset l va, slot := some (bits l.pte 42 32) }
      else .ok { key := devKey (pteAddr l.pte + va.toNat % 2 ^ l.size), slot := none }

/-- The places a datum may lie in (R355), or the cause of the fault. -/
def State.atomicPlace (s : State) (va : Word) : Except Nat AtomPlace :=
  let h := s.cur
  if bits va 63 48 != 0 then .error 7
  else if bits va 47 40 = 0xFE then
    let T := bits va 39 20
    let off := bits va 19 0
    let k := s.bank T (off / 0x8000)
    if T < 2560 && off < 0x50000 && s.present T && s.partOf T = s.partOf (h / 4) && (s.partOf T).isSome &&
        (k.own.isSome || k.retain.isSome) then .ok { key := spadKey T off, slot := none }
    else .error 7
  else if bits va 47 40 = 0xFF then
    if 2 ≤ bits va 39 32 then .error 7
    else (s.resolveLocal h .atomic va).map (fun p => { key := p.key, slot := none })
  else s.atomicPage va

/-- Whether a request is idempotent (R360): the no-return form of the bitwise and, or, and of the minima and maxima. -/
def idempotent (op : Nat) (nr : Bool) : Bool :=
  nr && (op = 1 || op = 2 || (4 ≤ op && op ≤ 7) || op = 11 || op = 12)

/-- The non-idempotent requests of the current firing outstanding or committed and not yet sent on (R361). -/
def State.outstanding (s : State) : Nat :=
  match s.hart.firing with
  | none => 0
  | some f => (s.flight.reqs.filter (fun p => p.2.fid = f.fid && p.2.nonIdem)).length

/-- The non-idempotent requests that the chunk awaiting its commit holds. -/
def Ctx.heldNonIdem (c : Ctx) : Nat := match c.older with | some o => o.nonIdem | none => 0

/-- The non-idempotent requests that the executing chunk holds, with those that a run-to-completion firing keeps from earlier chunks until
the one that holds its HALT (R89). -/
def Ctx.ownNonIdem (c : Ctx) : Nat :=
  c.young.nonIdem +
    (c.carry.filter (fun i => match i with | .atomic _ _ a _ _ _ => !idempotent a.op a.nr | _ => false)).length

/-- Whether the issue stalls that would take the firing past 32 requests outstanding (R361). -/
def State.mayRequest (s : State) : Except Stop Unit :=
  if 32 ≤ s.outstanding + s.hart.heldNonIdem + s.hart.ownNonIdem then .error (.stall s) else .ok ()

/-- A remote atomic (R355 to R361): `op` is the code of R229, `narrow` the 32-bit width. The operands are read at issue; the
return form's register awaits the reply. It ends no chunk. -/
def State.remote (s : State) (i : Instr) (narrow : Bool) (op : Nat) (nr : Bool) (xd xv xa : Reg) : Out :=
  finish s (do
    let va := s.x xa
    let non := !idempotent op nr
    require (nr || !s.isRtc) 1 i
    require (!(non && 32 ≤ s.hart.ownNonIdem)) 5 i
    check (va.toNat % (if narrow then 4 else 8) = 0) 6 va
    match s.atomicPlace va with
    | .error c => .error (.trap c va)
    | .ok pl =>
      if non then s.mayRequest else .ok ()
      let a : AtomicOp := { op := op, narrow := narrow, nr := nr, v := s.x xv, e := s.x xd }
      let (id, t) := if nr then s.newId else s.ask xd
      let t := t.hold (.atomic id (if nr then 0 else xd.toNat) a pl.key pl.slot va)
      let t := t.note 4 (if nr then 0 else xd.toNat) 0 id
      let y := t.hart.young
      let t := t.setHart { t.hart with young := { y with nonIdem := y.nonIdem + (if non then 1 else 0) } }
      .ok t.step4)

/-- RMADD (R356). -/
def execRmadd (nr : Bool) (xd xv xa : Reg) (s : State) : Out := s.remote (.rmadd nr xd xv xa) false 0 nr xd xv xa
/-- RMAND (R356). -/
def execRmand (nr : Bool) (xd xv xa : Reg) (s : State) : Out := s.remote (.rmand nr xd xv xa) false 1 nr xd xv xa
/-- RMOR (R356). -/
def execRmor (nr : Bool) (xd xv xa : Reg) (s : State) : Out := s.remote (.rmor nr xd xv xa) false 2 nr xd xv xa
/-- RMXOR (R356). -/
def execRmxor (nr : Bool) (xd xv xa : Reg) (s : State) : Out := s.remote (.rmxor nr xd xv xa) false 3 nr xd xv xa
/-- RMMIN (R356). -/
def execRmmin (nr : Bool) (xd xv xa : Reg) (s : State) : Out := s.remote (.rmmin nr xd xv xa) false 4 nr xd xv xa
/-- RMMAX (R356). -/
def execRmmax (nr : Bool) (xd xv xa : Reg) (s : State) : Out := s.remote (.rmmax nr xd xv xa) false 5 nr xd xv xa
/-- RMMINU (R356). -/
def execRmminu (nr : Bool) (xd xv xa : Reg) (s : State) : Out := s.remote (.rmminu nr xd xv xa) false 6 nr xd xv xa
/-- RMMAXU (R356). -/
def execRmmaxu (nr : Bool) (xd xv xa : Reg) (s : State) : Out := s.remote (.rmmaxu nr xd xv xa) false 7 nr xd xv xa
/-- RMSWAP (R356). -/
def execRmswap (nr : Bool) (xd xv xa : Reg) (s : State) : Out := s.remote (.rmswap nr xd xv xa) false 8 nr xd xv xa
/-- RMCAS (R356): register D also holds the expected value. -/
def execRmcas (nr : Bool) (xd xv xa : Reg) (s : State) : Out := s.remote (.rmcas nr xd xv xa) false 9 nr xd xv xa
/-- RMADD.I32 (R356). -/
def execRmaddI32 (nr : Bool) (xd xv xa : Reg) (s : State) : Out := s.remote (.rmaddI32 nr xd xv xa) true 0 nr xd xv xa
/-- RMAND.I32 (R356). -/
def execRmandI32 (nr : Bool) (xd xv xa : Reg) (s : State) : Out := s.remote (.rmandI32 nr xd xv xa) true 1 nr xd xv xa
/-- RMOR.I32 (R356). -/
def execRmorI32 (nr : Bool) (xd xv xa : Reg) (s : State) : Out := s.remote (.rmorI32 nr xd xv xa) true 2 nr xd xv xa
/-- RMXOR.I32 (R356). -/
def execRmxorI32 (nr : Bool) (xd xv xa : Reg) (s : State) : Out := s.remote (.rmxorI32 nr xd xv xa) true 3 nr xd xv xa
/-- RMMIN.I32 (R356). -/
def execRmminI32 (nr : Bool) (xd xv xa : Reg) (s : State) : Out := s.remote (.rmminI32 nr xd xv xa) true 4 nr xd xv xa
/-- RMMAX.I32 (R356). -/
def execRmmaxI32 (nr : Bool) (xd xv xa : Reg) (s : State) : Out := s.remote (.rmmaxI32 nr xd xv xa) true 5 nr xd xv xa
/-- RMMINU.I32 (R356). -/
def execRmminuI32 (nr : Bool) (xd xv xa : Reg) (s : State) : Out := s.remote (.rmminuI32 nr xd xv xa) true 6 nr xd xv xa
/-- RMMAXU.I32 (R356). -/
def execRmmaxuI32 (nr : Bool) (xd xv xa : Reg) (s : State) : Out := s.remote (.rmmaxuI32 nr xd xv xa) true 7 nr xd xv xa
/-- RMSWAP.I32 (R356). -/
def execRmswapI32 (nr : Bool) (xd xv xa : Reg) (s : State) : Out := s.remote (.rmswapI32 nr xd xv xa) true 8 nr xd xv xa
/-- RMCAS.I32 (R356). -/
def execRmcasI32 (nr : Bool) (xd xv xa : Reg) (s : State) : Out := s.remote (.rmcasI32 nr xd xv xa) true 9 nr xd xv xa
/-- RMFADD (R356). -/
def execRmfadd (nr : Bool) (xd xv xa : Reg) (s : State) : Out := s.remote (.rmfadd nr xd xv xa) true 10 nr xd xv xa
/-- RMFMIN (R356). -/
def execRmfmin (nr : Bool) (xd xv xa : Reg) (s : State) : Out := s.remote (.rmfmin nr xd xv xa) true 11 nr xd xv xa
/-- RMFMAX (R356). -/
def execRmfmax (nr : Bool) (xd xv xa : Reg) (s : State) : Out := s.remote (.rmfmax nr xd xv xa) true 12 nr xd xv xa

/-- The cause of the fault a LOGAPP target meets: no writable translation, a host or a window page, another region (R364). -/
def State.logTarget (s : State) (n p : Nat) (va : Word) : Except Nat Nat :=
  if bits va 63 48 != 0 || 0xFE ≤ bits va 47 40 then .error 7
  else match s.leafOf n p va with
    | none => .error 15
    | some l =>
      if !bit l.pte 4 then .error 15
      else if bit l.pte 63 || pteWindow l.pte then .error 7
      else .ok (devKey (pteAddr l.pte + va.toNat % 2 ^ l.size))

/-- LOGAPP (R364). -/
def execLogapp (xa xv : Reg) (s : State) : Out :=
  finish s (do
    let va := s.x xa
    require (bits (s.x xv) 63 33 = 0) 2 (.logapp xa xv)
    check (va.toNat % 4 = 0) 6 va
    match s.logTarget (s.cur / 64) ((s.hart.firing.map (·.part)).getD 0) va with
    | .error c => .error (.trap c va)
    | .ok _ => .ok ((s.hold (.logapp va (s.x xv))).step4))

end Sys2Proof.Machine
end

