-- ==== Sys2Proof/Machine/Time.lean ====
section
/-! DEFINITION. Time and turns: how wall time passes and what falls due (R51, R59), whose turn it is to issue, and the turns
that the surroundings choose (log 7, log 9). -/

namespace Sys2Proof.Machine

/-- Whether a context cannot issue for a reason outside it: its sorus is halted for debug and it is not the one to be
stepped (R412, R413), its clock is paused (R49), the module has stopped (R469). -/
def State.frozen (s : State) (h : Nat) : Bool :=
  s.hub.stopped || s.paused (h / 64) || ((s.sx (h / 64)).halted && (s.sx (h / 64)).stepping != some h)

/-- Whether a context can be given the turn. -/
def State.runnable (s : State) (h : Nat) : Bool :=
  let c := s.ctx h
  (c.st = .running || c.st = .draining) && !s.frozen h

/-- The contexts that can be given the turn. -/
def State.runnables (s : State) : List Nat := (s.ctxs.map (·.1)).filter s.runnable

/-- The core cycles that the last `n` nanoseconds gave context `h`, counted by its capture counters (R419). -/
def State.capTime (s : State) (h n : Nat) : State :=
  if (s.aux h).capOn = 0 then s
  else
    let c := s.cyclesAt (h / 4) s.gtime - s.cyclesAt (h / 4) (s.gtime - n)
    match (s.ctx h).st with
    | .running => s.capEvent h 0 c
    | .waiting => if (s.ctx h).wait = .admission then (s.capEvent h 4 c).capEvent h 5 c else s.capEvent h 4 c
    | _ => s

/-- A frond that corrects its copy of the time counter moves it one nanosecond nearer (R470). -/
def slewOne (t : Tab Int) (f : Nat) : Tab Int :=
  let d := tget 0 t f
  tset 0 t f (if 0 < d then d - 1 else if d < 0 then d + 1 else 0)

/-- The waits of R56 that have run out. -/
def State.pokeWaits (s : State) : State :=
  s.ctxs.foldl (fun s p =>
    if p.2.st != .waiting || !p.2.waitOk then s
    else match p.2.wait with
      | .time t => if t ≤ s.localTime (p.1 / 4) && !s.paused (p.1 / 64) then s.poke (.waitTExpiry p.1) else s
      | .cycles n => if n ≤ s.cycles (p.1 / 4) then s.poke (.waitCExpiry p.1) else s
      | _ => s) s

/-- What falls due on the copy of the time of a frond that has just moved ahead of its rate: promises and the times of requests (R471). -/
def State.pokeFrond (s : State) (f : Nat) : State :=
  let s := s.flight.copies.foldl (fun s p =>
    if frondOf (p.2.h / 64) = f && !p.2.late && p.2.promise < s.localTime (p.2.h / 4) then s.poke (.promiseExpiry p.2.h p.1) else s) s
  s.flight.reqs.foldl (fun s p =>
    if frondOf (p.2.core / 16) = f && !p.2.held then (s.poke (.retransmission p.1)).poke (.requestLastDeadline p.1) else s) s

/-- The timers that have run out. -/
def State.pokeTimers (s : State) : State :=
  let due := s.timers.filter (fun p => p.1 ≤ s.gtime)
  { s with timers := s.timers.filter (fun p => !(p.1 ≤ s.gtime)), agenda := s.agenda ++ due.map (·.2) }

/-- The beacons of the hub, sent every 1 µs, and the fronds that have had none for 10 µs (R470, R471). -/
def State.pokeBeacons (s : State) : State :=
  (List.range 8).foldl (fun s f =>
    if !s.fabric.muted.contains f then s.poke (.timeBeacon f)
    else if 10000 ≤ s.gtime - tget 0 s.fabric.lastBeacon f && !s.fabric.lost.contains f then s.poke (.beaconLoss f)
    else s) s

/-- The sori of which a context has trace on and whose SYNC period ends now, on their copy of the time (R418, R60), which stood as in `old`
before. At a permit boundary a copy that is ahead of the hub's counter waits for it, as the levels are set first (R422). -/
def State.pokeSync (s old : State) : State :=
  let ss := s.auxs.foldl (fun l p => if p.2.trace then insertNew l (p.1 / 64) else l) []
  ss.foldl (fun s n =>
    let per := (s.sx n).syncper * 1000
    let now := s.localTime (16 * n)
    if per = 0 || now / per = old.localTime (16 * n) / per then s
    else if s.gtime < now && now / per * per % 10000 = 0 then s.after (now - s.gtime) (.syncPeriod n)
    else s.poke (.syncPeriod n)) s

/-! ### The slope rule (R74) -/

/-- The duty in the next 100 ns: a cut goes as far toward its target as lets the power that the sorus's own work draws with it fall by no
more than SLOPE (R71, R74). -/
def cutDuty (own : Nat → Nat) (target duty draw slope : Nat) : Nat :=
  (((List.range (duty - target)).map (fun i => target + i)).find? (fun d => draw ≤ own d + slope)).getD duty

/-- 100 ns under the slope rule (R74): where the sorus's own work would let the power fall by more than SLOPE, ballast holds it at the bound,
but for no more than 2 µs in one episode; real work displaces it. -/
def SorusSt.slope (x : SorusSt) (own : Nat → Nat) (slope now : Nat) : SorusSt :=
  let d := cutDuty own x.target x.duty x.draw slope
  let held : Bool := own d + slope < x.draw && (!x.ballast || now < x.ballastAt + 2000)
  let draw := if held then x.draw - slope else own d
  { x with
    duty := d
    draw := draw
    drawSum := x.drawSum + draw
    ballast := held
    ballastAt := if x.ballast then x.ballastAt else now
    ballastSum := x.ballastSum + (draw - own d) }

/-- 100 ns of one sorus have passed. -/
def State.slopeSorus (s : State) (n : Nat) : State :=
  let x := s.sorus n
  let y := x.slope (fun d => Config.powerEstimate n s.gtime d % 4096) (bits s.hub.mpwrcfg 23 16) s.gtime
  let s := s.setSorus n y
  if y.ballast && !x.ballast then s.after 2000 (.ballastLimit n) else s

/-- 100 ns of every sorus have passed. -/
def State.slopeAll (s : State) : State := (List.range 160).foldl State.slopeSorus s

/-! ### The passing of time -/

/-- What falls due at a multiple of a period. -/
def State.pokePeriods (s : State) : State :=
  let t := s.gtime
  let s := if t % 100 = 0 && t != 0 then s.slopeAll else s
  let s := if t % 10 = 0 then s.poke .railSample else s
  let s := if t % 40 = 0 then s.poke .tratioWindowEnd else s
  let s := if t % 1000 = 0 then s.pokeBeacons else s
  let s := if t % 10000 = 9500 then s.poke .boostRequestSample else s
  let s := if t % 10000 = 0 then (s.poke .permitBoundary).poke .routerGridPeriod else s
  let s := if t % 1000 = 0 then (s.poke .controllerStep).poke .bucketRefill else s
  if t % 1000000 = 0 then s.poke .partitionControllerStep else s

/-- A slew that has been ordered for a boundary begins once the copy of `GTIME` at the cores of the sorus reads it, with a SYNC
record on each traced core (R60, R418, R471), and once its clock runs (R483). Where the copy is ahead of the hub's counter the slew began
a nanosecond ago. -/
def State.startSlew (s : State) (n : Nat) : State :=
  let x := s.sx n
  match x.slewAt with
  | none => s
  | some (t, goal) =>
    let now := s.localTime (16 * n)
    if now < t || s.paused n then s
    else
      let since := if s.gtime < now && s.gtime = t then s.gtime - 1 else s.gtime
      let s := ((s.setSx n { x with slewAt := none }).clkChangeAt n goal s.hub.raw since).after 10 (.regulatorSlewEnd n)
      (List.range 16).foldl (fun s c => s.traceSync (16 * n + c) 2) s

/-- The slews that wait for their sorus's copy of the time. -/
def State.startSlews (s : State) : State :=
  ((s.saux.filter (fun p => p.2.slewAt.isSome)).map (·.1)).foldl State.startSlew s

/-- `n` nanoseconds pass, in which nothing falls due but at their end, and the copies of the fronds differ from the hub's counter by `skew`
after them. At a permit boundary the levels are set before the periodic SYNC records. -/
def State.passTo (s : State) (n : Nat) (skew : Tab Int) : State :=
  let t := { s with gtime := s.gtime + n, fabric := { s.fabric with skew := skew, slew := [] } }
  let t := (t.auxs.map (·.1)).foldl (fun t h => t.capTime h n) t
  (((t.startSlews.pokePeriods).pokeSync s).pokeTimers).pokeWaits

/-- `n` nanoseconds pass. -/
def State.pass (s : State) (n : Nat) : State :=
  s.fabric.slew.foldl State.pokeFrond (s.passTo n (s.fabric.slew.foldl slewOne s.fabric.skew))

/-- What comes about at its own time and before anything else then: the boundaries, samples and steps of the hub's clock and the
ends of timed intervals (R55, R56, R60, R63, R66, R71, R262, R386, R405, R408, R467). -/
def Event.onTime : Event → Bool
  | .railSample => true
  | .tratioWindowEnd => true
  | .timeBeacon _ => true
  | .beaconLoss _ => true
  | .boostRequestSample => true
  | .permitBoundary => true
  | .controllerStep => true
  | .bucketRefill => true
  | .syncPeriod _ => true
  | .partitionControllerStep => true
  | .regulatorSlewEnd _ => true
  | .ballastLimit _ => true
  | .waitCExpiry _ => true
  | .waitTExpiry _ => true
  | .scanPatternEnd _ _ => true
  | .routerGridPeriod => true
  | _ => false

/-- `n` single nanoseconds pass, if the time counter runs (R38), and none of them passes what is due at its own time. -/
def State.ticks (s : State) : Nat → State
  | 0 => s
  | n + 1 => if s.running && !s.agenda.any Event.onTime then (s.pass 1).ticks n else s

/-- How far time may move at once when no context can issue: to the next multiple of 10 or the next timer. -/
def State.idleSpan (s : State) : Nat :=
  if s.ctxs.any (fun p => p.2.st = .waiting) || !s.fabric.slew.isEmpty || s.saux.any (fun p => p.2.slewAt.isSome) ||
      (!s.fabric.skew.isEmpty && s.auxs.any (fun p => p.2.trace)) then 1
  else max 1 (s.timers.foldl (fun m p => min m (p.1 - s.gtime)) (10 - s.gtime % 10))

/-- A debug step ends with its turn (R413). -/
def State.endStepping (s : State) : State :=
  let x := s.sx (s.cur / 64)
  if x.stepping.isSome then s.setSx (s.cur / 64) { x with stepping := none } else s

/-- The context that issues next on core `L` (R489): the first that can, in context number modulo 4, after the one that issued last, and that
has not been offered this turn yet; a context that is being stepped goes ahead (R413). -/
def State.nextOn (s : State) (L : Nat) : Option Nat :=
  match (s.sx (L / 16)).stepping with
  | some h => if h / 4 = L && s.runnable h then some h else none
  | none => ((List.range 4).map (fun i => 4 * L + ((s.core L).turn + 1 + i) % 4)).find?
      (fun h => s.runnable h && !(s.triedOn L).contains (h % 4))

/-- Core `L` offers its turn to the next context, if one of it can issue (R489). -/
def State.giveTurn (s : State) (L : Nat) : State :=
  match s.nextOn L with
  | some h => s.offer h
  | none => s

/-- Every context may be offered a turn again, where the time counter does not run. -/
def State.offerAnew (s : State) : State := { s with cores := s.cores.map (fun p => (p.1, { p.2 with tried := (0, []) })) }

/-- A core goes on to its next context where one has given its turn up, then the turn passes to the next core that has a context to issue; a
round of turns takes one nanosecond (log 9). -/
def State.timeStep (s : State) : State :=
  let s := s.endStepping.endTurn
  let ls := s.runnables.map (· / 4)
  match ls.find? (fun L => s.lcore ≤ L && (s.nextOn L).isSome) with
  | some L => s.giveTurn L
  | none =>
    match ls.head? with
    | some L => (if s.running then s.pass 1 else s.offerAnew).giveTurn L
    | none => if s.running then s.pass s.idleSpan else s

/-- A core issues as the surroundings choose (log 7). -/
def State.issueOn (s : State) (L : Nat) : State :=
  let s := s.endTurn
  (if (s.nextOn L).isSome then s else s.setCore L { s.core L with tried := (0, []) }).giveTurn L

/-- What a turn of the surroundings comes to: a happening to be run, or a state. -/
inductive TurnDo
  | run (e : Event) (s : State)
  | done (s : State)

/-- A translation taken into the buffer of a sorus (R128; log 12). -/
def State.tlbFill (s : State) (n : Nat) (va : Word) : State :=
  let x := s.sorus n
  if !x.pvalid then s
  else match s.walk (s.slotOf x.part) va.toNat walkLevels (bits (s.part x.part).ptroot 51 12 * 4096) with
    | some l =>
      let y := s.sx n
      s.setSx n { y with tlb := tput y.tlb (x.part * 2 ^ 32 + bits va 47 16) (l.size, l.pte) }
    | none => s

/-- The words that an instruction cache of 32 KiB holds (R34). -/
def icacheWords : Nat := 8192
/-- The lines that a sorus data cache of 1 MiB holds (R34, R125). -/
def dcacheLines : Nat := 16384

/-- A table of a cache with one more entry, in the place of another where it is full: the one of the lowest key, since the spec
names no replacement (DESIGN CHOICE, safe; log 12). -/
def cachePut {α : Type} (t : Tab α) (room k : Nat) (v : α) : Tab α :=
  tput (if thas t k || t.length < room then t else t.drop 1) k v

/-- A word of code taken into the instruction cache of a core (R244, R34; log 12). -/
def State.icacheFill (s : State) (L pa : Nat) : State :=
  let c := s.core L
  s.setCore L { c with icache := cachePut c.icache icacheWords (pa / 4 * 4) (BitVec.ofNat 32 (s.readNat (pa / 4 * 4) 4)) }

/-- A line of device memory taken into the data cache of a sorus (R125, R34; log 12). A line that is pending waits in its slice. -/
def State.dcacheFill (s : State) (n line : Nat) : State :=
  let x := s.sx n
  if !isDev (64 * line) || s.thallus.pending.any (fun p => p.1 == line) then s
  else s.setSx n { x with dcache := cachePut x.dcache dcacheLines line () }

/-- The surroundings move the copy of a frond by a nanosecond. Before time runs they set where its copy stands, within 1 ns of the
hub's, so that two copies differ by at most 2 (R51); from then on every copy advances by exactly one per nanosecond, but that of a
frond that has lost its beacons, which gains or loses up to 100 ppm (R471). -/
def State.driftFrond (s : State) (f : Nat) (up : Bool) : State :=
  let d := tget 0 s.fabric.skew f
  let e := if up then d + 1 else d - 1
  if !s.running then
    if -1 ≤ e && e ≤ 1 then { s with fabric := { s.fabric with skew := tset 0 s.fabric.skew f e } } else s
  else if !s.fabric.lost.contains f || 1 + (s.gtime - tget 0 s.fabric.lastBeacon f) / 10000 < e.natAbs then s
  else
    (s.fabric.slew.foldl State.pokeFrond (s.passTo 1 (tset 0 (s.fabric.slew.foldl slewOne s.fabric.skew) f e))).pokeFrond f

/-- Whether a happening still has an effect: a stopped module does nothing but answer the host, keep time and be reset (R469). -/
def State.lets (s : State) (e : Event) : Bool :=
  !s.hub.stopped ||
  (match e with
    | .fundamentalReset => true
    | .pfFunctionLevelReset => true
    | .secondaryBusReset => true
    | .configRequest => true
    | .rawRailChange _ => true
    | .hubWindowWrite _ _ _ _ _ => true
    | .hostCxlMemWrite _ _ => true
    | .hostCxlMemRead _ => true
    | .launchHeaderArrival _ _ _ => true
    | .launchWindowWrite _ _ _ _ _ => true
    | .hostBarInvalidAccess _ _ _ _ => true
    | .timeBeacon _ => true
    | _ => false)

/-- A turn of the surroundings (log 7). -/
def State.turn (s : State) : Turn → TurnDo
  | .issue L => .done (s.issueOn L)
  | .agenda n =>
    match s.agenda[n]? with
    | some e => .run e { s with agenda := s.agenda.eraseIdx n }
    | none => .done s
  | .event e => .run e s
  | .tick n => .done (s.ticks n)
  | .checker h n => .done (s.checkerStrike h n)
  | .tlbFill n va => .done (s.tlbFill n va)
  | .tlbDrop n key => .done (s.setSx n { s.sx n with tlb := tdel (s.sx n).tlb key })
  | .icacheFill L pa => .done (s.icacheFill L pa)
  | .dcacheFill n line => .done (s.dcacheFill n line)
  | .drift f up => .done (s.driftFrond f up)
  | .mute f on => .done { s with fabric := { s.fabric with
      muted := if on then insertNew s.fabric.muted f else s.fabric.muted.filter (fun g => g != f) } }

end Sys2Proof.Machine
end

