-- ==== Sys2Proof/Machine/SafePoint.lean ====
section
/-! DEFINITION. The safe-point table (R108, R109), and which firings a pre-emption request may reach. -/

namespace Sys2Proof.Machine

/-- An entry of a safe-point table (R108). -/
structure SafeEnt where
  wait : Bool
  blive : Nat
  alive : Nat
  plive : Nat
  vlive : Nat
  xlive : Nat
  deriving DecidableEq, Repr

/-- An aligned doubleword that the hardware reads through the translation of context `h` with the rights of a load. -/
def State.readFor (s : State) (h : Nat) (va : Word) : Option Word :=
  match s.resolve h .load va with
  | .ok p => some (word (s.readNat p.key 8))
  | .error _ => none

/-- Search `n` entries, sorted by offset, for the one with offset `off`: none where the table cannot be read, some none where
no entry lists it. -/
def State.findSafe (s : State) (h : Nat) (off : Nat) : Nat → Word → Option (Option SafeEnt)
  | 0, _ => some none
  | n + 1, va =>
    match s.readFor h va, s.readFor h (va + 8) with
    | some lo, some hi =>
      if bits lo 31 0 = off then
        some (some { wait := bit hi 58, blive := bits hi 57 48, alive := bits hi 47 40, plive := bits hi 39 32
                     vlive := bits hi 31 0, xlive := bits lo 63 32 })
      else if off < bits lo 31 0 then some none
      else s.findSafe h off n (va + 16)
    | _, _ => none

/-- The address of a firing's safe-point table, 0 where it has none (R94 SPTAB). -/
def State.spTab (s : State) (f : Firing) : Nat := bits (hdrWord (s.hdrOf f) 2) 47 4 * 16

/-- The entry of the safe-point table that lists the instruction at which context `h` stands: the one at its pc, or the wait in
which it is Waiting. -/
def State.safeAt (s : State) (h : Nat) : Option (Option SafeEnt) :=
  match (s.ctx h).firing with
  | none => none
  | some f =>
    let t := word (s.spTab f)
    match s.readFor h t, s.readFor h (t + 8) with
    | some n, some base =>
      let c := s.ctx h
      let pc := if c.wait = .none then c.pc else c.pc - 4
      if pc.toNat < base.toNat then some none
      else s.findSafe h (pc.toNat - base.toNat) (bits n 31 0) (t + 16)
    | _, _ => none

/-- Whether a request to a firing is refused whatever its state (R109). -/
def State.unpreemptible (s : State) (f : Firing) : Bool :=
  f.rtc || f.order.isSome || f.key.isNone || s.spTab f = 0 || hdrFlag (s.hdrOf f) 3 || hdrFlag (s.hdrOf f) 4

end Sys2Proof.Machine
end

