-- ==== Sys2Proof/Machine/MapOps.lean ====
section
/-! DEFINITION. The end of a scan (R262 to R264), removal and addition of cores (R265 to R268), the epoch of a result cache
(R461), translations dropped and parked transfers restarted (R130, R447). -/

namespace Sys2Proof.Machine

/-- Everything of core `L` that no firing holds is left as after phase 3 of bring-up (R262). A context that the dispatcher has reserved
stays reserved: its work words wait in the core's channel and are not lost (R262, R267; log 85). -/
def State.coreEndPhase (s : State) (L : Nat) : State :=
  let s := (List.range 4).foldl (fun s c =>
    let h := 4 * L + c
    let k := s.ctx h
    if k.firing.isNone then
      let a := s.aux h
      (s.setCtx h { st := if k.st = .reserved then .reserved else .free, resv := k.resv, floor := k.floor }).setAux h
        { drain := a.drain, dbgsel := a.dbgsel, dbgridx := a.dbgridx, infidx := a.infidx, capidx := a.capidx
          instret := a.instret }
    else s) s
  let s := (List.range 10).foldl (fun s b => if (s.bank L b).own.isNone then s.bankDown L b else s) s
  let s := (List.range 16).foldl (fun s r =>
    if (tget? (s.core L).rowOwn r).isNone then s.clearRange (accKey L (r * 4096)) 4096 else s) s
  s.setCore L { s.core L with icache := [] }

/-- A core returns to service. -/
def State.serve (s : State) (L : Nat) : State :=
  let s := s.setCore L { s.core L with test := .none }
  let s := s.poke (.selection L)
  match s.partOf L with
  | some p => s.poke (.groupDispatch p)
  | none => s

/-- A scan ends (R262): its descriptor receives OBSERVED, RESULT and TEND, and only then its state is done. A core that failed
stays in test; another returns to service, if it is present. -/
def State.scanFinish (s : State) (sid result : Nat) (obs : Word) : State :=
  match tget? s.flight.scans sid with
  | none => s
  | some k =>
    if k.state = 3 then s
    else
      let s := s.coreEndPhase k.core
      let s := s.writeNat (k.key + 16) 8 (if result = 1 || result = 2 then obs.toNat else 0)
      let s := s.writeNat (k.key + 24) 8 (result * 2 ^ 61 + s.gtime % 2 ^ 61)
      let k' := { k with state := 3, result := result, hold := result = 2 }
      let s := { s with flight := { s.flight with scans := tput s.flight.scans sid k' } }
      if result = 2 then s.setCore k.core { s.core k.core with test := .held } else s.serve k.core

/-- The pattern ends: the signature decides, unless the core's clock would have paused (R262, R263). -/
def State.patternEnd (s : State) (L sid : Nat) : State :=
  match tget? s.flight.scans sid with
  | none => s
  | some k =>
    if k.state != 2 then s
    else if pausedIn (s.sx (L / 16)).clk k.since s.gtime then s.scanFinish sid 4 0
    else
      let obs := Config.scanSignature k.pat L s.gtime
      s.scanFinish sid (if obs = k.expect then 1 else 2) obs

/-- Whether the pattern of a scan has run for its time, so that an abort comes too late (R268). -/
def State.patternOver (s : State) (k : Scan) : Bool := k.state = 2 && k.since + 200000 ≤ s.gtime

/-- The scan under way on core `L`. -/
def State.scanOn (s : State) (L : Nat) : Option (Nat × Scan) :=
  (s.flight.scans.find? (fun p => p.2.core = L && (p.2.state != 3 || p.2.hold)))

/-- A scan held with FAIL lets its core go; RESULT stays FAIL (R264, R268). -/
def State.scanRelease (s : State) (sid : Nat) : State :=
  match tget? s.flight.scans sid with
  | none => s
  | some k =>
    let s := { s with flight := { s.flight with scans := tput s.flight.scans sid { k with hold := false } } }
    (s.setCore k.core { s.core k.core with test := .none })

/-- The epoch after one: by 1, skipping 0 (R461). -/
def nextEpoch (e : Nat) : Nat := if e + 1 < 65536 then e + 1 else 1

/-- The epoch of a sorus's result cache advances as the cache loses what it held (R461). -/
def State.advanceEpoch (s : State) (n : Nat) : State :=
  let x := s.sorus n
  s.setSorus n { x with epoch := nextEpoch x.epoch, epochAt := s.gtime, cache := [], floors := [] }

/-- A core becomes absent (R266 to R268). After `READY` it is also marked removed (R265). -/
def State.mapRemove (s : State) (L : Nat) : State :=
  if 2560 ≤ L || !s.present L then s
  else
    let s := match s.scanOn L with
      | some (sid, k) => if k.hold then s.scanRelease sid else if s.patternOver k then s.patternEnd L sid else s.scanFinish sid 3 0
      | none => s
    let g := s.hub
    let n := L / 16
    let s := if !s.withdrawn n && s.sorusHolds n then s.setSorus n { s.sorus n with keeps := true } else s
    let s := { s with hub := { g with
      absent := g.absent ++ [L], removed := if g.ready then insertNew g.removed L else g.removed } }
    let s := if (tget [] s.flight.combines (columnOf L)).isEmpty then s else s.poke (.crozierContribution (columnOf L))
    if (List.range 16).any (fun c => s.present (L / 16 * 16 + c)) then s else s.advanceEpoch (L / 16)

/-- A core joins again, unless it failed its self-test (R266). -/
def State.mapAdd (s : State) (L : Nat) : State :=
  if 2560 ≤ L || s.present L || s.hub.selffail.contains L then s
  else
    let g := s.hub
    let s := { s with hub := { g with
      absent := g.absent.filter (fun n => n != L), removed := g.removed.filter (fun n => n != L) } }
    (s.coreEndPhase L).serve L

/-! ### Translations (R130, R447) -/

/-- The parked ports of a context go on: a read port fetches from its faulting element, a write port writes its faulting transfer. -/
def State.restartPorts (s : State) (h : Nat) : State :=
  let a := s.aux h
  let stopped (f : Fetch) : Bool := f.stop.isSome && !f.dead
  let s := s.setAux h { a with
    fetch := a.fetch.map (fun f => if stopped f.2 then (f.1, { f.2 with stop := none, flying := 1 }) else f)
    drain := a.drain.map (fun d => (d.1, { d.2 with stop := none })) }
  let s := (a.fetch.filter (fun f => stopped f.2)).foldl (fun s f => s.poke (.streamFetchReturn h f.1)) s
  (a.drain.filter (fun d => d.2.stop.isSome)).foldl (fun s d => s.poke (.streamWriteTransferDone h d.1)) s

/-- The parked transfers of a partition restart: a copy rejoins the tail of its core's queue at its first unwritten sector, a
port goes on at its faulting element. -/
def State.restartParked (s : State) (p : Nat) : State :=
  let s := s.flight.copies.foldl (fun s c =>
    if c.2.part = p && c.2.parked && (s.hartOf c.2.fid).any (fun h => (s.ctx h).st != .saving && (s.ctx h).st != .restoring) then
      let L := c.2.h / 4
      let k := s.core L
      let s := { s with flight := { s.flight with
        copies := tput s.flight.copies c.1 { c.2 with parked := false, fault := false } } }
      (s.setCore L { k with copyq := insertNew k.copyq c.1 }).poke (.copyHeadCheck L)
    else s) s
  s.auxs.foldl (fun s q =>
    if (s.ctx q.1).firing.any (fun f => f.part = p) && (s.ctx q.1).st != .saving then s.restartPorts q.1 else s) s

/-- Every translation buffer drops what it holds of a partition: all of it, or the 64 KiB page of an address (R130). -/
def State.tlbFlush (s : State) (p : Nat) (page : Option Nat) : State :=
  { s with saux := s.saux.map (fun x => (x.1, { x.2 with tlb := x.2.tlb.filter (fun e =>
    !(e.1 / 2 ^ 32 = p && (match page with | some g => e.1 % 2 ^ 32 = g | none => true))) })) }

/-- Whether an engine operation of a partition is under way with a translation that it has taken: a copy whose request to a window has
left, or whose sector has been read and not written (R130, R448). Other transfers translate and move at one moment. -/
def State.transBusy (s : State) (p : Nat) : Bool :=
  s.flight.copies.any (fun c => c.2.part = p && (c.2.flying.isSome || c.2.made.isSome) && !c.2.parked)

/-- A write of PTROOT (R130). -/
def State.writePtroot (s : State) (p : Nat) (v : Word) : State :=
  ((s.setPart p { s.part p with ptroot := word (bits v 51 12 * 2 ^ 12) }).tlbFlush p none).restartParked p

/-- A write of TLBINV (R130). The buffer keeps the leaf of a large page under each 64 KiB page it was taken for, so that a page
of the same leaf under another number is dropped with it. -/
def State.writeTlbinv (s : State) (p : Nat) (v : Word) : State :=
  let s := s.setPart p { s.part p with tlbinv := word (bits v 47 16 * 2 ^ 16 + bits v 0 0) }
  let s := if bit v 0 then s.tlbFlush p none
    else { s with saux := s.saux.map (fun x => (x.1, { x.2 with tlb := x.2.tlb.filter (fun e =>
      !(e.1 / 2 ^ 32 = p && (e.1 % 2 ^ 32) * 2 ^ 16 / 2 ^ e.2.1 = bits v 47 16 * 2 ^ 16 / 2 ^ e.2.1)) })) }
  s.restartParked p

/-- A write of PTROOT that waits for the engines (R130, R448). -/
def State.putPtroot (s : State) (p : Nat) (v : Word) : State :=
  if s.transBusy p then s.after pathTime (.ptrootWrite p v) else s.writePtroot p v

/-- A write of TLBINV that waits for the engines (R130, R448). -/
def State.putTlbinv (s : State) (p : Nat) (v : Word) : State :=
  if s.transBusy p then s.after pathTime (.tlbinvWrite p v) else s.writeTlbinv p v

end Sys2Proof.Machine
end

