-- ==== Sys2Proof/Machine/FabricOps.lean ====
section
/-! DEFINITION. Datagrams (R400, R401), revocation (R403), the start of a checkpoint (R407, R482). -/

namespace Sys2Proof.Machine

/-- A dropped datagram is counted at its port and logged (R401, R473, R474). -/
def State.dropDatagram (s : State) (port reason src : Nat) : State :=
  let f := s.fabric
  let s := if reason = 1 then
      { s with fabric := { f with keydrop := tput f.keydrop port (min (2 ^ 32 - 1) (tget 0 f.keydrop port + 1)) } }
    else { s with fabric := { f with otherdrop := tput f.otherdrop port (min (2 ^ 32 - 1) (tget 0 f.otherdrop port + 1)) } }
  s.elog 9 0 0xFFF (word src) (word (port * 8 + reason))

/-- Whether a port lets an owner tag and a key pass (R401). -/
def State.portPasses (s : State) (port otag key : Nat) : Bool :=
  (List.range 256).any (fun k =>
    let e := tget 0 s.fabric.keyset k
    bit e 63 && bits e 59 48 = otag && (bits e 47 32).testBit port && bits e 31 0 = key)

/-- The first valid route to a module (R400). -/
def State.routeTo (s : State) (m : Nat) : Option Word :=
  ((List.range 64).map (fun n => tget 0 s.fabric.modroute n)).find? (fun e => bit e 63 && bits e 31 16 = m)

/-- The port a datagram takes: of the trained ports of the route, numbered from 0, the one (L_src + L_dst) mod n (R401). -/
def State.portFor (s : State) (m a b : Nat) : Option Nat :=
  match s.routeTo m with
  | none => none
  | some e =>
    let ps := (List.range 16).filter (fun n => (bits e 15 0).testBit n && s.fabric.portsUp.contains n)
    ps[(a + b) % ps.length]?

/-- The port that a datagram of a slot leaves through now, or the port and the reason of its drop (R401, R473). One without a route
is counted at port 0, one whose route has no trained port at the lowest port of the route (log 92). -/
def State.exitPort (s : State) (t m a b : Nat) : Except (Nat × Nat) Nat :=
  let q := s.slot t
  match s.routeTo m with
  | none => .error (0, 0)
  | some e =>
    match s.portFor m a b with
    | none => .error (match (List.range 16).find? (fun n => (bits e 15 0).testBit n) with | some n => (n, 5) | none => (0, 0))
    | some n =>
      if s.fabric.retrain.contains (64 + n) then .error (n, 5)
      else if !s.portPasses n (bits q.tencfg 59 48) (bits q.tencfg 31 0) then .error (n, 1)
      else .ok n

/-- A datagram of a slot goes out at a port, with the slot's owner tag and key. -/
def State.emitDatagram (s : State) (t m n : Nat) (body : DgBody) : State :=
  let q := s.slot t
  s.emit (.datagram n { dst := m, src := s.modId, otag := bits q.tencfg 59 48, key := bits q.tencfg 31 0, body := body })

/-- A datagram leaves with the tag and key of a slot, through the port its route gives, or is dropped (R401). -/
def State.sendDatagram (s : State) (t m a b : Nat) (body : DgBody) : State :=
  match s.exitPort t m a b with
  | .error (n, why) => s.dropDatagram n why s.modId
  | .ok n => s.emitDatagram t m n body

/-- A window's generation advances; REVOKE reads 1 while requests it admitted before have not replied (R403). -/
def State.revokeWindow (s : State) (w : Nat) : State :=
  let f := s.fabric
  let e := tget 0 f.expw1 w
  let e := setBits e 32 16 (bits e 47 32 + 1)
  let busy := f.admits.any (fun p => p.1 = w)
  { s with fabric := { f with expw1 := tput f.expw1 w (setBits e 31 1 (flag busy)) } }

/-- Bytes of device memory that the import slot `i` of a run receives (R407). -/
def State.ckPart (s : State) (i : Nat) : Nat := min (2 ^ 32) (s.capacity - i * 2 ^ 32)

/-- Whether a checkpoint can start: the run of import slots suits, and a port of PORTS is trained (R407, R482). -/
def State.ckReady (s : State) : Bool :=
  let c := s.fabric.ckcfg
  let k := (s.capacity + 2 ^ 32 - 1) / 2 ^ 32
  let first := bits c 58 48
  first + k ≤ 2048 &&
  (List.range k).all (fun i =>
    let w0 := tget 0 s.fabric.impw0 (first + i)
    let w1 := tget 0 s.fabric.impw1 (first + i)
    bit w1 63 && bits w1 51 48 = 0 && bit w1 1 && s.ckPart i ≤ (bits w0 15 0 + 1) * 65536) &&
  (List.range 16).any (fun n => (bits c 47 32).testBit n && s.fabric.portsUp.contains n)

/-- The ports that carry a checkpoint now. -/
def State.ckPorts (s : State) : List Nat :=
  (List.range 16).filter (fun n => (bits s.fabric.ckrun 47 32).testBit n && s.fabric.portsUp.contains n &&
    !s.fabric.retrain.contains (64 + n))

/-- A unit of the image goes to its slot of the run through a port: 64 KiB read as it stands and written at that offset. -/
def State.ckSend (s : State) (unit port : Nat) : State :=
  let i := bits s.fabric.ckrun 58 48 + unit * 65536 / 2 ^ 32
  let w0 := tget 0 s.fabric.impw0 i
  let q := s.slot 0
  let rq : WinReq := { src := s.modId, tag := 2 ^ 40 + unit, otag := bits q.tencfg 59 48, gen := bits w0 31 16
                       off := unit * 65536 % 2 ^ 32, kind := .write (cellsAt s.mem (devKey (unit * 65536)) 65536) }
  let s := if s.portPasses port (bits q.tencfg 59 48) (bits q.tencfg 31 0) then
      s.emit (.datagram port { dst := bits w0 63 48, src := s.modId, otag := bits q.tencfg 59 48
                               key := bits q.tencfg 31 0, body := .request (bits w0 41 32) rq })
    else s.dropDatagram port 1 s.modId
  s.after 8000 (.checkpointResend unit)

/-- Each port of a checkpoint that carries no unit takes the next one, in increasing address. -/
def State.ckFill (s : State) : State :=
  s.ckPorts.foldl (fun s n =>
    let f := s.fabric
    if f.ckstate = 1 && !f.ckunits.any (fun u => u.2.1 = n) && f.cknext * 65536 < s.capacity then
      let u := f.cknext
      ({ s with fabric := { f with cknext := u + 1, ckunits := f.ckunits ++ [(u, n, 0, s.gtime)] } }).ckSend u n
    else s) s

/-- A checkpoint ends in a state (R407, R482). -/
def State.ckEnd (s : State) (st : Nat) : State :=
  { s with fabric := { s.fabric with ckstate := st, ckunits := [], ckcfg := setBits s.fabric.ckcfg 63 1 0 } }

/-- A write of CKCFG: ISLOT and PORTS, and with GO 1 the start; while a checkpoint runs, with the values that it began with, GO has no
effect (R407, R408). -/
def State.writeCkcfg (s : State) (v : Word) : State :=
  let c := word (bits v 58 32 * 2 ^ 32)
  if s.fabric.ckstate = 1 then { s with fabric := { s.fabric with ckcfg := setBits c 63 1 1 } }
  else
    let s := { s with fabric := { s.fabric with ckcfg := c } }
    if !bit v 63 then s
    else
      let s := { s with fabric := { s.fabric with ckrun := c, ckdone := 0, ckunits := [], cknext := 0 } }
      if !s.ckReady then s.ckEnd 3
      else
        let s := { s with fabric := { s.fabric with ckstate := 1, ckcfg := setBits c 63 1 1 } }
        if s.capacity = 0 then s.ckEnd 2 else s.ckFill

end Sys2Proof.Machine
end

