-- ==== Sys2Proof/Machine/Hub.lean ====
section
/-! DEFINITION. The hub configuration addresses (R236): which register an address names, its reserved bits, what it reads,
and what a write does under the register's own rule. -/

namespace Sys2Proof.Machine

/-- A hub register. -/
inductive HubReg
  | mpwrcfg
  | spwrcfg (s : Nat)
  | spwrstat (s : Nat)
  | lcmap (L : Nat)
  | ppool (t : Nat)
  | lqcfg (p : Nat)
  | svcfg (p : Nat)
  | spocfg (p : Nat)
  | ptroot (p : Nat)
  | spart (s : Nat)
  | tencfg (t : Nat)
  | tallot (t : Nat)
  | tbkt (t : Nat)
  | tbstat (t : Nat)
  | tsvc (t : Nat)
  | thost (t : Nat)
  | partcfg (p : Nat)
  | keyset (k : Nat)
  | modroute (n : Nat)
  | fabcfg
  | expw (w k : Nat)
  | impw (i k : Nat)
  | ckcfg
  | ckstat
  | pstat (n k : Nat)
  | hte (L n : Nat)
  | ctrap (L k : Nat)
  | chpost (L k : Nat)
  | rtcls (c : Nat)
  deriving DecidableEq, Repr

/-- Registers of tenant slots by offset (R394 to R398, R404, R487). -/
def slotReg (t off : Nat) : Option HubReg :=
  if off = 0 then some (.tencfg t) else if off = 8 then some (.tallot t) else if off = 0x10 then some (.tbkt t)
  else if off = 0x18 then some (.tbstat t) else if off = 0x20 then some (.tsvc t) else if off = 0x28 then some (.thost t)
  else none

/-- Registers of partitions by offset (R236). -/
def partReg (p off : Nat) : Option HubReg :=
  if off = 0 then some (.lqcfg p) else if off = 8 then some (.svcfg p) else if off = 0x10 then some (.spocfg p)
  else if off = 0x18 then some (.ptroot p) else none

/-- The register at a hub address (R236), or none. -/
def hubReg (a : Nat) : Option HubReg :=
  let o := a % 0x10000
  if a % 8 != 0 then none
  else if a = 0 then some .mpwrcfg
  else if a / 0x10000 = 1 then
    (if o / 16 < 160 then some (if o % 16 = 0 then .spwrcfg (o / 16) else .spwrstat (o / 16)) else none)
  else if a / 0x10000 = 2 then (if o / 8 < 2560 then some (.lcmap (o / 8)) else none)
  else if a / 0x10000 = 3 then (if o / 64 < 16 && o % 64 = 0 then some (.ppool (o / 64)) else none)
  else if a / 0x10000 = 4 then (if o / 64 < 64 then partReg (o / 64) (o % 64) else none)
  else if a / 0x10000 = 5 then (if o / 8 < 160 then some (.spart (o / 8)) else none)
  else if a / 0x10000 = 6 then (if o / 64 < 16 then slotReg (o / 64) (o % 64) else none)
  else if a / 0x10000 = 7 then (if o / 8 < 64 then some (.partcfg (o / 8)) else none)
  else if a / 0x10000 = 8 then
    (if o / 8 < 256 then some (.keyset (o / 8))
     else if 0x1000 ≤ o && (o - 0x1000) / 8 < 64 then some (.modroute ((o - 0x1000) / 8))
     else if o = 0x2000 then some .fabcfg else none)
  else if a / 0x10000 = 9 then (if o / 16 < 1024 then some (.expw (o / 16) (o % 16 / 8)) else none)
  else if a / 0x10000 = 10 then (if o / 16 < 2048 then some (.impw (o / 16) (o % 16 / 8)) else none)
  else if a / 0x10000 = 11 then (if o = 0 then some .ckcfg else if o = 8 then some .ckstat else none)
  else if a / 0x10000 = 12 then (if o / 16 < 16 then some (.pstat (o / 16) (o % 16 / 8)) else none)
  else if 0x100000 ≤ a && a < 0x100000 + 128 * 2560 then
    some (.hte ((a - 0x100000) / 128) ((a - 0x100000) % 128 / 8))
  else if 0x150000 ≤ a && a < 0x150000 + 32 * 2560 then
    some (.ctrap ((a - 0x150000) / 32) ((a - 0x150000) % 32 / 8))
  else if 0x170000 ≤ a && a < 0x170000 + 32 * 2560 then
    some (.chpost ((a - 0x170000) / 32) ((a - 0x170000) % 32 / 8))
  else if 0x190000 ≤ a && a < 0x190000 + 8 * 16 then some (.rtcls ((a - 0x190000) / 8))
  else none

/-- Whether a register is a configuration register: one that holds an RW field, but for CHPOST (R236). -/
def HubReg.config : HubReg → Bool
  | .spwrstat _ => false
  | .tbstat _ => false
  | .ckstat => false
  | .pstat _ _ => false
  | .chpost _ _ => false
  | _ => true

/-- Ones in bits `hi` to `lo`. -/
def ones (hi lo : Nat) : Nat := (2 ^ (hi + 1 - lo) - 1) * 2 ^ lo

/-- The reserved bits of a register. -/
def HubReg.reserved : HubReg → Nat
  | .mpwrcfg => ones 63 55 + ones 15 0
  | .spwrcfg _ => ones 63 28
  | .spwrstat _ => ones 63 27 + ones 15 12
  | .lcmap _ => ones 59 16 + ones 7 4
  | .ppool _ => ones 63 58 + ones 31 11
  | .lqcfg _ => 0
  | .svcfg _ => ones 19 12
  | .spocfg _ => ones 19 0
  | .ptroot _ => ones 63 52 + ones 11 0
  | .spart _ => ones 63 16 + ones 6 6
  | .tencfg _ => ones 62 60
  | .tallot _ => ones 63 45 + ones 31 12
  | .tbkt _ => ones 3 1
  | .tbstat _ => ones 19 1
  | .tsvc _ => ones 31 24
  | .thost _ => ones 63 56 + ones 33 22
  | .partcfg _ => ones 63 8 + ones 6 6
  | .keyset _ => ones 62 60
  | .modroute _ => ones 62 32
  | .fabcfg => ones 47 44 + ones 3 0
  | .expw _ 0 => ones 63 52
  | .expw _ _ => ones 62 60 + ones 30 28 + ones 23 3
  | .impw _ 0 => ones 47 42
  | .impw _ _ => ones 62 52 + ones 47 3
  | .ckcfg => ones 62 59 + ones 31 0
  | .ckstat => ones 61 27
  | .pstat _ 0 => ones 63 4
  | .pstat _ _ => 0
  | .hte _ _ => ones 49 48 + ones 1 0
  | .ctrap _ 0 => 0
  | .ctrap _ 1 => ones 11 11
  | .ctrap _ 2 => ones 63 10 + ones 8 0
  | .ctrap _ _ => 0
  | .chpost _ 2 => ones 63 6
  | .chpost _ _ => 0
  | .rtcls _ => ones 63 5

/-- The bits of a word under a mask. -/
def keepBits (v : Word) (m : Nat) : Word := v &&& word m

/-! ### Handler-table entries and channel masks (R80 to R82) -/

/-- An entry at reset (R80, R81). -/
def hteReset (n : Nat) : Word :=
  if n = 0 then 0 else if n = 1 then word (2 ^ 62 + 2 ^ 61 + 2 ^ 52) else word (2 ^ 61 + 2 ^ 52)

/-- Entry `n` of a core. -/
def CoreSt.entry (k : CoreSt) (n : Nat) : Word := tget (hteReset n) k.hte n

/-- What a write stores of an entry: RATE between 1 and 32, CLASS 1 in entry 1, MASK alone in entry 0, MMODE only where the
writer may set it (R80, R81). -/
def hteStore (n : Nat) (old v : Word) (mmode : Bool) : Word :=
  if n = 0 then keepBits v (2 ^ 61)
  else
    let r := bits v 57 52
    let v := setBits v 52 6 (if r = 0 then 1 else if 32 < r then 32 else r)
    let v := if mmode then v else setBits v 50 1 (bits old 50 50)
    let v := if n = 1 then setBits v 62 1 1 else v
    keepBits v (ones 63 50 + ones 47 2)

/-- Write entry `n` of core `L`. -/
def State.writeHte (s : State) (L n : Nat) (v : Word) (mmode : Bool) : State :=
  let k := s.core L
  (s.setCore L { k with hte := tput k.hte n (hteStore n (k.entry n) v mmode) }).poke (.selection L)

/-- CHMASK: bit `n` is MASK of entry `n` (R82). -/
def CoreSt.chmask (k : CoreSt) : Word :=
  word ((List.range 16).foldl (fun m n => m + (if bit (k.entry n) 61 then 2 ^ n else 0)) 0)

/-- Write MASK of one entry. -/
def CoreSt.setMask (k : CoreSt) (n : Nat) (m : Bool) : CoreSt :=
  { k with hte := tput k.hte n (setBits (k.entry n) 61 1 (flag m)) }

/-- Write CHMASK from a level: from U bits 0 and 1 keep their values (R82). -/
def State.writeChmask (s : State) (L : Nat) (v : Word) (p : Priv) : State :=
  let k := s.core L
  let k := (List.range 16).foldl (fun k n => if n < 2 && p = .u then k else k.setMask n (bit v n)) k
  (s.setCore L k).poke (.selection L)

/-! ### Trap vectors (R426) -/

/-- What stvec and mtvec store: a mode of 2 or 3 stores 0. -/
def tvecStore (v : Word) : Word := if 2 ≤ bits v 1 0 then setBits v 0 2 0 else v
/-- What medeleg stores. -/
def medelegStore (v : Word) : Word := setBits v 11 1 0
/-- What mideleg stores. -/
def midelegStore (v : Word) : Word := keepBits v (2 ^ 9)

/-! ### Reads -/

/-- PPOOL (R64). -/
def Slot.ppool (q : Slot) : Word := word (q.lcap * 2 ^ 56 + q.cap * 2 ^ 44 + q.debt * 2 ^ 32 + q.count)
/-- SPART (R397). -/
def SorusSt.spart (x : SorusSt) : Word :=
  word (flag x.leaving * 2 ^ 15 + flag x.nvalid * 2 ^ 14 + x.next * 2 ^ 8 + flag x.pvalid * 2 ^ 7 + x.part)
/-- SPWRSTAT (R69). -/
def SorusSt.spwrstat (x : SorusSt) : Word :=
  word (flag x.ballast * 2 ^ 26 + flag (!x.admq.isEmpty) * 2 ^ 25 + x.duty * 2 ^ 16 + x.pest % 4096)
/-- TBSTAT (R404). -/
def Slot.tbstat (q : Slot) : Word := word (q.bdebt * 2 ^ 40 + q.tokens * 2 ^ 20 + flag q.stall)
/-- CHPOST word 2 (R83). -/
def Post.word2 (p : Post) : Word := word (flag p.err * 32 + flag p.go * 16 + p.ch)

/-- What a hub register reads. -/
def State.hubRead (s : State) : HubReg → Word
  | .mpwrcfg => s.hub.mpwrcfg
  | .spwrcfg n => (s.sorus n).pwrcfg
  | .spwrstat n => (s.sorus n).spwrstat
  | .lcmap L => s.lcmap L
  | .ppool t => (s.slot t).ppool
  | .lqcfg p => (s.part p).lqcfg
  | .svcfg p => (s.part p).svcfg
  | .spocfg p => (s.part p).spocfg
  | .ptroot p => (s.part p).ptroot
  | .spart n => (s.sorus n).spart
  | .tencfg t => (s.slot t).tencfg
  | .tallot t => (s.slot t).tallot
  | .tbkt t => (s.slot t).tbkt
  | .tbstat t => (s.trimmed t).tbstat
  | .tsvc t => setBits (s.slot t).tsvc 0 24 (min (2 ^ 24 - 1) (s.slot t).achieved)
  | .thost t => (s.slot t).thost
  | .partcfg p => (s.part p).partcfg
  | .keyset k => tget 0 s.fabric.keyset k
  | .modroute n => tget 0 s.fabric.modroute n
  | .fabcfg => setBits s.fabric.fabcfg 4 20 s.fabric.spare
  | .expw w 0 => tget 0 s.fabric.expw0 w
  | .expw w _ => tget 0 s.fabric.expw1 w
  | .impw i 0 => tget 0 s.fabric.impw0 i
  | .impw i _ => tget 0 s.fabric.impw1 i
  | .ckcfg => s.fabric.ckcfg
  | .ckstat => word (s.fabric.ckstate * 2 ^ 62 + s.fabric.ckdone)
  | .pstat n 0 => word (if s.fabric.portsUp.contains n then tget 0 s.fabric.ports n else 0)
  | .pstat n _ => word (tget 0 s.fabric.keydrop n * 2 ^ 32 + tget 0 s.fabric.otherdrop n)
  | .hte L n => (s.core L).entry n
  | .ctrap L 0 => (s.core L).mtvec
  | .ctrap L 1 => (s.core L).medeleg
  | .ctrap L 2 => (s.core L).mideleg
  | .ctrap L _ => (s.core L).stvec
  | .chpost L 0 => (s.core L).post.w0
  | .chpost L 1 => (s.core L).post.w1
  | .chpost L 2 => (s.core L).post.word2
  | .chpost _ _ => 0
  | .rtcls c => tget 0 s.hub.rtcls c

/-! ### Writes -/

/-- MPWRCFG (R76). -/
def mpwrStore (v : Word) : Word :=
  let v := if 6000 < bits v 54 42 then setBits v 42 13 6000 else v
  let v := if bits v 31 24 = 0 then setBits v 24 8 1 else v
  let v := if bits v 23 16 = 0 then setBits v 16 8 1 else v
  keepBits v (ones 54 16)

/-- PPOOL as a write from M leaves it (R64). -/
def Slot.setPool (q : Slot) (v : Word) : Slot :=
  let cap := min 1024 (bits v 55 44)
  { q with lcap := if bits v 57 56 = 3 then q.lcap else bits v 57 56, cap := cap, count := min cap (bits v 10 0) }

/-- A write of SPART (R397, R408): a move does not happen at once but marks the sorus leaving. -/
def State.writeSpart (s : State) (n : Nat) (v : Word) : State :=
  let x := s.sorus n
  let pv := bit v 7
  let p := bits v 5 0
  if !x.leaving && pv = x.pvalid && (!pv || p = x.part) then s
  else (s.setSorus n { x with leaving := true, nvalid := pv, next := if pv then p else 0 }).poke (.sorusPass n)

/-- EXPW word 1 (R402, R403). -/
def State.writeExpw1 (s : State) (w : Nat) (v : Word) : State :=
  let f := s.fabric
  let old := tget 0 f.expw1 w
  let w0 := tget 0 f.expw0 w
  let q := s.slot (bits v 27 24)
  let lo := bits w0 51 16 * 65536
  let hi := lo + (bits w0 15 0 + 1) * 65536
  let ok := bits q.tallot 11 0 * 2 ^ 30 ≤ lo && hi ≤ (bits q.tallot 11 0 + bits q.tallot 44 32) * 2 ^ 30
  let e := keepBits v (ones 59 48 + ones 27 24 + ones 2 0)
  let e := setBits (setBits e 32 16 (bits old 47 32)) 31 1 (bits old 31 31)
  let e := setBits e 63 1 (flag (bit v 63 && ok))
  let s := { s with fabric := { f with expw1 := tput f.expw1 w e } }
  if bit v 31 then s.revokeWindow w else s

/-- A sorus has come to another tenant (R66, R67, R367, R426): its level counts as 0 at the next boundary, its ticket dispensers start
anew, and the S handler vectors of its cores are at reset. -/
def State.tenantChanged (s : State) (n : Nat) : State :=
  let s := s.setSorus n { s.sorus n with newTenant := true, tickets := [] }
  (List.range 16).foldl (fun s c =>
    let k := s.core (16 * n + c)
    if k.stvec = 0 then s else s.setCore (16 * n + c) { k with stvec := 0 }) s

/-- A write of PARTCFG (R397): where it gives the partition to another slot, every sorus of the partition has come to another tenant
(log 81). -/
def State.writePartcfg (s : State) (p : Nat) (v : Word) : State :=
  let old := s.slotOf p
  let s := s.setPart p { s.part p with partcfg := keepBits v (ones 7 7 + ones 5 0) }
  if s.slotOf p = old then s
  else ((s.sori.filter (fun x => x.2.pvalid && x.2.part = p)).map (·.1)).foldl State.tenantChanged s

/-- RTCLS (R347): a direction of 3 stores 0. -/
def rtclsStore (v : Word) : Word :=
  let v := if bits v 4 3 = 3 then setBits v 3 2 0 else v
  let v := if bits v 2 1 = 3 then setBits v 1 2 0 else v
  keepBits v 31

/-- CHPOST word 2 (R83): CH, and with GO 1 the post; nothing while GO reads 1. -/
def State.writePost (s : State) (L : Nat) (v : Word) : State :=
  let k := s.core L
  if k.post.go then s
  else
    let s := s.setCore L { k with post := { k.post with ch := bits v 3 0 } }
    if !bit v 4 then s
    else if !s.present L || bits v 3 0 < 2 then
      s.setCore L { s.core L with post := { (s.core L).post with err := true } }
    else
      let s := s.setCore L { s.core L with post := { (s.core L).post with err := false, go := true } }
      let m : Msg := { sender := 10240 + L, core := L, ch := bits v 3 0, words := [k.post.w0, k.post.w1]
                       srcw := word (s.modId * 2 ^ 48 + bits v 3 0 * 2 ^ 12 + 0xFFE), left := false }
      let (id, s) := s.newId
      ({ s with flight := { s.flight with msgs := tput s.flight.msgs id m } }).poke (.messageSendRelease id)

/-- A write of a hub register, under that register's own rule (R235, R237). -/
def State.hubWrite (s : State) (r : HubReg) (v : Word) : State :=
  let f := s.fabric
  match r with
  | .mpwrcfg => { s with hub := { s.hub with mpwrcfg := mpwrStore v } }
  | .spwrcfg n => s.setSorus n { s.sorus n with pwrcfg := keepBits v (ones 27 0) }
  | .spwrstat _ => s
  | .lcmap L => if bit v 63 then s.mapRemove L else s.mapAdd L
  | .ppool t => s.setSlot t { s.slot t with ppend := (s.slot t).ppend ++ [v] }
  | .lqcfg p => s.setPart p { s.part p with lqcfg := v }
  | .svcfg p => s.setPart p { s.part p with svcfg := keepBits v (ones 63 20 + ones 11 0) }
  | .spocfg p => s.setPart p { s.part p with spocfg := keepBits v (ones 63 20) }
  | .ptroot p => s.putPtroot p v
  | .spart n => s.writeSpart n v
  | .tencfg t => s.setSlot t { s.slot t with tencfg := keepBits v (ones 63 63 + ones 59 0) }
  | .tallot t => s.setSlot t { s.slot t with tallot := keepBits v (ones 44 32 + ones 11 0) }
  | .tbkt t => (s.setSlot t { s.slot t with tbkt := keepBits v (ones 63 4 + 1) }).poke (.headRequestRelease t)
  | .tbstat _ => s
  | .tsvc t => s.setSlot t { s.slot t with tsvc := keepBits v (ones 63 32) }
  | .thost t => s.setSlot t { s.slot t with thost := keepBits v (ones 55 34 + ones 21 0) }
  | .partcfg p => s.writePartcfg p v
  | .keyset k => { s with fabric := { f with keyset := tput f.keyset k (keepBits v (ones 63 63 + ones 59 0)) } }
  | .modroute n => { s with fabric := { f with modroute := tput f.modroute n (keepBits v (ones 63 63 + ones 31 0)) } }
  | .fabcfg => { s with fabric := { f with fabcfg := keepBits v (ones 63 48 + ones 43 24) } }
  | .expw w 0 => { s with fabric := { f with expw0 := tput f.expw0 w (keepBits v (ones 51 0)) } }
  | .expw w _ => s.writeExpw1 w v
  | .impw i 0 => { s with fabric := { f with impw0 := tput f.impw0 i (keepBits v (ones 63 48 + ones 41 0)) } }
  | .impw i _ => { s with fabric := { f with impw1 := tput f.impw1 i (keepBits v (ones 63 63 + ones 51 48 + ones 2 0)) } }
  | .ckcfg => s.writeCkcfg v
  | .ckstat => s
  | .pstat _ _ => s
  | .hte L n => s.writeHte L n v true
  | .ctrap L 0 => s.setCore L { s.core L with mtvec := tvecStore v }
  | .ctrap L 1 => s.setCore L { s.core L with medeleg := medelegStore v }
  | .ctrap L 2 => s.setCore L { s.core L with mideleg := midelegStore v }
  | .ctrap L _ => s.setCore L { s.core L with stvec := tvecStore v }
  | .chpost L 0 => s.setCore L { s.core L with post := { (s.core L).post with w0 := v } }
  | .chpost L 1 => s.setCore L { s.core L with post := { (s.core L).post with w1 := v } }
  | .chpost L 2 => s.writePost L v
  | .chpost _ _ => s
  | .rtcls c => { s with hub := { s.hub with
      rtcls := tput s.hub.rtcls c (rtclsStore v)
      rtOld := tput s.hub.rtOld c ((s.flight.msgs.filter (fun p => p.2.left && p.2.ch = c)).map (·.1)) } }

/-- The drop counts of a port clear (R473, R248). -/
def State.clearPstat (s : State) (n : Nat) : State :=
  { s with fabric := { s.fabric with keydrop := tdel s.fabric.keydrop n, otherdrop := tdel s.fabric.otherdrop n } }

end Sys2Proof.Machine
end

