-- ==== Sys2Proof/Machine/Matrix.lean ====
section
/-! DEFINITION. Tile operations at issue: the checks of the matrix instructions and what they hold (R301 to R319). -/

namespace Sys2Proof.Machine

/-! ### Words of operands (R305 to R308) -/

/-- OFF of an operand descriptor. -/
def descOff (d : Word) : Nat := bits d 18 0
/-- LD of an operand descriptor. -/
def descLd (d : Word) : Nat := bits d 47 32
/-- The reserved fields of an operand descriptor are 0. -/
def descOk (d : Word) : Bool := bits d 63 48 = 0 && bits d 31 19 = 0

/-- Rows of a matrix command. -/
def cmdM (c : Word) : Nat := 8 * (bits c 31 28 + 1)
/-- Columns. -/
def cmdN (c : Word) : Nat := 8 * (bits c 27 24 + 1)
/-- Slabs. -/
def cmdSlabs (c : Word) : Nat := bits c 47 40 + 1
/-- klen. -/
def cmdK (c : Word) : Nat := 64 * cmdSlabs c
/-- First destination row. -/
def cmdRow (c : Word) : Nat := 8 * bits c 39 36
/-- First destination column. -/
def cmdCol (c : Word) : Nat := 8 * bits c 35 32
/-- BARV. -/
def cmdBarv (c : Word) : Bool := bit c 63
/-- Core scratchpad offset of the barrier object. -/
def cmdBar (c : Word) : Nat := 16 * bits c 62 48

/-- A region word as a region, none where a reserved bit is set or it leaves the store (R306). -/
def regionOf (w : Word) : Option Region :=
  let r : Region := { row := bits w 14 8, col := bits w 6 0, nr := bits w 22 16, nc := bits w 30 24 }
  if bits w 63 31 = 0 && !bit w 23 && !bit w 15 && !bit w 7 && r.row + r.nr ≤ 127 && r.col + r.nc ≤ 127 then some r
  else none

/-- Memory format of operand A of a pair (R227, R309). -/
def pairA : Pair → Nat
  | .i8i8 => 1 | .e4m3e4m3 => 8 | .e4m3e5m2 => 8 | .e5m2e4m3 => 9 | .e5m2e5m2 => 9 | .b8b8 => 10 | .o4o4 => 11
  | .bf16bf16 => 6 | .f16f16 => 7
/-- Memory format of operand B. -/
def pairB : Pair → Nat
  | .i8i8 => 1 | .e4m3e4m3 => 8 | .e4m3e5m2 => 9 | .e5m2e4m3 => 8 | .e5m2e5m2 => 9 | .b8b8 => 10 | .o4o4 => 11
  | .bf16bf16 => 6 | .f16f16 => 7
/-- What OFF and LD must be multiples of (R309). -/
def opAlign (mf : Nat) : Nat := if mf = 10 then 32 else if mf = 11 then 16 else if mf = 6 || mf = 7 then 2 else 1
/-- Products per cycle of a pair (R312). -/
def pairQ : Pair → Nat | .o4o4 => 128 | .bf16bf16 => 32 | .f16f16 => 32 | _ => 64
/-- The slab cycles of a product (R312). -/
def productCost (pair : Pair) (cmd : Word) : Nat := cmdSlabs cmd * ((cmdM cmd * cmdN cmd + pairQ pair - 1) / pairQ pair)
/-- Whether a tile operation is a heavy burst (R312). -/
def TileKind.heavy : TileKind → Bool | .product _ p c _ _ _ => 512 < productCost p c | _ => false
/-- Whether the head of a core's matrix queue may run: a heavy burst once it has been admitted (R73, R312). -/
def Tile.ready (t : Tile) : Bool := !t.kind.heavy || t.admitted
/-- The pair of a code (R227). -/
def pairOfNat (n : Nat) : Option Pair :=
  match n with
  | 0 => some .i8i8 | 1 => some .e4m3e4m3 | 2 => some .e4m3e5m2 | 3 => some .e5m2e4m3 | 4 => some .e5m2e5m2
  | 5 => some .b8b8 | 6 => some .o4o4 | 7 => some .bf16bf16 | 8 => some .f16f16 | _ => none

/-! ### Rights and formats -/

/-- The number of the firing whose turn it is. -/
def State.myFid (s : State) : Nat := (s.hart.firing.map (·.fid)).getD 0

/-- Whether the firing holds the row groups of some rows (R304). -/
def State.holdsRows (s : State) (row n : Nat) : Bool :=
  (List.range 16).all (fun g => g < row / 8 || (row + n - 1) / 8 < g || tget? (s.core s.lcore).rowOwn g = some s.myFid)

/-- Whether every bank that an own-scratchpad range occupies has one of some formats. -/
def State.rangeFmt (s : State) (mfs : List Nat) (off n : Nat) : Bool :=
  n = 0 || (List.range 10).all (fun b => b < off / 0x8000 || (off + n - 1) / 0x8000 < b ||
    mfs.contains (fmtFmt (tget 0 (s.core s.lcore).fmt b)))

/-- The ranges of `rows` rows of `len` bytes at a descriptor. -/
def rowRanges (d : Word) (rows len : Nat) : List (Nat × Nat) := (List.range rows).map (fun j => (descOff d + j * descLd d, len))

/-- Whether every scale of the blocks of a range lies in the bank of its block (R171, R310). -/
def State.scalesOk (s : State) (mf off n : Nat) : Bool :=
  if mf = 10 || mf = 11 then
    let blk := if mf = 10 then 32 else 16
    (List.range ((n + blk - 1) / blk)).all (fun j =>
      let o := off + j * blk
      fmtSbase (tget 0 (s.core s.lcore).fmt (o / 0x8000)) + 4 * (o % 0x8000 / blk) + 4 ≤ 0x8000)
  else true

/-- Bytes of a row of `n` elements. -/
def rowBytes (mf n : Nat) : Nat := n * mfBits mf / 8

/-! ### The unfolding configuration (R314, R315) -/

/-- Word `i` of a configuration. -/
def Unf.w (u : Unf) (i : Nat) : Word := List.getD u i 0
/-- XOFF. -/
def Unf.xoff (u : Unf) : Nat := bits (u.w 0) 18 0
/-- ROWSTR. -/
def Unf.rowstr (u : Unf) : Nat := bits (u.w 0) 47 32
/-- PIXSTR. -/
def Unf.pixstr (u : Unf) : Nat := bits (u.w 1) 63 48
/-- C. -/
def Unf.c (u : Unf) : Nat := bits (u.w 1) 47 32
/-- W. -/
def Unf.width (u : Unf) : Nat := bits (u.w 1) 31 16
/-- H. -/
def Unf.height (u : Unf) : Nat := bits (u.w 1) 15 0

/-- The limits of an unfolding descriptor (R314). -/
def Unf.ok (u : Unf) : Bool :=
  bits (u.w 0) 63 48 = 0 && bits (u.w 0) 31 19 = 0 && 1 ≤ u.c && 1 ≤ u.width && 1 ≤ u.height && bits (u.w 2) 63 48 = 0 &&
  1 ≤ bits (u.w 2) 31 28 && 1 ≤ bits (u.w 2) 27 24 && 1 ≤ bits (u.w 2) 23 20 && 1 ≤ bits (u.w 2) 19 16 &&
  1 ≤ bits (u.w 2) 15 8 && 1 ≤ bits (u.w 2) 7 0 && bits (u.w 3) 63 48 = 0 && 1 ≤ bits (u.w 3) 15 0 &&
  u.w 4 = 0 && u.w 5 = 0 && u.w 6 = 0 && u.w 7 = 0

/-- The bytes of the tensor's span for elements of `e` bytes (R315). -/
def Unf.span (u : Unf) (e : Nat) : Nat := (u.height - 1) * u.rowstr + (u.width - 1) * u.pixstr + u.c * e

/-- The scratchpad offset of a(m, k), none where it is the +0 of the padding (R315). -/
def Unf.place (u : Unf) (e xo m k : Nat) : Option Nat :=
  let p := bits (u.w 3) 47 32 + xo + m
  let ow := bits (u.w 3) 15 0
  let oy := bits (u.w 3) 31 16 + p / ow
  let ox := p % ow
  let ch := k % u.c
  let t := k / u.c
  let kx := t % bits (u.w 2) 15 8
  let ky := t / bits (u.w 2) 15 8
  let y : Int := (oy * bits (u.w 2) 19 16 + ky * bits (u.w 2) 27 24 : Nat) - (bits (u.w 2) 39 32 : Nat)
  let x : Int := (ox * bits (u.w 2) 23 20 + kx * bits (u.w 2) 31 28 : Nat) - (bits (u.w 2) 47 40 : Nat)
  if bits (u.w 2) 7 0 ≤ ky || y < 0 || (u.height : Int) ≤ y || x < 0 || (u.width : Int) ≤ x then none
  else some (u.xoff + y.toNat * u.rowstr + x.toNat * u.pixstr + ch * e)

/-! ### Issue -/

/-- A tile operation is held, unless 16 are outstanding (R301). -/
def State.issueTile (s : State) (k : TileKind) : Except Stop State :=
  let a := s.aux s.cur
  if 16 ≤ a.tiles.length then (if s.hart.young.tileIds.isEmpty then .error (.stall s) else .error .before)
  else
    let (id, t) := s.newId
    let t := t.setAux t.cur { t.aux t.cur with tiles := (t.aux t.cur).tiles ++ [id] }
    let t := t.hold (.tile { id := id, fid := s.myFid, h := s.cur, kind := k, fmt := (s.core s.lcore).fmt, admitted := false })
    .ok (t.note 3 0 0 id)

/-- The ranges of operand A: its rows, or the tensor's span for MMAV. -/
def rangesA (form : Nat) (pair : Pair) (cmd a : Word) (u : Unf) : List (Nat × Nat) :=
  if form = 1 then [(u.xoff, u.span (mfBits (pairA pair) / 8))] else rowRanges a (cmdM cmd) (rowBytes (pairA pair) (cmdK cmd))
/-- The ranges of operand B: N rows of klen elements, or klen rows of N for MMAT. -/
def rangesB (form : Nat) (pair : Pair) (cmd b : Word) : List (Nat × Nat) :=
  if form = 2 then rowRanges b (cmdK cmd) (rowBytes (pairB pair) (cmdN cmd))
  else rowRanges b (cmdN cmd) (rowBytes (pairB pair) (cmdK cmd))

/-- The checks of a matrix product at issue (R309, R310, R315): form 0 MMA, 1 MMAV, 2 MMAT. -/
def State.checkProduct (s : State) (i : Instr) (form : Nat) (pair : Pair) (cmd a b : Word) : Except Stop Unit := do
  let u := ((s.aux s.cur).unfIssued.getLast?).map (·.2)
  let mA := pairA pair
  let mB := pairB pair
  require (form = 0 || !(pair = .b8b8 || pair = .o4o4)) 2 i
  require (bits cmd 22 0 = 0 && (form = 1 || descOk a) && descOk b) 2 i
  require (cmdRow cmd + cmdM cmd ≤ 128 && cmdCol cmd + cmdN cmd ≤ 128) 2 i
  require ((form = 1 || (descOff a % opAlign mA = 0 && descLd a % opAlign mA = 0)) &&
    descOff b % opAlign mB = 0 && descLd b % opAlign mB = 0) 2 i
  require (form != 1 || u.isSome) 6 i
  require (s.holdsRows (cmdRow cmd) (cmdM cmd)) 3 i
  let ra := rangesA form pair cmd a (u.getD [])
  let rb := rangesB form pair cmd b
  require (ra.all (fun r => s.rangeOk s.cur r.1 r.2) && rb.all (fun r => s.rangeOk s.cur r.1 r.2) &&
    (!cmdBarv cmd || s.rangeOk s.cur (cmdBar cmd) 16)) 3 i
  require (ra.all (fun r => s.rangeFmt [mA] r.1 r.2) && rb.all (fun r => s.rangeFmt [mB] r.1 r.2)) 4 i
  require (ra.all (fun r => s.scalesOk mA r.1 r.2) && rb.all (fun r => s.scalesOk mB r.1 r.2)) 3 i

/-- The tile operation of a matrix product. -/
def State.productKind (s : State) (form : Nat) (pair : Pair) (cmd a b : Word) : TileKind :=
  .product form pair cmd a b (if form = 1 then (((s.aux s.cur).unfIssued.getLast?).map (·.2)).getD [] else [])

/-- A matrix product (R310). -/
def State.product (s : State) (i : Instr) (form : Nat) (pair : Pair) (cmd a b : Word) : Out :=
  finish s (do
    s.checkProduct i form pair cmd a b
    let t ← s.issueTile (s.productKind form pair cmd a b)
    .ok t.step4)

/-- MMA (R310, R311). -/
def execMma (pair : Pair) (xc xa xb : Reg) (s : State) : Out :=
  s.product (.mma pair xc xa xb) 0 pair (s.x xc) (s.x xa) (s.x xb)
/-- MMAV (R315). -/
def execMmav (pair : Pair) (xc xa xb : Reg) (s : State) : Out :=
  s.product (.mmav pair xc xa xb) 1 pair (s.x xc) (s.x xa) (s.x xb)
/-- MMAT (R310, R311). -/
def execMmat (pair : Pair) (xc xa xb : Reg) (s : State) : Out :=
  s.product (.mmat pair xc xa xb) 2 pair (s.x xc) (s.x xa) (s.x xb)

/-- ACLR (R305). -/
def execAclr (xs : Reg) (s : State) : Out :=
  finish s (do
    let w := s.x xs
    let g0 := bits w 7 4
    let ng := bits w 3 0
    let c := s.core s.lcore
    require (bits w 63 9 = 0 && g0 + ng ≤ 15) 2 (.aclr xs)
    let gs := (List.range (ng + 1)).map (fun j => g0 + j)
    if bit w 8 then
      let t ← s.issueTile (.aclr g0 ng true [])
      .ok t.step4
    else
      require (gs.all (fun g => (tget? c.rowOwn g).isNone || tget? c.rowOwn g = some s.myFid)) 6 (.aclr xs)
      let fresh := gs.filter (fun g => (tget? c.rowOwn g).isNone)
      let t ← s.issueTile (.aclr g0 ng false fresh)
      let d := t.core t.lcore
      .ok (t.setCore t.lcore { d with rowOwn := fresh.foldl (fun r g => tput r g s.myFid) d.rowOwn }).step4)

/-- The region of a word, checked (R306). Rows that are not held give reason 3 before what the instruction checks of its descriptor and
its columns (DEDUCED, unsafe: R424 orders no reasons; log 36). -/
def State.regionHeld (s : State) (i : Instr) (w : Word) : Except Stop Region :=
  match regionOf w with
  | none => .error (illegal 2 i)
  | some r => if s.holdsRows r.row (r.nr + 1) then .ok r else .error (illegal 3 i)

/-- The memory format that an element type has. -/
def ty3Mf : Ty3 → Nat
  | .i8 => 1 | .i16 => 2 | .i32 => 3 | .f32 => 5 | .bf16 => 6 | .f16 => 7 | .e4m3 => 8 | .e5m2 => 9

/-- The check of a region's rows in the own scratchpad, elements of `e` bytes, banks of formats `mfs`. -/
def State.checkRegionMem (s : State) (i : Instr) (d : Word) (r : Region) (e : Nat) (mfs : List Nat) : Except Stop Unit := do
  require (descOk d && descOff d % e = 0 && descLd d % e = 0) 2 i
  let rs := rowRanges d (r.nr + 1) ((r.nc + 1) * e)
  require (rs.all (fun p => s.rangeOk s.cur p.1 p.2)) 3 i
  require (rs.all (fun p => s.rangeFmt mfs p.1 p.2)) 4 i

/-- ANARROW (R316). -/
def execAnarrow (ty : Ty3) (mode : RMode) (sat : Bool) (xm xg : Reg) (s : State) : Out :=
  finish s (do
    let i : Instr := .anarrow ty mode sat xm xg
    let r ← s.regionHeld i (s.x xg)
    s.checkRegionMem i (s.x xm) r (Ty3Width ty / 8) [0, ty3Mf ty]
    let t ← s.issueTile (.anarrow ty mode sat (s.x xm) r)
    .ok t.step4)

/-- ALD (R317). -/
def execAld (xg xm : Reg) (s : State) : Out :=
  finish s (do
    let r ← s.regionHeld (.ald xg xm) (s.x xg)
    s.checkRegionMem (.ald xg xm) (s.x xm) r 4 [0, 3, 5]
    let t ← s.issueTile (.ald r (s.x xm))
    .ok t.step4)

/-- AST (R317). -/
def execAst (xg xm : Reg) (s : State) : Out :=
  finish s (do
    let r ← s.regionHeld (.ast xg xm) (s.x xg)
    s.checkRegionMem (.ast xg xm) (s.x xm) r 4 [0, 3, 5]
    let t ← s.issueTile (.ast r (s.x xm))
    .ok t.step4)

/-- ASCALE (R318). -/
def execAscale (xg xs : Reg) (s : State) : Out :=
  finish s (do
    let r ← s.regionHeld (.ascale xg xs) (s.x xg)
    let t ← s.issueTile (.ascale r ((s.x xs).truncate 32))
    .ok t.step4)

/-- Whether a region is a row of 64 lanes (R319). -/
def Region.isRow (r : Region) : Bool := r.nr = 0 && r.nc = 0 && r.col ≤ 64

/-- AMOVV: it reads the store as it stands (R319, R320). -/
def execAmovv (vd xg : Reg) (s : State) : Out :=
  finish s (do
    let r ← s.regionHeld (.amovv vd xg) (s.x xg)
    require r.isRow 2 (.amovv vd xg)
    .ok ((s.setV vd (packV 32 (fun i => s.readNat (accKey s.lcore (512 * r.row + 4 * (r.col + i))) 4))).step4))

/-- AMOVA (R319). -/
def execAmova (xg vb : Reg) (s : State) : Out :=
  finish s (do
    let r ← s.regionHeld (.amova xg vb) (s.x xg)
    require r.isRow 2 (.amova xg vb)
    let t ← s.issueTile (.amova r (s.v vb))
    .ok t.step4)

/-- UNFCFG (R314). -/
def execUnfcfg (xs : Reg) (s : State) : Out :=
  finish s (do
    let (d, t) ← s.descriptor 64 8 (s.x xs)
    require (Unf.ok d) 2 (.unfcfg xs)
    if 16 ≤ (s.aux s.cur).tiles.length then (if s.hart.young.tileIds.isEmpty then .error (.stall s) else .error .before) else
    let t ← t.issueTile (.unfcfg d)
    let a := t.aux t.cur
    .ok (t.setAux t.cur { a with unfIssued := a.unfIssued ++ [((a.tiles.getLast?).getD 0, d)] }).step4)

end Sys2Proof.Machine
end

