-- ==== Sys2Proof/Machine/Debug.lean ====
section
/-! DEFINITION. The debug module: halt, resume, step (R410 to R413), the registers at 0x7A0 to 0x7BF on the path of a context
or of the management BAR (R409). -/

namespace Sys2Proof.Machine

/-- Put a copy among those that arrived before it. -/
def insertCopy (p : Nat × ReqCopy) : List (Nat × ReqCopy) → List (Nat × ReqCopy)
  | [] => [p]
  | q :: qs => if (p.2.came.map (·.2)).getD 0 < (q.2.came.map (·.2)).getD 0 then p :: q :: qs else q :: insertCopy p qs

/-- The copies of requests that wait in the interfaces of a sorus, in order of arrival (R382). -/
def State.heldCopies (s : State) (n : Nat) : List (Nat × ReqCopy) :=
  (s.flight.rcopies.filter (fun r => r.2.core / 16 = n && !r.2.queued && r.2.came.isSome)).foldl (fun l p => insertCopy p l) []

/-- Happenings of a sorus that may go on once it issues and takes traffic again (R412, R49). -/
def State.pokeSorus (s : State) (n : Nat) : State :=
  let s := (List.range 16).foldl (fun s c =>
    let L := 16 * n + c
    let s := ((s.poke (.selection L)).poke (.copyHeadCheck L)).poke (.copySectorWritten L)
    s.poke (.tileOperationComplete L)) s
  let s := s.auxs.foldl (fun s q =>
    if q.1 / 64 = n then
      let s := q.2.fetch.foldl (fun s f => s.poke (.streamFetchReturn q.1 f.1)) s
      q.2.drain.foldl (fun s d => s.poke (.streamWriteTransferDone q.1 d.1)) s
    else s) s
  let s := s.flight.msgs.foldl (fun s m => if m.2.core / 16 = n && m.2.left then s.poke (.messageArrival m.1) else s) s
  let s := (s.heldCopies n).foldl (fun s r => s.poke (.ownerRequestArrival r.1)) s
  let s := s.flight.replies.foldl (fun s r =>
    if (tget? s.flight.reqs r.2.rid).any (fun q => q.core / 16 = n) then s.poke (.replyArrival r.1) else s) s
  let s := s.ctxs.foldl (fun s p =>
    if p.1 / 64 != n then s
    else
      let s := match p.2.older with
        | some o => if o.csn.isSome then s.poke (.drainComplete p.1) else s.poke (.localCommit p.1)
        | none => if p.2.trapReq.isSome then s.poke (.localCommit p.1) else s
      let s := if (s.aux p.1).preqs.isEmpty then s else s.poke (.safePoint p.1)
      match p.2.st with
      | .starting => s.poke (.startingComplete p.1)
      | .saving => s.poke (.saveComplete p.1)
      | .restoring => s.poke (.restoreComplete p.1)
      | _ => s) s
  let s := s.poke (.crozierContribution (torusX n))
  if (s.sorus n).barq.isEmpty then s else s.poke (.barrierUpdate n)

/-! ### Detection timers (R412, R438) -/

/-- The launches that have firings or groups in a sorus. -/
def State.keysIn (s : State) (n : Nat) : List Nat :=
  let here := s.parts.flatMap (fun p => (p.2.launches.filter (fun l => l.2.groups.any (fun g => g.sorus = n))).map (fun l => 64 * p.1 + l.1))
  s.ctxs.foldl (fun l p =>
    if p.1 / 64 = n then (match p.2.firing.bind (·.key) with | some k => insertNew l k | none => l) else l) here

/-- The detection timers of the launches of a sorus that halts pause. -/
def State.dlPause (s : State) (n : Nat) : State :=
  (s.keysIn n).foldl (fun s k =>
    match tget? (s.part (k / 64)).launches (k % 64) with
    | none => s
    | some l =>
      match l.dlDue with
      | some t => s.setLaunch k { l with dlDue := none, dlLeft := some (t - s.gtime) }
      | none => s) s

/-- Those of which no sorus is halted any more run on. -/
def State.dlResume (s : State) (n : Nat) : State :=
  (s.keysIn n).foldl (fun s k =>
    match tget? (s.part (k / 64)).launches (k % 64) with
    | none => s
    | some l =>
      match l.dlLeft with
      | some r =>
        if s.launchHalted k then s
        else (s.setLaunch k { l with dlDue := some (s.gtime + r), dlLeft := none }).after r
          (.detectionTimerExpiry (k / 64) (k % 64) (s.gtime + r))
      | none => s) s

/-! ### Halt -/

/-- The engines of a sorus that halts (R412): the tile operations that run complete, and the copies under way stop in their sectors. -/
def State.haltEngines (s : State) (n : Nat) : State :=
  (List.range 16).foldl (fun s c =>
    let L := 16 * n + c
    let k := s.core L
    match k.matq with
    | [] => if k.copyq.isEmpty then s else s.poke (.copySectorWritten L)
    | t :: ts =>
      let s := s.setCore L { k with matq := { t with running := t.ready } :: ts }
      if k.copyq.isEmpty then s else s.poke (.copySectorWritten L)) s

/-- One sorus halts: a DHALT record (R417). -/
def State.haltOne (s : State) (n : Nat) : State :=
  let x := s.sx n
  if x.halted then s
  else
    let s := s.traceRecord n (s.traceHead (64 * n) 7 0) (word (s.localTime (16 * n)))
    ((s.setSx n { s.sx n with halted := true }).dlPause n).haltEngines n

/-- A halt spreads along the trigger channels (R411): the fuel bounds the waves. -/
def State.haltWave : Nat → List Nat → State → State
  | 0, _, s => s
  | k + 1, ns, s =>
    let fresh := ns.filter (fun n => !(s.sx n).halted)
    if fresh.isEmpty then s
    else
      let t := fresh.foldl State.haltOne s
      let raised := fresh.foldl (fun m n => m ||| (s.sx n).xout) 0
      State.haltWave k ((t.saux.map (·.1)).filter (fun n => (t.sx n).xin &&& raised != 0)) t

/-- A sorus halts, with every sorus its triggers reach (R411). -/
def State.haltSorus (s : State) (n : Nat) : State := State.haltWave 161 [n] s

/-- The pre-emption requests that a halted sorus has held reach its contexts (R422). -/
def State.drainHeld (s : State) (n : Nat) : State :=
  s.ctxs.foldl (fun s p =>
    if p.1 / 64 != n || (s.aux p.1).preqs.isEmpty then s
    else match p.2.st with
      | .running => if (s.aux p.1).fence.isSome then s else s.setCtx p.1 { p.2 with st := .draining }
      | .waiting => s.poke (.safePoint p.1)
      | _ => s) s

/-- A halted sorus resumes (R412). -/
def State.resumeSorus (s : State) (n : Nat) : State :=
  let x := s.sx n
  if !x.halted then s else ((((s.setSx n { x with halted := false }).takeAll n).dlResume n).drainHeld n).pokeSorus n

/-- One instruction of the context that a selector names is issued, only while its sorus is halted and it is Running (R413). -/
def State.stepSorus (s : State) (n : Nat) (sel : Word) : State :=
  let x := s.sx n
  let h := 64 * n + bits sel 5 0
  let c := s.ctx h
  if !x.halted || c.st != .running then s
  else { (s.setSx n { x with stepping := some h }) with script := .issue (h / 4) :: s.script }

/-- DBGCTL (R410). -/
def SorusAux.dbgctl (x : SorusAux) : Word :=
  word (x.xout * 2 ^ 36 + x.xin * 2 ^ 32 + x.trlvl * 2 ^ 24 + flag x.halted * 128 + flag x.arm * 32)

/-- A write of DBGCTL (R410, R422): a resume applies before a halt. `sel` is the selector of the path. -/
def State.writeDbgctl (s : State) (n : Nat) (sel v : Word) : State :=
  let x := s.sx n
  let s := s.setSx n { x with xout := bits v 39 36, xin := bits v 35 32, trlvl := bits v 26 24, arm := bit v 5 }
  let s := if bit v 2 then s.resumeSorus n else s
  let s := if bit v 1 then s.haltSorus n else s
  if bit v 3 then s.stepSorus n sel else s

/-- The selectors of a path: a context's own, or those of its sorus's BAR path (R409). -/
structure DbgPath where
  sel : Word
  ridx : Word
  inf : Word
  cap : Word
  core : Nat

/-- The path of a context, or of the BAR. -/
def State.dbgPath (s : State) (n : Nat) : Option Nat → DbgPath
  | some h => { sel := (s.aux h).dbgsel, ridx := (s.aux h).dbgridx, inf := (s.aux h).infidx, cap := (s.aux h).capidx, core := h / 4 }
  | none =>
    let x := s.sx n
    { sel := x.dbgsel, ridx := x.dbgridx, inf := x.infidx, cap := x.capidx, core := 16 * n + bits x.dbgsel 5 2 }

/-- INFIDX (R415). -/
def State.infIdx (s : State) (h : Nat) (inf : Word) : Word :=
  let n := (s.inflTable h).length
  word (flag (127 < n) * 2 ^ 15 + min 127 n * 2 ^ 8 + bits inf 6 0)

/-- The entry of the in-flight table that INFIDX selects. -/
def State.infEnt (s : State) (h : Nat) (inf : Word) : Option InfEnt := ((s.inflTable h).take 127)[bits inf 6 0]?

/-- INFHI (R415): the serial is that of an outstanding request. -/
def State.infHi (s : State) (h : Nat) (inf : Word) : Word :=
  match s.infEnt h inf with
  | none => 0
  | some e =>
    let rq := if e.kind = 4 then (s.flight.reqs.find? (fun p => p.2.id = e.ref)).map (·.2) else none
    let ser := (rq.map (·.serial)).getD 0
    word (e.kind * 2 ^ 60 + e.reg * 2 ^ 55 + ser * 2 ^ 39 + e.target * 2 ^ 27)

/-- Replace 64 bits of a wide value. -/
def setElem64 {n : Nat} (v : BitVec n) (i : Nat) (w : Word) : BitVec n :=
  BitVec.ofNat n (v.toNat - elem v 64 i * 2 ^ (64 * i) + w.toNat * 2 ^ (64 * i))

/-- The 64 bits of a register file that a DBGRDAT selection names, or none (R414). -/
def Ctx.dbgGet (c : Ctx) (ridx : Word) : Option Word :=
  let f := bits ridx 23 21
  let n := bits ridx 20 9
  let e := bits ridx 5 0
  if f = 0 && n < 32 && e = 0 then some (c.regs.getX n)
  else if f = 1 && n < 32 && e < 32 then some (word (elem (c.regs.getV n) 64 e))
  else if f = 2 && n < 8 && e < 8 then some (word (elem (c.regs.getP n) 64 e))
  else if f = 3 && n < 8 then some (word (elem (c.regs.getA n) 64 e))
  else if f = 4 && e = 0 then some c.pc
  else none

/-- Write the selected 64 bits (R414). -/
def Ctx.dbgSet (c : Ctx) (ridx v : Word) : Ctx :=
  let f := bits ridx 23 21
  let n := bits ridx 20 9
  let e := bits ridx 5 0
  if (c.dbgGet ridx).isNone then c
  else if f = 0 then { c with regs := c.regs.setX n v }
  else if f = 1 then { c with regs := c.regs.setV n (setElem64 (c.regs.getV n) e v) }
  else if f = 2 then { c with regs := c.regs.setP n (setElem64 (c.regs.getP n) e v) }
  else if f = 3 then { c with regs := c.regs.setA n (setElem64 (c.regs.getA n) e v) }
  else { c with pc := setBits v 0 2 0 }

end Sys2Proof.Machine
end

