-- ==== Sys2Proof/Machine/Csr.lean ====
section
/-! DEFINITION. The CSRs: what each reads and stores (R232 to R235 and the rules it names), and the six Zicsr instructions
(R247 to R249). -/

namespace Sys2Proof.Machine

/-! ### Reads -/

/-- LQSTAT of a partition (R105). -/
def Part.lqstat (q : Part) : Word := word (q.ov.length * 2 ^ 32 + q.launches.length * 2 ^ 16 + q.hubq.length)

/-- The copies a context has issued and not completed, the held ones included (R342). -/
def State.copiesOf (s : State) (h : Nat) : Nat :=
  let c := s.ctx h
  let heldIn (k : Chunk) : Nat := (k.held.filter (fun i => match i with | .copy _ _ _ => true | _ => false)).length
  let fid := (c.firing.map (·.fid)).getD 0
  (s.flight.copies.filter (fun p => p.2.fid = fid && !p.2.discard)).length + heldIn c.young +
    (match c.older with | some o => heldIn o | none => 0)

/-- Committed write transfers of a context's ports not yet visible (R342); those that an earlier firing left are not its own. -/
def CtxAux.storesOut (a : CtxAux) : Nat := a.drain.foldl (fun n d => if d.1 < 8 then n + d.2.queue.length else n) 0
/-- Stream fetches in flight (R342). -/
def CtxAux.loadsOut (a : CtxAux) : Nat := a.fetch.foldl (fun n f => n + f.2.flying) 0

/-- XCTR (R342). -/
def State.xctr (s : State) (h : Nat) : Word :=
  let a := s.aux h
  word (a.tiles.length * 2 ^ 24 + s.copiesOf h * 2 ^ 16 + a.storesOut * 2 ^ 8 + a.loadsOut)

/-- INSTRET of a context: the committed instructions and those of its uncommitted chunks (R249). -/
def State.instretOf (s : State) (h : Nat) : Word :=
  let c := s.ctx h
  (s.aux h).instret + word ((match c.older with | some o => o.n | none => 0) + c.young.n)

/-- BOOSTLVL (R61). -/
def State.boostlvl (s : State) (h : Nat) : Word :=
  let a := s.aux h
  let x := s.sorus (h / 64)
  word (a.bpri * 2 ^ 8 + flag x.grace * 64 + x.level * 16 + a.req)

/-- The partition that the per-partition CSRs of a context view: its firing's (R236). -/
def State.partFor (s : State) (h : Nat) : Nat :=
  match (s.ctx h).firing with | some f => f.part | none => (s.sorus (h / 64)).part

/-- mie.EI or mip.EI as a word. -/
def eiWord (b : Bool) : Word := word (flag b * 2 ^ 9)

/-- The trap CSRs (R426). -/
def State.trapGet (s : State) (h c : Nat) : Word :=
  let y := (s.ctx h).sys
  let k := s.core (h / 4)
  let view (b : Bool) : Word := if bit k.mideleg 9 then eiWord b else 0
  if c = 0x100 then keepBits y.status (2 ^ 8 + 2 ^ 5 + 2)
  else if c = 0x104 then view y.ei
  else if c = 0x105 then k.stvec
  else if c = 0x141 then y.sepc
  else if c = 0x142 then y.scause
  else if c = 0x143 then y.stval
  else if c = 0x144 then view y.pendEi
  else if c = 0x300 then y.status
  else if c = 0x301 then 0x8000000000801100
  else if c = 0x302 then k.medeleg
  else if c = 0x303 then k.mideleg
  else if c = 0x304 then eiWord y.ei
  else if c = 0x305 then k.mtvec
  else if c = 0x341 then y.mepc
  else if c = 0x342 then y.mcause
  else if c = 0x343 then y.mtval
  else eiWord y.pendEi

/-- The debug and trace registers but for DBGRDAT, on a path of sorus `n` (R409 to R421). -/
def State.debugGet (s : State) (n : Nat) (via : Option Nat) (c : Nat) : Word :=
  let x := s.sx n
  let p := s.dbgPath n via
  let h := 64 * n + bits p.sel 5 0
  if c = 0x7A0 then x.dbgctl
  else if c = 0x7A1 then p.sel
  else if c = 0x7A2 then p.ridx
  else if c = 0x7A4 then s.infIdx h p.inf
  else if c = 0x7A5 then (match s.infEnt h p.inf with | some e => word e.time | none => 0)
  else if c = 0x7A6 then s.infHi h p.inf
  else if c = 0x7A8 then x.trbase
  else if c = 0x7A9 then x.trsize
  else if c = 0x7AA then word (x.trlost * 2 ^ 48 + x.troff)
  else if c = 0x7AB then word x.syncper
  else if c = 0x7B0 then p.cap
  else if c = 0x7B1 then word (tget 0 (s.core p.core).capevt (bits p.cap 4 0))
  else if c = 0x7B8 then s.fabric.rgcfg
  else if c = 0x7B9 then word (s.fabric.rgseq * 2 ^ 32)
  else 0

/-- The CSRs of firings, channels, copies and time. -/
def State.userGet (s : State) (h c : Nat) : Word :=
  let k := s.core (h / 4)
  let q := s.part (s.partFor h)
  if c = 0x800 then s.boostlvl h
  else if c = 0x801 then k.chmask
  else if c = 0x802 then (s.slot (s.slotOf (s.partFor h))).ppool
  else if 0x810 ≤ c && c ≤ 0x819 then tget 0 k.fmt (c - 0x810)
  else if 0x820 ≤ c && c ≤ 0x82A then tget 0 (s.ctx h).shadow.cpy c
  else if c = 0x82B then k.cpyperm
  else if 0x830 ≤ c && c ≤ 0x83F then k.entry (c - 0x830)
  else if c = 0x840 then q.lqcfg
  else if c = 0x841 then q.svcfg
  else if c = 0x842 then q.spocfg
  else if c = 0xB00 || c = 0xC00 then s.cycleCsr (h / 4)
  else if c = 0xB02 || c = 0xC02 then s.instretOf h
  else if c = 0xC01 then word (s.localTime (h / 4))
  else if c = 0xCC0 then s.tratio (h / 4)
  else if c = 0xCC1 then q.lqstat
  else if c = 0xCC2 then s.xctr h
  else word h

/-- The hub register that HCADDR names (R235). -/
def Shadow.hubReg (w : Shadow) : Option HubReg := Machine.hubReg (bits w.hcaddr 23 3 * 8)

/-- What a CSR of context `h` reads, DBGRDAT apart. -/
def State.csrGet0 (s : State) (h c : Nat) : Word :=
  let w := (s.ctx h).shadow
  if c = 0x140 then w.sscratch
  else if c = 0x340 then w.mscratch
  else if c < 0x400 then s.trapGet h c
  else if c = 0x5C0 then (s.part (s.partFor h)).ptroot
  else if c = 0x5C1 then (s.part (s.partFor h)).tlbinv
  else if c = 0x5C2 then (s.core (h / 4)).finj
  else if 0x7A0 ≤ c && c ≤ 0x7BF then s.debugGet (h / 64) (some h) c
  else if c = 0x7C0 then w.lcmapx
  else if c = 0x7C1 then s.lcmap w.lcmapx.toNat
  else if c = 0x7C2 then w.hcaddr
  else if c = 0x7C3 then (match w.hubReg with | some r => s.hubRead r | none => 0)
  else if c = 0x7C4 then (s.core (h / 4)).compat
  else s.userGet h c

/-- DBGRDAT on a path of sorus `n` (R414): 0 unless the sorus is halted, the context is not Free and the selection names
something. -/
def State.dbgrdat (s : State) (n : Nat) (sel ridx : Word) : Word :=
  let h := 64 * n + bits sel 5 0
  let c := s.ctx h
  if !(s.sx n).halted || c.st = .free then 0
  else if bits ridx 23 21 = 5 then
    (if bits ridx 5 0 = 0 && (csrRow (bits ridx 20 9)).isSome && bits ridx 20 9 != 0x7A3 then s.csrGet0 h (bits ridx 20 9) else 0)
  else (c.dbgGet ridx).getD 0

/-- What a CSR of context `h` reads. -/
def State.csrGet (s : State) (h c : Nat) : Word :=
  if c = 0x7A3 then s.dbgrdat (h / 64) (s.aux h).dbgsel (s.aux h).dbgridx else s.csrGet0 h c

/-! ### Writes -/

/-- What a CSR of the checkpoint stores (R232 Bound "no"). -/
def Shadow.put (w : Shadow) (c : Nat) (v : Word) : Shadow :=
  if c = 0x140 then { w with sscratch := v }
  else if c = 0x340 then { w with mscratch := v }
  else if c = 0x7C0 then { w with lcmapx := keepBits v (ones 11 0) }
  else if c = 0x7C2 then { w with hcaddr := keepBits v (ones 23 3) }
  else if 0x826 ≤ c && c ≤ 0x829 then { w with cpy := tset 0 w.cpy c (keepBits v (ones 31 0)) }
  else if c = 0x82A then { w with cpy := tset 0 w.cpy c (keepBits v (ones 19 8 + ones 5 0)) }
  else { w with cpy := tset 0 w.cpy c v }

/-- What mstatus stores. -/
def mstatusStore (v : Word) : Word :=
  let v := if bits v 12 11 = 2 then setBits v 11 2 0 else v
  keepBits v (ones 12 11 + ones 8 7 + 32 + 8 + 2)

/-- A write of a trap CSR (R426). -/
def State.trapPut (s : State) (h c : Nat) (v : Word) : State :=
  let x := s.ctx h
  let y := x.sys
  let k := s.core (h / 4)
  let put (z : SysRegs) : State := s.setCtx h { x with sys := z }
  let epc := setBits v 0 2 0
  if c = 0x100 then
    put { y with status := (y.status &&& ~~~(word (2 ^ 8 + 2 ^ 5 + 2))) ||| keepBits v (2 ^ 8 + 2 ^ 5 + 2) }
  else if c = 0x104 then (if bit k.mideleg 9 then put { y with ei := bit v 9 } else s)
  else if c = 0x105 then s.setCore (h / 4) { k with stvec := tvecStore v }
  else if c = 0x141 then put { y with sepc := epc }
  else if c = 0x142 then put { y with scause := v }
  else if c = 0x143 then put { y with stval := v }
  else if c = 0x300 then put { y with status := mstatusStore v }
  else if c = 0x302 then s.setCore (h / 4) { k with medeleg := medelegStore v }
  else if c = 0x303 then s.setCore (h / 4) { k with mideleg := midelegStore v }
  else if c = 0x304 then put { y with ei := bit v 9 }
  else if c = 0x305 then s.setCore (h / 4) { k with mtvec := tvecStore v }
  else if c = 0x341 then put { y with mepc := epc }
  else if c = 0x342 then put { y with mcause := v }
  else if c = 0x343 then put { y with mtval := v }
  else s

/-- A selector of a path is replaced (R409). -/
def State.putSel (s : State) (n : Nat) (via : Option Nat) (c : Nat) (v : Word) : State :=
  let sel := keepBits v (ones 5 0)
  let rid := keepBits v (ones 23 9 + ones 5 0)
  let inf := keepBits v (ones 6 0)
  let cap := keepBits v (ones 4 0)
  match via with
  | some h =>
    let a := s.aux h
    s.setAux h (if c = 0x7A1 then { a with dbgsel := sel } else if c = 0x7A2 then { a with dbgridx := rid }
      else if c = 0x7A4 then { a with infidx := inf } else { a with capidx := cap })
  | none =>
    let x := s.sx n
    s.setSx n (if c = 0x7A1 then { x with dbgsel := sel } else if c = 0x7A2 then { x with dbgridx := rid }
      else if c = 0x7A4 then { x with infidx := inf } else { x with capidx := cap })

/-- A write of a debug or trace register but DBGRDAT, on a path of sorus `n`. -/
def State.debugPut (s : State) (n : Nat) (via : Option Nat) (c : Nat) (v : Word) : State :=
  let x := s.sx n
  let p := s.dbgPath n via
  if c = 0x7A0 then s.writeDbgctl n p.sel v
  else if c = 0x7A1 || c = 0x7A2 || c = 0x7A4 || c = 0x7B0 then s.putSel n via c v
  else if c = 0x7A8 then s.setSx n { x with trbase := keepBits v (ones 51 12 + 1) }
  else if c = 0x7A9 then s.setSx n { x with trsize := keepBits v (ones 19 0) }
  else if c = 0x7AB then s.setSx n { x with syncper := bits v 15 0 }
  else if c = 0x7B1 then
    let k := s.core p.core
    s.setCore p.core { k with capevt := tset 0 k.capevt (bits p.cap 4 0) (bits v 7 0) }
  else if c = 0x7B8 then { s with fabric := { s.fabric with rgcfg := keepBits v (ones 51 4) } }
  else s

/-- A write of FMTb (R176): a code of 12 to 15 leaves FMT unchanged. -/
def fmtStore (old v : Word) : Word :=
  keepBits (if 12 ≤ bits v 3 0 then setBits v 0 4 (bits old 3 0) else v) (ones 15 6 + ones 3 0)

/-- A write of FINJ from a level (R463). DONE keeps its count; from M it acts for every tenant. -/
def State.writeFinj (s : State) (L : Nat) (fromM : Bool) (v : Word) : State :=
  let k := s.core L
  let t := if fromM then 0xFFFF else (match s.partOf L with | some p => s.tenantOf (s.slotOf p) | none => 0)
  let kind := if bits v 9 8 = 3 then bits k.finj 9 8 else bits v 9 8
  s.setCore L { k with finj := word (t * 2 ^ 48 + bits k.finj 47 40 * 2 ^ 40 + bits v 39 32 * 2 ^ 32 + bits v 19 16 * 2 ^ 16 +
    kind * 2 ^ 8) }

/-- DONE of FINJ clears (R463). -/
def State.clearFinj (s : State) (L : Nat) : State :=
  let k := s.core L
  s.setCore L { k with finj := setBits k.finj 40 8 0 }

/-- A write of BOOSTLVL (R61): a request of 3 leaves REQ unchanged. -/
def State.writeBoost (s : State) (h : Nat) (v : Word) : State :=
  let a := s.aux h
  s.setAux h { a with req := if bits v 1 0 = 3 then a.req else bits v 1 0, bpri := bits v 10 8 }

/-- A write of a CSR of firings, channels and partitions. -/
def State.userPut (s : State) (h c : Nat) (v : Word) (p : Priv) : State :=
  let L := h / 4
  let k := s.core L
  let P := s.partFor h
  if c = 0x800 then s.writeBoost h v
  else if c = 0x801 then s.writeChmask L v p
  else if c = 0x802 then s.hubWrite (.ppool (s.slotOf P)) v
  else if 0x810 ≤ c && c ≤ 0x819 then
    s.setCore L { k with fmt := tset 0 k.fmt (c - 0x810) (fmtStore (tget 0 k.fmt (c - 0x810)) v) }
  else if c = 0x82B then s.setCore L { k with cpyperm := keepBits v (ones 57 48 + ones 16 0) }
  else if 0x830 ≤ c && c ≤ 0x83F then s.writeHte L (c - 0x830) v (p = .m)
  else if c = 0x840 then s.hubWrite (.lqcfg P) v
  else if c = 0x841 then s.hubWrite (.svcfg P) v
  else if c = 0x842 then s.hubWrite (.spocfg P) v
  else if c = 0xB00 then s.setCore L { k with cycOff := v - word (s.cycles L) }
  else if c = 0xB02 then s.setAux h { s.aux h with instret := v }
  else s

/-- A write of a CSR with Bound "yes", DBGRDAT apart, as its chunk commits. -/
def State.csrPut0 (s : State) (h c : Nat) (v : Word) (p : Priv) : State :=
  if c < 0x400 then s.trapPut h c v
  else if c = 0x5C0 then s.putPtroot (s.partFor h) v
  else if c = 0x5C1 then s.putTlbinv (s.partFor h) v
  else if c = 0x5C2 then s.writeFinj (h / 4) (p = .m) v
  else if 0x7A0 ≤ c && c ≤ 0x7BF then s.debugPut (h / 64) (some h) c v
  else if c = 0x7C1 then
    (if bits (s.ctx h).shadow.lcmapx 11 0 ≤ 2559 then s.hubWrite (.lcmap (bits (s.ctx h).shadow.lcmapx 11 0)) v else s)
  else if c = 0x7C4 then s.setCore (h / 4) { s.core (h / 4) with compat := keepBits v 1 }
  else s.userPut h c v p

/-- A write of DBGRDAT (R414): the selected 64 bits of the current value in the uncommitted chunk. -/
def State.writeDbgrdat (s : State) (h : Nat) (ridx v : Word) : State :=
  let c := s.ctx h
  if !(s.sx (h / 64)).halted || c.st = .free then s
  else if bits ridx 23 21 = 5 then
    let a := bits ridx 20 9
    match csrRow a with
    | none => s
    | some r =>
      if bits ridx 5 0 != 0 || r.write.isNone || a = 0x7A3 then s
      else if r.bound then s.csrPut0 h a v .m
      else s.setCtx h { c with shadow := c.shadow.put a v }
  else s.setCtx h (c.dbgSet ridx v)

/-- A write of a CSR with Bound "yes", as its chunk commits. An address from 4096 on is a hub address (R235). -/
def State.csrPut (s : State) (h c : Nat) (v : Word) (p : Priv) : State :=
  if 4096 ≤ c then (match hubReg (c - 4096) with | some r => s.hubWrite r v | none => s)
  else if c = 0x7A3 then s.writeDbgrdat (64 * (h / 64) + bits (s.aux h).dbgsel 5 0) (s.aux h).dbgridx v
  else s.csrPut0 h c v p

/-- A register of a context receives a value as the chunk before its executing one commits: the executing chunk starts with it. -/
def Ctx.learn (c : Ctx) (r : Nat) (v : Word) : Ctx :=
  { c with regs := c.regs.setX r v, young := { c.young with ck := { c.young.ck with regs := c.young.ck.regs.setX r v } } }

/-- What a held CSR access comes to, as one step (R247): `rd` receives what the CSR holds at the commit, and the CSR the value, or that
with bits set or cleared. -/
def State.csrCommit (s : State) (h c op : Nat) (v : Word) (p : Priv) (rd : Nat) : State :=
  let cur := if 4096 ≤ c then (match hubReg (c - 4096) with | some r => s.hubRead r | none => 0) else s.csrGet h c
  let s := if rd = 0 then s else s.setCtx h ((s.ctx h).learn rd cur)
  s.csrPut h c (if op = 0 then v else if op = 1 then cur ||| v else cur &&& ~~~v) p

/-- The fields of access RC of a CSR, or of the hub register HCADDR named, clear (R248). -/
def State.csrClear (s : State) (h c : Nat) : State :=
  if 4096 ≤ c then (match hubReg (c - 4096) with | some (.pstat n 1) => s.clearPstat n | _ => s)
  else if c = 0x5C2 then s.clearFinj (h / 4) else s

/-! ### The instructions (R247) -/

/-- PRIV for an access that the CSR's rules refuse (R442): HCDATA while HCADDR names no register, a write of FMTb by a firing
that does not own the bank. -/
def State.csrSpecial (s : State) (c : Nat) (writes : Bool) : Bool :=
  if c = 0x7C3 then s.hart.shadow.hubReg.isSome
  else if 0x810 ≤ c && c ≤ 0x819 && writes then
    s.hart.firing.any (fun f => (s.bank s.lcore (c - 0x810)).own = some f.fid)
  else true

/-- The address under which an access of a CSR is held: HCDATA is held under the hub address it reaches. -/
def State.csrTarget (s : State) (c : Nat) : Nat :=
  if c = 0x7C3 then 4096 + bits s.hart.shadow.hcaddr 23 3 * 8 else c

/-- Whether a read of a CSR clears a field (R248). A read of DBGRDAT clears nothing, whatever register its selection names (R414; DESIGN
CHOICE, unsafe: the spec does not say whether the read of a field of access RC through DBGRDAT clears it; log 96). -/
def State.csrReadClears (s : State) (c : Nat) : Bool :=
  c = 0x5C2 || (c = 0x7C3 && (match s.hart.shadow.hubReg with | some (.pstat _ 1) => true | _ => false))

/-- A Zicsr instruction: `op` 0 writes, 1 sets, 2 clears; `field` is the rs1 field and `y` the operand. A write of a CSR with Bound "yes"
takes place at the commit, and the read that goes with it too (R247, R251): nothing issues before. Of mcycle and minstret the read is that of
the cycle in which the instruction issues (R238, R383). -/
def State.csrOp (s : State) (i : Instr) (op : Nat) (rd : Reg) (csr : BitVec 12) (field : BitVec 5) (y : Word) : Out :=
  let c := csr.toNat
  let reads := op != 0 || rd != 0
  let writes := op = 0 || field != 0
  match csrRow c with
  | none => .next (s.raise 2 (word (wordOf i).toNat))
  | some row =>
    finish s (do
      check (!reads || s.atLeast row.read) 24 (word (wordOf i).toNat)
      check (!writes || s.atLeast (row.write.getD .m)) 24 (word (wordOf i).toNat)
      check (s.csrSpecial c writes) 24 (word (wordOf i).toNat)
      let old := s.csrGet s.cur c
      let clears (t : State) : State := if reads && s.csrReadClears c then t.hold (.clear (s.csrTarget c)) else t
      let new := if op = 0 then y else if op = 1 then old ||| y else old &&& ~~~y
      if !writes then .ok (clears (s.setX rd old)).step4
      else if c = 0xB00 || c = 0xB02 then .ok (((if reads then s.setX rd old else s).hold (.csr c 0 new s.hart.priv 0)).stepSync)
      else if row.bound then .ok (clears (s.hold (.csr (s.csrTarget c) op y s.hart.priv rd.toNat))).stepSync
      else
        let t := clears (if reads then s.setX rd old else s)
        .ok ((t.setHart { t.hart with shadow := t.hart.shadow.put c new }).step4))

/-- CSRRW (R247). -/
def execCsrrw (rd : Reg) (csr : BitVec 12) (rs : Reg) (s : State) : Out :=
  s.csrOp (.csrrw rd csr rs) 0 rd csr rs (s.x rs)
/-- CSRRS (R247). -/
def execCsrrs (rd : Reg) (csr : BitVec 12) (rs : Reg) (s : State) : Out :=
  s.csrOp (.csrrs rd csr rs) 1 rd csr rs (s.x rs)
/-- CSRRC (R247). -/
def execCsrrc (rd : Reg) (csr : BitVec 12) (rs : Reg) (s : State) : Out :=
  s.csrOp (.csrrc rd csr rs) 2 rd csr rs (s.x rs)
/-- CSRRWI (R247). -/
def execCsrrwi (rd : Reg) (csr : BitVec 12) (u : BitVec 5) (s : State) : Out :=
  s.csrOp (.csrrwi rd csr u) 0 rd csr u (u.zeroExtend 64)
/-- CSRRSI (R247). -/
def execCsrrsi (rd : Reg) (csr : BitVec 12) (u : BitVec 5) (s : State) : Out :=
  s.csrOp (.csrrsi rd csr u) 1 rd csr u (u.zeroExtend 64)
/-- CSRRCI (R247). -/
def execCsrrci (rd : Reg) (csr : BitVec 12) (u : BitVec 5) (s : State) : Out :=
  s.csrOp (.csrrci rd csr u) 2 rd csr u (u.zeroExtend 64)

end Sys2Proof.Machine
end

