-- ==== Sys2Proof/Machine/Stream.lean ====
section
/-! DEFINITION. Stream ports at issue (R321 to R328). -/

namespace Sys2Proof.Machine

/-! ### A bound port -/

/-- Ntot (R323). -/
def Port.total (p : Port) : Nat := p.cnt.foldl (fun n c => n * (c + 1)) 1

/-- The sum of iₐ·STRIDEₐ for element `k`, over the dimensions from the first on. -/
def strideSum : List Nat → List Word → Nat → Word
  | c :: cs, d :: ds, k => word (k % (c + 1)) * d + strideSum cs ds (k / (c + 1))
  | _, _, _ => 0

/-- The address of element `k` (R323). -/
def Port.addr (p : Port) (k : Nat) : Word := p.base + strideSum p.cnt p.stride k

/-- The element type in memory of a memory format. -/
def mfTy3 : Nat → Ty3
  | 1 => .i8 | 2 => .i16 | 3 => .i32 | 5 => .f32 | 6 => .bf16 | 7 => .f16 | 8 => .e4m3 | _ => .e5m2

/-- Bytes of an element in memory. -/
def Port.size (p : Port) : Nat := mfBits p.mfmt / 8

/-- Position `i` beyond P, none past the last element of a port that does not wrap (R324). -/
def Port.at (p : Port) (i : Nat) : Option Nat :=
  if p.wrap then some ((p.pos + i) % p.total) else if p.pos + i < p.total then some (p.pos + i) else none

/-- The next `n` positions. -/
def Port.ahead (p : Port) (n : Nat) : List Nat := (List.range n).filterMap p.at

/-- P past `n` elements (R324). -/
def Port.advance (p : Port) (n : Nat) : Port :=
  { p with pos := if p.wrap then (p.pos + n) % p.total else min (p.pos + n) p.total }

/-- Port `q` of a context. -/
def Ctx.port (c : Ctx) (q : Nat) : Option Port := tget? c.shadow.ports q

/-! ### Fetching ahead (R326) -/

/-- The fetch side of a port, empty where it fetched for another binding. -/
def CtxAux.fetchOf (a : CtxAux) (q bind : Nat) : Fetch :=
  match tget? a.fetch q with
  | some f => if f.bind = bind then f else { bind := bind, els := [], flying := f.flying, stop := none, dead := false }
  | none => { bind := bind, els := [], flying := 0, stop := none, dead := false }

/-- The elements within 1 KiB beyond P that the port does not hold and may fetch: those before the one at which it has stopped, and none
from there on once it has been ended there (R326, R328, R445, R446). -/
def Port.wanted (p : Port) (f : Fetch) : List Nat :=
  let ks := (p.ahead (min p.total (1024 / p.size))).filter (fun k => !thas f.els k)
  match f.stop with
  | none => ks
  | some (j, _) => if f.dead then ks.filter (fun k => k < j) else ks.takeWhile (fun k => k != j)

/-- Whether an element reads 0, since its port has been ended at or before it (R446). -/
def Fetch.ended (f : Fetch) (k : Nat) : Bool := f.dead && f.stop.any (fun j => j.1 ≤ k)

/-- Whether a FENCE.X that has issued and not completed keeps the accesses of a class from beginning (R148). -/
def State.fenced (s : State) (h cls : Nat) : Bool :=
  let c := s.ctx h
  let holds (k : Chunk) : Bool := k.held.any (fun i => match i with | .fence _ b => b = cls | _ => false)
  (s.aux h).fence.any (fun p => p.2 = cls) || holds c.young || (match c.older with | some o => holds o | none => false)

/-- A read port fetches the next element it does not hold, unless a fence or a halt keeps it (R148, R412). -/
def State.fetchGo (s : State) (h q : Nat) : State :=
  match (s.ctx h).port q with
  | none => s
  | some p =>
    if p.dir then s
    else
      let a := s.aux h
      let f := a.fetchOf q p.bind
      if f.flying = 0 && !(p.wanted f).isEmpty && !s.fenced h 3 && !(s.sx (h / 64)).halted then
        (s.setAux h { a with fetch := tput a.fetch q { f with flying := 1 } }).poke (.streamFetchReturn h q)
      else s.setAux h { a with fetch := tput a.fetch q f }

/-! ### Binding (R322) -/

/-- The bank that a base address lies in, as a core and its number, where it lies in a core scratchpad. -/
def State.bankOf (s : State) (va : Word) : Option (Nat × Nat) :=
  if bits va 63 32 = 0xFF00 then some (s.lcore, bits va 31 0 / 0x8000)
  else if bits va 63 40 = 0xFE then some (bits va 39 20, bits va 19 0 / 0x8000)
  else none

/-- Whether a base address lies where a stream may (R322). -/
def State.streamBase (s : State) (va : Word) : Bool :=
  (bits va 63 48 = 0 && bits va 47 40 ≤ 0xFD) || (bits va 63 32 = 0xFF00 && bits va 31 0 < 0x50000) ||
  (bits va 63 32 = 0xFF01 && bits va 31 0 < 0x1F0000) ||
  (bits va 63 40 = 0xFE && bit (s.core s.lcore).compat 0 && bits va 39 20 < 2560 && bits va 19 0 < 0x50000)

/-- An element type from its 3-bit code (R221). -/
def ty3OfNat (n : Nat) : Ty3 :=
  match n with
  | 0 => .i8 | 1 => .i16 | 2 => .i32 | 3 => .f32 | 4 => .bf16 | 5 => .f16 | 6 => .e4m3 | _ => .e5m2

/-- The port that a descriptor describes, with the memory format RAW taken as PTY (R322). -/
def State.streamOf (s : State) (bind : Nat) (d : List Word) : Port :=
  let c := d.getD 1 0
  let pty := ty3OfNat (bits c 6 4)
  let r : Word := match s.bankOf (d.getD 0 0) with
    | some (L, b) => tget 0 (s.core L).fmt b
    | none => word (bits c 3 0 + bits c 9 8 * 64 + flag (bit c 10) * 256)
  { bind := bind, base := d.getD 0 0, wrap := bit c 11, satf := fmtSat r, mode := fmtRm r, dir := bit c 7, pty := pty,
    mfmt := if fmtFmt r = 0 then ty3Mf pty else fmtFmt r,
    cnt := (List.range 4).map (fun i => bits (d.getD 2 0) (16 * i + 15) (16 * i)),
    stride := (List.range 4).map (fun i => d.getD (3 + i) 0), pos := 0 }

/-- Whether a memory format may stand behind a stream (R322). -/
def streamFmt (mf : Nat) : Bool := mf != 4 && mf ≤ 9

/-- Whether every element address the pattern can reach is aligned (R322). -/
def Port.aligned (p : Port) : Bool :=
  p.base.toNat % p.size = 0 && (p.cnt.zip p.stride).all (fun q => q.1 = 0 || q.2.toNat % p.size = 0)

/-- Replace port `q` of the current context. -/
def State.setPort (s : State) (q : Nat) (p : Option Port) : State :=
  let c := s.hart
  s.setHart { c with shadow := { c.shadow with
    ports := match p with | some p => tput c.shadow.ports q p | none => tdel c.shadow.ports q } }

/-- QBIND (R322). -/
def execQbind (q : Reg3) (xs : Reg) (s : State) : Out :=
  finish s (do
    let (d, t) ← s.descriptor 64 8 (s.x xs)
    let i : Instr := .qbind q xs
    require (bits (d.getD 1 0) 63 12 = 0 && d.getD 7 0 = 0) 2 i
    require (s.streamBase (d.getD 0 0)) 3 i
    let (id, t) := t.newId
    let p := t.streamOf id d
    require (streamFmt p.mfmt) (if (s.bankOf (d.getD 0 0)).isSome then 4 else 2) i
    require p.aligned 2 i
    .ok ((t.setPort q.toNat (some p)).fetchGo t.cur q.toNat).step4)

/-- QUNBIND (R321). -/
def execQunbind (q : Reg3) (s : State) : Out := .next (s.setPort q.toNat none).step4

/-! ### The access forms (R324, R325) -/

/-- The port of an access form, bound for the direction and not at its end (R324). -/
def State.streamPort (s : State) (q : Reg3) (dir : Bool) (i : Instr) : Except Stop Port :=
  match s.hart.port q.toNat with
  | none => .error (illegal 6 i)
  | some p => if p.dir = dir && (p.wrap || p.pos < p.total) then .ok p else .error (illegal 6 i)

/-- A load form takes `n` elements; it stalls until all are in the port. -/
def State.takeEls (s : State) (q : Nat) (p : Port) (n : Nat) : Except Stop (List Nat × State) :=
  let a := s.aux s.cur
  let f := a.fetchOf q p.bind
  let ks := p.ahead n
  if ks.any (fun k => !f.ended k && !thas f.els k) then .error (.stall (s.fetchGo s.cur q))
  else
    let vs := (List.range n).map (fun i => match p.at i with
      | some k => if f.ended k then 0
        else (match tget? f.els k with | some c => convert p.pty (mfTy3 p.mfmt) p.mode p.satf c | none => 0)
      | none => 0)
    let t := s.setAux s.cur { a with fetch := tput a.fetch q { f with els := f.els.filter (fun e => !ks.contains e.1) } }
    .ok (vs, (t.setPort q (some (p.advance n))).fetchGo t.cur q)

/-- The transfers that some elements of a port make (R327). -/
def transferCount (els : List StreamEl) : Nat := match els.head? with | some e => (els.length + 64 / e.size - 1) / (64 / e.size) | none => 0

/-- The transfers of a port that a chunk holds. -/
def Chunk.transfers (k : Chunk) (q : Nat) : Nat :=
  k.held.foldl (fun n i => match i with | .stream r els => if r = q then n + transferCount els else n | _ => n) 0

/-- A store form holds its elements until the commit. It stalls until the port has space for its transfers, of which it keeps 16 with
the held ones (R342); where its own chunk holds some, that chunk ends before it (log 88). -/
def State.putEls (s : State) (q : Nat) (p : Port) (vs : List Nat) : Except Stop State :=
  let c := s.hart
  let els := (List.range vs.length).filterMap (fun i => (p.at i).map (fun k =>
    StreamEl.mk p.bind (p.addr k) p.size (convert (mfTy3 p.mfmt) p.pty p.mode p.satf (vs.getD i 0))))
  let mine := c.young.transfers q
  let others := (match c.older with | some o => o.transfers q | none => 0) +
    (match tget? (s.aux s.cur).drain q with | some d => d.queue.length | none => 0)
  if 16 < transferCount els + mine + others then .error (if mine = 0 then .stall s else .before)
  else .ok ((s.setPort q (some (p.advance vs.length))).hold (.stream q els))

/-- QLD (R324). -/
def execQld (vd : Reg) (q : Reg3) (s : State) : Out :=
  finish s (do
    let p ← s.streamPort q false (.qld vd q)
    let w := Ty3Width p.pty
    let (vs, t) ← s.takeEls q.toNat p (2048 / w)
    .ok ((t.setV vd (packV w (fun i => vs.getD i 0))).step4))

/-- QST (R324). -/
def execQst (q : Reg3) (vb : Reg) (s : State) : Out :=
  finish s (do
    let p ← s.streamPort q true (.qst q vb)
    let t ← s.putEls q.toNat p (elems (s.v vb) (Ty3Width p.pty))
    .ok t.step4)

/-- QLDX (R324). -/
def execQldx (xd : Reg) (q : Reg3) (s : State) : Out :=
  finish s (do
    let p ← s.streamPort q false (.qldx xd q)
    let (vs, t) ← s.takeEls q.toNat p 1
    let v := vs.headD 0
    .ok ((t.setX xd (if (Ty3Fmt p.pty).isNone then sextNat (Ty3Width p.pty) v else word v)).step4))

/-- QSTX (R324). -/
def execQstx (q : Reg3) (xs : Reg) (s : State) : Out :=
  finish s (do
    let p ← s.streamPort q true (.qstx q xs)
    let t ← s.putEls q.toNat p [(s.x xs).toNat % 2 ^ Ty3Width p.pty]
    .ok t.step4)

/-- QPOS (R326). -/
def execQpos (xd : Reg) (q : Reg3) (s : State) : Out :=
  s.putX xd (match s.hart.port q.toNat with | some p => word p.pos | none => 0)

/-- QFLUSH (R326). -/
def execQflush (q : Reg3) (s : State) : Out :=
  match s.hart.port q.toNat with
  | none => .next s.step4
  | some p =>
    if p.dir then .next s.step4
    else
      let a := s.aux s.cur
      let f := a.fetchOf q.toNat p.bind
      let t := s.setAux s.cur { a with fetch := tput a.fetch q.toNat { f with els := [], stop := none, dead := false } }
      .next (t.fetchGo t.cur q.toNat).step4

end Sys2Proof.Machine
end

