-- ==== Sys2Proof/Machine/Copy.lean ====
section
/-! DEFINITION. Copies at issue, their progress word, and WAITC (R329 to R343). -/

namespace Sys2Proof.Machine

/-- What a CPY.GO holds: the snapshot of the copy CSRs and of the bank formats (R333, R178). -/
def State.newCopy (s : State) (id xd : Nat) (follow : Option Tile) : Copy :=
  let f := s.hart.firing
  { id := id, fid := s.myFid, h := s.cur, slot := s.mySlot, part := (f.map (·.part)).getD 0, csr := s.hart.shadow.cpy,
    xd := xd, promise := 0, done := 0, parked := false, fault := false, side := false, late := false, lateTrap := false,
    cancel := false, checked := false, discard := false, fmt := (s.core s.lcore).fmt, sreg := 0, dreg := 0,
    got := [], acked := [], flying := none, seq := 0, follow := follow }

/-- A copy is held; xp awaits its promise and xd its status. The status overwrites the promise where they are one register.
An issue beyond 16 outstanding copies stalls (R333). -/
def State.issueCopy (s : State) (xd xp : Reg) (follow : Option Tile) : Except Stop State :=
  if 16 ≤ s.copiesOf s.cur then .error (.stall s)
  else
    let (id, t) := s.newId
    let (pid, t) := t.newId
    let t := if xp = xd then t else t.await xp.toNat pid
    let t := t.await xd.toNat id
    .ok ((t.hold (.copy (t.newCopy id xd.toNat follow) pid (if xp = xd then 0 else xp.toNat))).note 2 xd.toNat 0 id)

/-- CPY.GO (R333). -/
def execCpyGo (xd xp : Reg) (s : State) : Out :=
  finish s (do
    let t ← s.issueCopy xd xp none
    .ok t.stepEnd)

/-- CPY.GO.M: the follow-on is checked as its product would be and counts as a tile operation (R337, R301). -/
def execCpyGoM (xd xp xr : Reg) (s : State) : Out :=
  finish s (do
    let i : Instr := .cpyGoM xd xp xr
    let (d, t) ← s.descriptor 32 4 (s.x xr)
    let form := bits (d.getD 0 0) 1 0
    require (bits (d.getD 0 0) 63 6 = 0 && form != 3) 2 i
    match pairOfNat (bits (d.getD 0 0) 5 2) with
    | none => .error (illegal 2 i)
    | some pair =>
      t.checkProduct i form pair (d.getD 1 0) (d.getD 2 0) (d.getD 3 0)
      let a := t.aux t.cur
      if 16 ≤ a.tiles.length then (if t.hart.young.tileIds.isEmpty then .error (.stall s) else .error .before)
      else if 16 ≤ t.copiesOf t.cur then .error (.stall s)
      else
        let k := t.productKind form pair (d.getD 1 0) (d.getD 2 0) (d.getD 3 0)
        let (id, t) := t.newId
        let t := t.setAux t.cur { a with tiles := a.tiles ++ [id] }
        let tile : Tile :=
          { id := id, fid := t.myFid, h := t.cur, kind := k, fmt := (t.core t.lcore).fmt, admitted := false }
        let t ← (t.note 3 0 0 id).issueCopy xd xp (some tile)
        .ok t.stepEnd)

/-- CPY.CANCEL (R338). -/
def execCpyCancel (xn : Reg) (s : State) : Out := .next (s.hold (.cancel xn.toNat)).stepSync

/-- The progress word of a copy (R336). -/
def Copy.progress (c : Copy) : Word :=
  word (c.done * 2 ^ 32 + flag c.side * 8 + flag c.parked * 4 + flag c.fault * 2 + 1)

/-- CPY.PROG (R336). Register number 0 answers 0, also while a copy whose xd is x0 is outstanding (DEDUCED, unsafe; log 111). -/
def execCpyProg (xd xn : Reg) (s : State) : Out :=
  let n := bits (s.x xn) 4 0
  let cs := s.flight.copies.filter (fun p => p.2.fid = s.myFid && p.2.xd = n && !p.2.discard)
  s.putX xd (if n = 0 then 0 else match cs.getLast? with | some p => p.2.progress | none => 0)

/-- WAITC (R343). -/
def execWaitc (nl ns nc nt : BitVec 5) (s : State) : Out :=
  finish s (do
    s.notRtc (.waitc nl ns nc nt)
    .ok (s.beginWait (.counts nl.toNat ns.toNat nc.toNat nt.toNat)))

/-- Whether the counts that a WAITC waits for are low enough (R343). -/
def State.countsOk (s : State) (h l st c t : Nat) : Bool :=
  let a := s.aux h
  a.loadsOut ≤ l && a.storesOut ≤ st && s.copiesOf h ≤ c && a.tiles.length ≤ t

end Sys2Proof.Machine
end

