-- ==== Sys2Proof/Machine/Crozier.lean ====
section
/-! DEFINITION. Crozier contributions and collections at issue (R377 to R379). -/

namespace Sys2Proof.Machine

/-- Bytes of an element of a combine (R377). -/
def crzSize (ty : Nat) : Nat := if ty = 2 then 8 else if ty = 3 then 1 else 4

/-- A descriptor's fields. -/
def crzDesc (d : List Word) : CrzDesc :=
  let w := d.getD 0 0
  { tag := bits w 63 48, ty := bits w 47 46, nel := bits w 45 32, res := bits w 18 0,
    members := (d.getD 1 0).toNat + 2 ^ 64 * (d.getD 2 0).toNat + 2 ^ 128 * bits (d.getD 3 0) 31 0 }

/-- The limits of a descriptor (R377, R378). -/
def crzLimits (d : List Word) : Bool :=
  let c := crzDesc d
  bits (d.getD 0 0) 31 19 = 0 && bits (d.getD 3 0) 63 32 = 0 && c.nel * crzSize c.ty ≤ 8192 &&
  (c.ty != 3 || (c.nel + 1) % 32 = 0)

/-- The bytes of a contribution or a result. -/
def CrzDesc.bytes (c : CrzDesc) : Nat := (c.nel + 1) * crzSize c.ty

/-- The number of a core in the masks of its column: its place and 16 times its row (R377). -/
def memberOf (L : Nat) : Nat := 16 * torusY (L / 16) + L % 16

/-- Whether the types suit an operation (R378). -/
def crzSuits (op ty : Nat) : Bool :=
  if op ≤ 2 then ty = 0 || ty = 1 else if op ≤ 5 then ty = 2 else ty = 3

/-- Whether a range of a combine keeps the bank format that B8 asks for (R377). -/
def State.crzFmt (s : State) (c : CrzDesc) (off : Nat) : Bool := c.ty != 3 || s.rangeFmt [10] off c.bytes

/-- Whether a range of a combine, scales included, lies in banks the firing may use. -/
def State.crzRange (s : State) (c : CrzDesc) (off : Nat) : Bool :=
  s.rangeOk s.cur off c.bytes && (c.ty != 3 || s.scalesOk 10 off c.bytes)

/-- The checks of a descriptor (R377, R378). -/
def State.crzCheck (s : State) (i : Instr) (d : List Word) : Except Stop Unit := do
  let c := crzDesc d
  require (crzLimits d && c.members.testBit (memberOf s.lcore) && s.crzFmt c c.res) 2 i
  require (s.crzRange c c.res) 3 i

/-- CRZSEND with an operation (R378). It goes with the format registers of its core as they stand at issue (R178). -/
def State.crzSend (s : State) (i : Instr) (op : Nat) (xa xo : Reg) : Out :=
  finish s (do
    let (d, t) ← s.descriptor 32 4 (s.x xa)
    let c := crzDesc d
    let off := (s.x xo).toNat
    require (crzSuits op c.ty) 2 i
    s.crzCheck i d
    require (s.crzFmt c off) 2 i
    require (s.crzRange c off) 3 i
    .ok ((t.hold (.crzsend op { c with fmt := (s.core s.lcore).fmt } off)).step4))

/-- CRZSEND.ADD (R378). -/
def execCrzsendAdd (xa xo : Reg) (s : State) : Out := s.crzSend (.crzsendAdd xa xo) 0 xa xo
/-- CRZSEND.MAX (R378). -/
def execCrzsendMax (xa xo : Reg) (s : State) : Out := s.crzSend (.crzsendMax xa xo) 1 xa xo
/-- CRZSEND.MIN (R378). -/
def execCrzsendMin (xa xo : Reg) (s : State) : Out := s.crzSend (.crzsendMin xa xo) 2 xa xo
/-- CRZSEND.AND (R378). -/
def execCrzsendAnd (xa xo : Reg) (s : State) : Out := s.crzSend (.crzsendAnd xa xo) 3 xa xo
/-- CRZSEND.OR (R378). -/
def execCrzsendOr (xa xo : Reg) (s : State) : Out := s.crzSend (.crzsendOr xa xo) 4 xa xo
/-- CRZSEND.XOR (R378). -/
def execCrzsendXor (xa xo : Reg) (s : State) : Out := s.crzSend (.crzsendXor xa xo) 5 xa xo
/-- CRZSEND.BADD (R378). -/
def execCrzsendBadd (xa xo : Reg) (s : State) : Out := s.crzSend (.crzsendBadd xa xo) 6 xa xo

/-- CRZRECV (R379). -/
def execCrzrecv (xd xa : Reg) (s : State) : Out :=
  finish s (do
    let (d, t) ← s.descriptor 32 4 (s.x xa)
    s.crzCheck (.crzrecv xd xa) d
    let (id, t) := t.ask xd
    .ok ((t.hold (.crzrecv id (crzDesc d))).step4))

end Sys2Proof.Machine
end

