-- ==== Sys2Proof/Machine/RemoteOps.lean ====
section
/-! DEFINITION. Traffic between cores: what a slot's tokens hold back (R404, R405), messages from their commit to the channel
(R346 to R350, R478), remote-atomic requests at their requester (R357, R361, R362, R456 to R460), fault injection (R463). -/

namespace Sys2Proof.Machine

/-! ### Requests of a slot (R404, R405) -/

/-- Times after the first copy at which retransmissions leave (R457). -/
def resendTimes : List Nat := [8000, 24000, 56000, 120000, 184000, 248000]

/-- A timer of a request by the copy of the time of the core that holds its state (R457, R471). -/
def State.reqTimer (s : State) (q : Req) (t : Nat) (e : Event) : State :=
  if s.timers.any (fun p => p.2 = e) then s else s.after (q.first + t - s.localTime q.core) e

/-- The first copy of a request leaves: its timers start (R457), and its serial's leaving is noted (R458). -/
def State.startTimers (s : State) (rid : Nat) : State :=
  match tget? s.flight.reqs rid with
  | none => s
  | some q =>
    let f := s.flight
    let old := (tget [] f.leftAt q.fid).filter (fun p => s.gtime < p.2 + 300000)
    let s := { s with flight := { f with
      reqs := tput f.reqs rid { q with first := s.localTime q.core }
      leftAt := if q.nonIdem then tput f.leftAt q.fid (old ++ [(q.serial, s.gtime)]) else f.leftAt } }
    let s := (s.after 8000 (.retransmission rid)).after 312000 (.requestLastDeadline rid)
    match s.hartOf q.fid with | some h => s.capEvent h 8 1 | none => s

/-- The request that a datagram carries has left: the timers of a remote atomic start (R457), the requests of its firing that wait behind it
may leave (R466), and the 8 µs begin after which a copy sends it again (R474). -/
def State.departed (s : State) : DgBody → State
  | .request _ rq =>
    if 2 ^ 41 ≤ rq.tag then
      match tget? s.flight.copies ((rq.tag - 2 ^ 41) / 65536) with
      | some c =>
        let c := { c with flying := c.flying.map (fun (f : Nat × Nat) => (f.1, s.gtime)) }
        { s with flight := { s.flight with copies := tput s.flight.copies c.id c } }.after 8000 (.copySectorWritten (c.h / 4))
      | none => s
    else
      let s := s.startTimers rq.tag
      match (tget? s.flight.reqs rq.tag).bind (fun q => s.flight.reqs.find? (fun p => p.2.fid = q.fid && p.2.held)) with
      | some (rid, _) => s.poke (.serialWrapRelease rid)
      | none => s
  | _ => s

/-- The links that a message of a route class takes from one sorus to another, the local link of the target last (R347, R420). -/
def State.msgRoute (s : State) (cls a b : Nat) : List (Nat × Nat) :=
  let e := tget 0 s.hub.rtcls cls
  let xw := bits e 4 3
  let yw := bits e 2 1
  (if bit e 0 then colLinks yw (torusX a) (torusY a) (torusY b) ++ rowLinks xw (torusX a) (torusY b) (torusX b)
    else rowLinks xw (torusX a) (torusY a) (torusX b) ++ colLinks yw (torusX b) (torusY a) (torusY b)) ++ [(b, 4)]

/-- A message of `n` words of a class is counted at the links of its route (R420). -/
def State.countFlits (s : State) (cls n : Nat) (ls : List (Nat × Nat)) : State :=
  let grid := ls.foldl (fun t l =>
    let k := 20 * l.1 + 4 * l.2 + cls % 4
    tput t k (tget 0 t k + Config.msgFlits n)) s.fabric.grid
  { s with fabric := { s.fabric with grid := grid } }

/-- The sorus at whose router a message enters the torus. -/
def Msg.origin (m : Msg) : Nat := if m.sender < 10240 then m.sender / 64 else m.from'

/-- The route of a message: its class is its channel (R346). -/
def State.routeOf (s : State) (m : Msg) : List (Nat × Nat) := s.msgRoute m.ch m.origin (m.core / 16)

/-- A message to another module is counted at the links to the router of its port (R24, R420). -/
def State.countOut (s : State) (a n : Nat) : DgBody → State
  | .message _ ch ws _ => s.countFlits ch ws.length ((s.msgRoute ch (a / 16) (portSorus n)).dropLast)
  | _ => s

/-- A request of a slot leaves if its tokens cover it: a datagram goes out at its port, or is dropped where it has none and then costs
nothing; a unit goes on (R401, R404, R405). -/
def State.outDo (s : State) (t c : Nat) : OutAct → Option State
  | .datagram _ m a b body =>
    match s.exitPort t m a b with
    | .error (n, why) => some ((s.dropDatagram n why s.modId).departed body)
    | .ok n => (s.pay t c).map (fun s => ((s.emitDatagram t m n body).countOut a n body).departed body)
  | .turn who m => (s.pay t c).map (fun s => (s.setSlot t { s.slot t with granted := (s.slot t).granted ++ [(who, m)] }).poke who)

/-- A request of a slot leaves, or waits behind the slot's earlier requests (R405). -/
def State.outSend (s : State) (t c : Nat) (a : OutAct) : State :=
  let q := s.trimmed t
  match if q.queue.isEmpty then (s.setSlot t q).outDo t c a else none with
  | some s => s
  | none => (s.setSlot t { q with queue := q.queue ++ [(c, a)] }).stallSlot t

/-- A request to another module is noted with its slot, to which whatever answers it is charged (R404). -/
def State.noteSent (s : State) (tag slot : Nat) : State :=
  { s with flight := { s.flight with sentFor := tput s.flight.sentFor tag slot } }

/-- A retransmission is never held; it is charged as debt where it crosses a port (R401, R404). -/
def State.sendOwed (s : State) (t m a b cost : Nat) (body : DgBody) : State :=
  match s.exitPort t m a b with
  | .error (n, why) => s.dropDatagram n why s.modId
  | .ok n => (s.owe t cost).emitDatagram t m n body

/-- Whether a datagram of a firing waits for tokens: its context stalls until it has left (R58, R405). -/
def State.sendStalls (s : State) (f : Firing) : Bool :=
  (s.slot f.slot).queue.any (fun p => match p.2 with | .datagram n _ _ _ _ => n = f.fid | .turn _ _ => false)

/-! ### Fault injection (R463) -/

/-- Whether the injection armed on a core strikes an event of a kind on a channel for a tenant. -/
def State.finjHits (s : State) (L kind ch tenant : Nat) : Bool :=
  let f := (s.core L).finj
  0 < bits f 39 32 && bits f 9 8 = kind && bits f 19 16 = ch && (bits f 63 48 = 0xFFFF || bits f 63 48 = tenant)

/-- One injection made: COUNT falls and DONE rises by 1. -/
def State.finjDone (s : State) (L : Nat) : State :=
  let k := s.core L
  let f := setBits k.finj 32 8 (bits k.finj 39 32 - 1)
  s.setCore L { k with finj := setBits f 40 8 (min 255 (bits f 47 40 + 1)) }

/-! ### Messages -/

/-- A message that the sender's partition may not deliver is discarded: one fault, one MSGDROP (R478). -/
def State.dropMessage (s : State) (f : Option Firing) (L0 L why : Nat) : State :=
  let s := match f with | some f => s.countFault f | none => s
  s.elog 10 ((f.map (·.slot)).getD 0) L0 (word L) (word why)

/-- A message enters the network (R350): it leaves once its target has room. -/
def State.postMessage (s : State) (m : Msg) : State :=
  let (id, s) := s.newId
  ({ s with flight := { s.flight with msgs := tput s.flight.msgs id m } }).poke (.messageSendRelease id)

/-- A message leaves at the commit of its chunk (R346, R348, R478): to another module as a datagram, else to the channel of a
present core of the sending partition. A reply that an injection drops is lost (R463). -/
def State.sendOut (s : State) (h : Nat) (target : Word) (ch : Nat) (ws : List Word) (srcw : Word) (rep : Bool) : State :=
  let f := (s.ctx h).firing
  let L := bits target 11 0
  let L0 := h / 4
  let inj := rep && f.any (fun f => s.finjHits L0 0 f.chan (s.tenantOf f.slot))
  if inj then s.finjDone L0
  else if bit target 47 then
    s.outSend ((f.map (·.slot)).getD 0) ((ws.length * 8 + 63) / 64)
      (.datagram ((f.map (·.fid)).getD 0) (bits target 63 48) L0 L (.message L ch ws srcw))
  else if !s.present L then s.dropMessage f L0 L 0
  else if s.partOf L != f.map (·.part) then s.dropMessage f L0 L 1
  else s.postMessage { sender := h, core := L, ch := ch, words := ws, srcw := srcw, left := false
                       key := f.bind (fun f => f.key.bind (fun k => (s.launchOf f).map (fun l => (k, l.seq)))), slot := (f.map (·.slot)).getD 0 }

/-- Whether an earlier message of the same sender to the same channel is still on its way (R349). -/
def State.msgBehind (s : State) (id : Nat) (m : Msg) (left : Bool) : Bool :=
  s.flight.msgs.any (fun p => p.1 < id && p.2.sender = m.sender && p.2.core = m.core && p.2.ch = m.ch && (!left || !p.2.left))

/-- Messages that wait for room in a channel may leave. -/
def State.pokeChannel (s : State) (L ch : Nat) : State :=
  s.flight.msgs.foldl (fun s p =>
    if p.2.core = L && p.2.ch = ch && !p.2.left then s.poke (.messageSendRelease p.1) else s) s

/-- Take a message off the network. -/
def State.dropMsg (s : State) (id : Nat) : State := { s with flight := { s.flight with msgs := tdel s.flight.msgs id } }

/-- Words of a channel that are still free for messages. -/
def Chan.free (q : Chan) : Nat := 32 - q.fifo.length - q.room

/-- Whether a message that was in the network as its class was last given a route is there still (R347). -/
def State.routeHeld (s : State) (cls : Nat) : Bool := (tget [] s.hub.rtOld cls).any (thas s.flight.msgs)

/-- A message leaves once the target's FIFO has room for all its words, after the earlier ones of its sender (R349, R350), and after those of
its class that the network has carried since before a change of its route (R347). -/
def State.releaseMsg (s : State) (id : Nat) : State :=
  match tget? s.flight.msgs id with
  | none => s
  | some m =>
    let k := s.core m.core
    let q := tget {} k.chans m.ch
    if m.left || s.msgBehind id m true || q.free < m.words.length || s.routeHeld m.ch then s
    else
      let s := s.setCore m.core { k with chans := tput k.chans m.ch { q with room := q.room + m.words.length } }
      let s := { s with flight := { s.flight with msgs := tput s.flight.msgs id { m with left := true } } }
      ((s.countFlits m.ch m.words.length (s.routeOf m)).after 3 (.messageArrival id)).pokeChannel m.core m.ch

/-- A fault counted against a launch by its key and the number of its header: not against a later one in its place (R478). -/
def State.countKey (s : State) (k : Option (Nat × Nat)) : State :=
  match k.bind (fun k => (tget? (s.part (k.1 / 64)).launches (k.1 % 64)).map (fun l => (k, l))) with
  | some (k, l) => if l.seq = k.2 then s.setLaunch k.1 { l with faults := min (2 ^ 32 - 1) (l.faults + 1) } else s
  | none => s

/-- What becomes of a message's words at its target: one that its core no longer serves is discarded (R478), an injection drops
one (R463), else they enter the FIFO together (R349). -/
def State.enterMsg (s : State) (m : Msg) : State :=
  let L := m.core
  let tenant := bits m.srcw 31 16
  if !s.present L && !(m.sender = 20480 && m.ch = 0) then
    (s.countKey m.key).elog 10 m.slot (if m.sender < 10240 then m.sender / 4 else 0xFFF) (word L) 0
  else if s.finjHits L 1 m.ch tenant then s.finjDone L
  else
    let k := s.core L
    let q := tget {} k.chans m.ch
    (s.setCore L { k with chans := tput k.chans m.ch { q with fifo := q.fifo ++ m.words.map (fun w => (w, m.srcw)) } }).poke
      (.selection L)

/-- A message arrives, after the earlier ones of its sender to the same channel, unless its target takes no traffic now (R49,
R412) or a link on its way retrains (R472). -/
def State.arriveMsg (s : State) (id : Nat) : State :=
  match tget? s.flight.msgs id with
  | none => s
  | some m =>
    let L := m.core
    if !m.left || s.msgBehind id m false || (s.sx (L / 16)).halted || s.paused (L / 16) || s.wayDown (s.routeOf m) then s
    else
      let s := s.dropMsg id
      let s := if (tget [] s.hub.rtOld m.ch).contains id then
          s.flight.msgs.foldl (fun s p => if !p.2.left && p.2.ch = m.ch then s.poke (.messageSendRelease p.1) else s) s
        else s
      let k := s.core L
      let q := tget {} k.chans m.ch
      let s := s.setCore L { k with chans := tput k.chans m.ch { q with room := q.room - m.words.length } }
      let s := s.enterMsg m
      let s := if 10240 ≤ m.sender && m.sender < 20480 then
          s.setCore L { s.core L with post := { (s.core L).post with go := false } } else s
      let s := s.flight.msgs.foldl (fun s p =>
        if p.2.left && p.2.sender = m.sender && p.2.core = L && p.2.ch = m.ch then s.poke (.messageArrival p.1) else s) s
      s.pokeChannel L m.ch

/-! ### Remote atomics at the requester -/

/-- The owner core of a datum by its key (R357): the first present core from the place and sorus that its address names. -/
def State.ownerIn (s : State) (n c : Nat) : Option Nat :=
  ((List.range 16).map (fun i => 16 * n + (c + i) % 16)).find? (fun L => s.present L)

/-- The owner of a datum of device memory: the search passes on from a sorus with no present core. -/
def State.ownerFrom (s : State) (n c : Nat) : Nat → Option Nat
  | 0 => none
  | k + 1 => match s.ownerIn n c with | some L => some L | none => s.ownerFrom ((n + 1) % 160) c k

/-- The owner core of a datum (R357). -/
def State.ownerOf (s : State) (key : Nat) : Option Nat :=
  if isSpad key then some ((key - 2 ^ 61) / 2 ^ 20)
  else if isSorus key then
    let o := key - 2 ^ 60
    s.ownerIn (o / 2 ^ 21) (o % 2 ^ 21 / 64 % 16)
  else
    let A := key / 64
    s.ownerFrom (A % 160) (A / 160 % 16) 160

/-- The oldest serial of a request's firing that still awaits an answer, by its age before the next one; the next serial where none
awaits (R362 ACK). -/
def State.ackOf (s : State) (q : Req) : Nat :=
  let next := match s.firingOf q.fid with
    | some f => f.serial
    | none => q.next
  let ages := (s.flight.reqs.filter (fun p => p.2.fid = q.fid && p.2.nonIdem)).map (fun p => (next + 65536 - p.2.serial) % 65536)
  let age := ages.foldl (fun m d => if d < 32768 then max m d else m) 0
  (next + 65536 - age) % 65536

/-- Under which number a core keeps the epoch last learned from a request's owner (R362): its sorus, or for a datum of another module, of
which all lines of a window that lie 160 lines apart have their owners in one sorus (R357), the window and the line modulo 160 (log 95). -/
def Req.epochKey (q : Req) (sorus : Nat) : Nat :=
  match q.win with | some i => 256 + i * 160 + q.key / 64 % 160 | none => sorus

/-- A request completes and leaves its outstanding state. -/
def State.reqDone (s : State) (rid : Nat) : State :=
  { s with flight := { s.flight with reqs := tdel s.flight.reqs rid } }

/-- Outcome unknown (R460), or an abort at the owner (R452): the register receives 0 and EI is set pending. -/
def State.reqUnknown (s : State) (rid kind : Nat) : State :=
  match tget? s.flight.reqs rid with
  | none => s
  | some q =>
    let s := s.reqDone rid
    let s := if q.op.nr then s else s.answer q.fid q.id 0 0
    s.setEi q.fid kind q.va

/-- When a firing has no request outstanding its forwarding entries are free, and a save that waited for one goes on (R459). -/
def State.requestsEnd (s : State) (fid : Nat) : State :=
  if s.flight.reqs.any (fun p => p.2.fid = fid) then s
  else
    let Ls := (s.cores.filter (fun p => p.2.fwd.contains fid)).map (·.1)
    Ls.foldl (fun s L =>
      let s := s.setCore L { s.core L with fwd := (s.core L).fwd.filter (fun n => n != fid) }
      (List.range 4).foldl (fun s c => if (s.ctx (4 * L + c)).st = .saving then s.poke (.saveComplete (4 * L + c)) else s) s) s

/-- The first of a firing's requests that are held is looked at again: an earlier one that waited has left (R458, R466). -/
def State.nextHeld (s : State) (fid : Nat) : State :=
  match s.flight.reqs.find? (fun p => p.2.fid = fid && p.2.held) with
  | some (rid, _) => s.poke (.serialWrapRelease rid)
  | none => s

/-- A request ends with its outcome unknown (R460), and makes way for those behind it. -/
def State.reqLost (s : State) (rid : Nat) (q : Req) : State := ((s.reqUnknown rid 5).requestsEnd q.fid).nextHeld q.fid

/-- A copy of a request leaves (R357, R456): copy `n`, resolved afresh. A retransmission whose owner now lies in another sorus
completes with outcome unknown (R460). -/
def State.sendCopy (s : State) (rid n : Nat) : State :=
  match tget? s.flight.reqs rid with
  | none => s
  | some q =>
    match q.win with
    | some i =>
      let w0 := tget 0 s.fabric.impw0 i
      let w1 := tget 0 s.fabric.impw1 i
      if !(bit w1 63 && bits w1 51 48 = q.slot && bit w1 2 && q.key < (bits w0 15 0 + 1) * 65536) then s.reqLost rid q
      else
        let rq : WinReq := { src := s.modId, tag := rid, otag := bits (s.slot q.slot).tencfg 59 48, gen := bits w0 31 16
                             off := q.key, kind := .atomic q.op q.tenant q.vrid q.serial (s.ackOf q)
                               (tget 0 (s.core q.core).epochs (q.epochKey 0)) n 0 }
        let s := s.noteSent rid q.slot
        if n = 0 then s.outSend q.slot 1 (.datagram q.fid (bits w0 63 48) q.core 0 (.request (bits w0 41 32) rq))
        else s.sendOwed q.slot (bits w0 63 48) q.core 0 1 (.request (bits w0 41 32) rq)
    | none =>
      match s.ownerOf q.key with
      | none => s
      | some L =>
        if n != 0 && L / 16 != q.sorus then s.reqLost rid q
        else
          let s := { s with flight := { s.flight with reqs := tput s.flight.reqs rid { q with sorus := L / 16 } } }
          let c : ReqCopy := { rid := rid, copyn := n, sent := s.gtime, core := L, ack := s.ackOf q
                               epoch := tget 0 (s.core q.core).epochs (L / 16), queued := false, tenant := q.tenant
                               vrid := q.vrid, serial := q.serial, nonIdem := q.nonIdem, op := q.op, key := q.key
                               remote := none, abort := false }
          let (id, s) := s.newId
          ({ s with flight := { s.flight with rcopies := tput s.flight.rcopies id c } }).poke (.ownerRequestArrival id)

/-- A request leaves: its timers start (R457), where it goes to another module once its slot has let it out (R405). -/
def State.leaveReq (s : State) (rid : Nat) : State :=
  match tget? s.flight.reqs rid with
  | none => s
  | some q =>
    let s := { s with flight := { s.flight with reqs := tput s.flight.reqs rid { q with held := false } } }
    (if q.win.isSome then s else s.startTimers rid).sendCopy rid 0

/-- When a serial may leave again: 300 µs after the serial 32,768 before it left, if it did so lately (R458). -/
def State.wrapUntil (s : State) (q : Req) : Option Nat :=
  ((tget [] s.flight.leftAt q.fid).find? (fun p => p.1 = (q.serial + 32768) % 65536 && s.gtime < p.2 + 300000)).map (·.2 + 300000)

/-- Whether an earlier request of its firing still waits to leave: one to another module may wait for its slot's tokens, in whose queue a
later one to another module follows it (R405, R466). -/
def State.reqBehind (s : State) (rid : Nat) (q : Req) : Bool :=
  s.flight.reqs.any (fun p => p.1 < rid && p.2.fid = q.fid && (p.2.held || (q.win.isNone && p.2.win.isSome && p.2.first = 0)))

/-- A request takes its place at the commit of its chunk (R361): the next serial when it is not idempotent; it leaves at once,
unless serial wrap or an earlier request of its firing that waits holds it back (R458, R466). -/
def State.commitAtomic (s : State) (h id xd : Nat) (op : AtomicOp) (key : Nat) (win : Option Nat) (va : Word) : State :=
  match (s.ctx h).firing with
  | none => s
  | some f =>
    let non := !(op.nr && (op.op = 1 || op.op = 2 || (4 ≤ op.op && op.op ≤ 7) || op.op = 11 || op.op = 12))
    let q : Req := { fid := f.fid, core := h / 4, slot := f.slot, tenant := s.tenantOf f.slot
                     vrid := if non then f.vrid else 0, serial := if non then f.serial else 0, nonIdem := non, op := op
                     key := key, win := win, va := va, id := id, xd := xd, first := 0, sorus := 0, held := true }
    let s := if non then s.setCtx h { s.ctx h with firing := some { f with serial := (f.serial + 1) % 65536 } } else s
    let (rid, s) := s.newId
    let behind := s.reqBehind rid q
    let s := { s with flight := { s.flight with reqs := tput s.flight.reqs rid q } }
    match if non then s.wrapUntil q else none with
    | some t => { s with timers := s.timers ++ [(t, .serialWrapRelease rid)] }
    | none => if behind then s else s.leaveReq rid

/-- The number of a retransmission that leaves now: how many of its times have come (R457). -/
def copyNow (first now : Nat) : Nat := (resendTimes.filter (fun t => first + t ≤ now)).length

/-- The timer of the next retransmission of a request, of which `n` times have come. -/
def State.resendTimer (s : State) (rid : Nat) (q : Req) (n : Nat) : State :=
  match resendTimes[n]? with
  | some t => s.reqTimer q t (.retransmission rid)
  | none => s

/-- An unanswered request is sent again as a time of it comes on its core's copy of the time (R457, R471). -/
def State.resend (s : State) (rid : Nat) : State :=
  match tget? s.flight.reqs rid with
  | none => s
  | some q =>
    let n := copyNow q.first (s.localTime q.core)
    if q.held then s
    else if n ≤ q.copies then s.resendTimer rid q n
    else
      let s := match s.hartOf q.fid with | some h => s.capEvent h 9 1 | none => s
      let s := { s with flight := { s.flight with reqs := tput s.flight.reqs rid { q with copies := n } } }
      (s.resendTimer rid q n).sendCopy rid n

/-- The requests of a firing that are held, in order: each leaves, until one must itself wait (R458, R466). -/
def State.leaveHeld (s : State) : List Nat → State
  | [] => s
  | rid :: rs =>
    match tget? s.flight.reqs rid with
    | none => s.leaveHeld rs
    | some q =>
      match if q.nonIdem then s.wrapUntil q else none with
      | some t => { s with timers := s.timers ++ [(t, .serialWrapRelease rid)] }
      | none => if s.reqBehind rid q then s else (s.leaveReq rid).leaveHeld rs

/-- A request held for serial wrap leaves, and those behind it (R458). -/
def State.wrapRelease (s : State) (rid : Nat) : State :=
  match tget? s.flight.reqs rid with
  | none => s
  | some q =>
    if !q.held then s
    else s.leaveHeld ((s.flight.reqs.filter (fun p => p.2.fid = q.fid && p.2.held)).map (·.1))

end Sys2Proof.Machine
end

