-- ==== Sys2Proof/Machine/SyncOps.lean ====
section
/-! DEFINITION. Tickets (R367), barrier objects (R368 to R370), group and
launch barriers (R371, R372), arrival of a launch header (R106), the order of tasks (R114), pre-emption requests (R109). -/

namespace Sys2Proof.Machine

/-! ### Waits that end in a save block -/

/-- A saved firing's wait ends in its save block: it resumes Running. -/
def State.wakeSaved (s : State) (fid : Nat) : State :=
  match s.savedOf fid with
  | some (p, v) => (s.setSaved p { v with wait := .none }).dlReset v.firing
  | none => s

/-- An answer reaches a waiting member, where it runs or in its save block, and its wait ends. -/
def State.release (s : State) (fid id : Nat) (a : Answer) : State :=
  let s := s.answerWith fid id a 0
  match s.hartOf fid with
  | some h => s.wake h
  | none => s.wakeSaved fid

/-! ### Tickets (R367) -/

/-- A ticket is taken. -/
def State.ticketGet (s : State) (h id d : Nat) : State :=
  let n := h / 64
  let x := s.sorus n
  let t := tget {} x.tickets d
  let fid := ((s.ctx h).firing.map (·.fid)).getD 0
  let t' : Ticket := { t with next := (t.next + 1) % 2 ^ 32, takers := t.takers ++ [(t.next, fid)] }
  let s := s.setSorus n { x with tickets := tput x.tickets d t' }
  s.answerHere fid id (word t.next)

/-- Contexts that sleep on the present value of SERVING resume, and saved firings that did are Waiting no more (R367, R438). -/
def State.ticketWake (s : State) (n d : Nat) : State :=
  let v := (tget {} (s.sorus n).tickets d).serving
  let s := (s.ctxs.filter (fun p => p.1 / 64 = n && p.2.waitOk && p.2.wait = .ticket d v)).foldl (fun s p => s.wakeHere p.1) s
  s.parts.foldl (fun s p => p.2.saved.foldl (fun s q =>
    if q.core / 16 = n && q.wait = .ticket d v then s.wakeSaved q.firing.fid else s) s) s

/-- The holder of a dispenser: the firing that took the ticket now served, while it has not ended (R436). -/
def State.ticketHolder (s : State) (n d : Nat) : Option Nat :=
  let t := tget {} (s.sorus n).tickets d
  ((t.takers.find? (fun p => p.1 = t.serving)).map (·.2)).filter s.alive

/-- The waiters on a dispenser for which a saved firing counts at their priority: those on the core to which it comes back (R436). -/
def State.ticketWaiters (s : State) (n d : Nat) (v : Saved) : List (Nat × Firing) :=
  let single : Bool := hdrSize (s.hdrOf v.firing) ≤ 1
  s.ctxs.filterMap (fun q =>
    match q.2.wait, q.2.firing with
    | .ticket e _, some f =>
      if q.1 / 64 = n && e = d && q.2.st = .waiting && v.firing.prio < f.prio &&
          (if single then f.part = v.firing.part else q.1 / 4 = v.core) then some (q.1 / 4, f) else none
    | _, _ => none)

/-- A saved holder of a dispenser with a waiter of higher priority counts at that priority until its TKTADV, and a single one that
stands in the resume queue of another core moves to the waiter's (R436). -/
def State.ticketLift (s : State) (n d : Nat) : State :=
  match (s.ticketHolder n d).bind s.savedOf with
  | none => s
  | some (p, v) =>
    let ws := s.ticketWaiters n d v
    match ws.head? with
    | none => s
    | some (L, _) =>
      let move : Bool := v.placed && v.core != L && hdrSize (s.hdrOf v.firing) ≤ 1
      let top := ws.foldl (fun m w => max m w.2.prio) 0
      let s := if move then
          let s := s.setCore v.core { s.core v.core with resume := (s.core v.core).resume.filter (fun i => i != v.id) }
          s.setCore L { s.core L with resume := (s.core L).resume ++ [v.id] }
        else s
      let core := if move then L else v.core
      let s := s.setSaved p { v with core := core, firing := { v.firing with
        lift := v.firing.lift.filter (fun l => l.1 != 256 * n + d) ++ [(256 * n + d, top)] } }
      (s.poke (.selection core)).poke (.groupDispatch p)

/-- SERVING advances, and a holder that counted at a waiter's priority returns to its own; the next holder may be a saved firing for which
one waits already (R436). -/
def State.ticketAdv (s : State) (h d : Nat) : State :=
  let n := h / 64
  let x := s.sorus n
  let t := tget {} x.tickets d
  let t' : Ticket := { t with serving := (t.serving + 1) % 2 ^ 32, takers := t.takers.filter (fun p => p.1 != t.serving) }
  let s := s.setSorus n { x with tickets := tput x.tickets d t' }
  let c := s.ctx h
  let s := s.setCtx h { c with firing := c.firing.map (fun f => { f with lift := f.lift.filter (fun l => l.1 != 256 * n + d) }) }
  (s.ticketWake n d).ticketLift n d

/-- The dispensers that a firing holds as it is saved (R436). -/
def State.ticketLifts (s : State) (fid : Nat) : State :=
  s.sori.foldl (fun s x => x.2.tickets.foldl (fun s t =>
    if s.ticketHolder x.1 t.1 = some fid then s.ticketLift x.1 t.1 else s) s) s

/-! ### Barrier objects (R368 to R370) -/

/-- An update put in its place: in order of the time it left, then of the logical core (R381). -/
def insertBar (r : BarReq) : List BarReq → List BarReq
  | [] => [r]
  | q :: qs => if r.at' < q.at' || (r.at' = q.at' && r.core < q.core) then r :: q :: qs else q :: insertBar r qs

/-- A barrier update of core `L` on its way to the unit, which it reaches 3 ns later (R52; log 9). -/
def State.barSend (s : State) (L : Nat) (u : BarUpd) : State :=
  let n := sorusOfKey u.key
  let x := s.sorus n
  (s.setSorus n { x with barq := insertBar (BarReq.mk u L s.gtime) x.barq }).after 3 (.barrierUpdate n)

/-- The two words of a barrier object after an update, and whether its phase flips (R369). -/
def barApply (w0 w1 : Word) (k : BarKind) : Word × Word × Bool :=
  let w1 := if bit w1 1 then setBits (setBits w1 32 32 0) 1 1 0 else w1
  let w1 := match k with | .status b => setBits w1 32 8 (bits w1 39 32 ||| b) | _ => w1
  let flip (w : Word) : Word := setBits (setBits w 0 1 (1 - bits w 0 0)) 1 1 1
  if bits w0 63 48 = 0 then (w0, flip (setBits w1 41 1 1), true)
  else
    let pend := bits w0 31 0
    let (w0, w1) := match k with
      | .deliver b =>
        if pend < b then
          (setBits w0 0 32 0, setBits (setBits w1 40 1 1) 48 16 (min 65535 (bits w1 63 48 + (b - pend))))
        else (setBits w0 0 32 (pend - b), w1)
      | .arrive b => (setBits (setBits w0 32 16 (bits w0 47 32 + 1)) 0 32 (min (2 ^ 32 - 1) (pend + b)), w1)
      | .status _ => (setBits w0 32 16 (bits w0 47 32 + 1), w1)
    if bits w0 47 32 = bits w0 63 48 && bits w0 31 0 = 0 then (setBits w0 32 16 0, flip w1, true) else (w0, w1, false)

/-- The waiters of an object whose phase they wait to leave has passed resume with its second word (R370). -/
def State.barWake (s : State) (key : Nat) : State :=
  let w := word (s.readNat (key + 8) 8)
  s.ctxs.foldl (fun s p =>
    match p.2.wait, p.2.firing with
    | .bar k ph id, some f =>
      if k = key && p.2.waitOk && bit w 0 != ph then (s.answer f.fid id w 0).wake p.1 else s
    | _, _ => s) s

/-- Saved waiters of an object resume in their save blocks: the flip puts the word there, and a wait is looked at again when its firing has
been restored (DEDUCED, unsafe: R370 does not say which word a saved sleeper sees; log 114). -/
def State.barWakeSaved (s : State) (key : Nat) : State :=
  let w := word (s.readNat (key + 8) 8)
  s.parts.foldl (fun s p => p.2.saved.foldl (fun s v =>
    match v.wait with
    | .bar k ph id => if k = key && bit w 0 != ph then (s.answer v.firing.fid id w 0).wakeSaved v.firing.fid else s
    | _ => s) s) s

/-- The unit applies one update (R369), in a bank that it has powered up (R93). -/
def State.barUpdate (s : State) (u : BarUpd) : State :=
  let s := s.powerBanks [(u.key, 16)]
  let (a, b, f) := barApply (word (s.readNat u.key 8)) (word (s.readNat (u.key + 8) 8)) u.kind
  let s := (s.writeNat u.key 8 a.toNat).writeNat (u.key + 8) 8 b.toNat
  if f then (s.barWake u.key).barWakeSaved u.key else s

/-! ### Group and launch barriers (R371, R372) -/

/-- A group of a launch. -/
def Launch.group (l : Launch) (gid : Nat) : Option Group := l.groups.find? (fun g => g.gid.toNat = gid)
/-- Replace a group. -/
def Launch.setGroup (l : Launch) (g : Group) : Launch :=
  { l with groups := l.groups.map (fun x => if x.gid = g.gid then g else x) }

/-- A member arrives at its group barrier. A firing of no launch is a group of one. -/
def State.gbarArrive (s : State) (h id : Nat) : State :=
  match (s.ctx h).firing with
  | none => s
  | some f =>
    match f.key, (s.launchOf f).bind (fun l => (l.group f.gid.toNat).map (fun g => (l, g))) with
    | some k, some (l, g) =>
      (s.setLaunch k (l.setGroup { g with gb := g.gb ++ [(f.idx, f.fid, id)] })).poke
        (.groupBarrierComplete (k / 64) (k % 64) f.gid.toNat)
    | _, _ => s.release f.fid id (.scal 0)

/-- Whether every member that has not ended has arrived. -/
def Group.allIn (g : Group) (arrived : List Nat) : Bool :=
  (List.range g.hs.length).all (fun j => arrived.contains j || g.ended.contains j)

/-- The group barrier completes (R371). -/
def State.gbarComplete (s : State) (p slot gid : Nat) : State :=
  match tget? (s.part p).launches slot with
  | none => s
  | some l =>
    match l.group gid with
    | none => s
    | some g =>
      if g.gb.isEmpty || !g.allIn (g.gb.map (·.1)) then s
      else
        let s := s.setLaunch (64 * p + slot) (l.setGroup { g with gb := [] })
        g.gb.foldl (fun s m => s.release m.2.1 m.2.2 (.scal (word (flag l.gangLost)))) s

/-- A member arrives at a launch barrier. With COR 0 it synchronises nothing. -/
def State.lbarArrive (s : State) (h id n : Nat) : State :=
  match (s.ctx h).firing with
  | none => s
  | some f =>
    match f.key, s.launchOf f with
    | some k, some l =>
      if hdrFlag l.hdr.words 2 then
        (s.setLaunch k { l with lb := tput l.lb n (tget [] l.lb n ++ [(f.fid, id)]) }).poke
          (.launchBarrierComplete (k / 64) (k % 64) n)
      else s.release f.fid id (.scal (word (2 + flag l.gangLost)))
    | _, _ => s.release f.fid id (.scal 2)

/-- The sorus of a firing, where it runs or where it was saved. -/
def State.sorusOf (s : State) (fid : Nat) : Nat :=
  match s.hartOf fid with
  | some h => h / 64
  | none => match s.savedOf fid with | some (_, v) => v.core / 16 | none => 0

/-- The exit group of each of some sori (R75): rank among them by number, divided by GRPSZ; one group when STAGGER is 0. -/
def State.exitGroup (s : State) (all : List Nat) (n : Nat) : Nat :=
  if bits s.hub.mpwrcfg 41 32 = 0 then 0
  else ((all.foldl insertNew []).filter (fun m => m < n)).length / max 1 (bits s.hub.mpwrcfg 31 24)

/-- One exit group of a launch barrier resumes. -/
def State.lbarRelease (s : State) (p slot grp : Nat) : State :=
  match tget? (s.part p).launches slot with
  | none => s
  | some l =>
    let s := s.setLaunch (64 * p + slot) { l with lbOut := l.lbOut.filter (fun m => m.1 != grp) }
    (l.lbOut.filter (fun m => m.1 = grp)).foldl (fun s m => s.release m.2.1 m.2.2.1 (.scal (word m.2.2.2))) s

/-- The launch barrier `n` completes when every firing that has not ended has arrived; the release follows the exit stagger. -/
def State.lbarComplete (s : State) (p slot n : Nat) : State :=
  match tget? (s.part p).launches slot with
  | none => s
  | some l =>
    let ms := (tget [] l.lb n).filter (fun m => s.alive m.1)
    if ms.isEmpty || ms.length + l.ended < hdrAll l.hdr.words then s
    else
      let sori := ms.map (fun m => s.sorusOf m.1)
      let out := ms.map (fun m => (s.exitGroup sori (s.sorusOf m.1), m.1, m.2, flag l.gangLost))
      let s := s.setLaunch (64 * p + slot) { l with lb := tdel l.lb n, lbOut := l.lbOut ++ out }
      let grps := (out.map (·.1)).foldl insertNew []
      let s := (grps.filter (fun g => g != 0)).foldl (fun s g =>
        s.after (g * bits s.hub.mpwrcfg 41 32) (.exitGroupRelease p slot g false)) s
      s.lbarRelease p slot 0

/-! ### Launch headers (R95, R106) -/

/-- The place of a virtual address in a partition, as the dispatcher and the hub reach it (R488). -/
def State.partPlace (s : State) (p : Nat) (store : Bool) (va : Word) : Option Place :=
  if bits va 63 48 != 0 || 0xFE ≤ bits va 47 40 then none
  else match s.walk (s.slotOf p) va.toNat walkLevels (bits (s.part p).ptroot 51 12 * 4096) with
    | none => none
    | some l => if pteWindow l.pte || !(if store then bit l.pte 4 else bit l.pte 3) then none else some (leafPlace l va)

/-- Write doublewords through a partition's translation, or none where any of them faults. -/
def State.partWrite (s : State) (p : Nat) (va : Word) (ws : List Word) : Option State :=
  let ps := (List.range ws.length).map (fun i => s.partPlace p true (va + word (8 * i)))
  if ps.any Option.isNone then none
  else some ((ps.zip ws).foldl (fun s q => match q.1 with | some pl => s.writeNat pl.key 8 q.2.toNat | none => s) s)

/-- The launch area's address (R105). -/
def Part.area (q : Part) : Word := word (bits q.lqcfg 63 16 * 65536)

/-- A request of the host to function `fn` is refused (R393): the log records the function and the offset, a non-posted request
receives Completer Abort, a posted one is discarded and its function signals a non-fatal error. -/
def State.hostRefuse (s : State) (fn off : Nat) (posted : Bool) : State :=
  (s.elog 8 fn 0xFFF (word off) (word fn)).emit (if posted then .nonFatal fn else .completerAbort)

/-- How a refused header is answered (R106, R375, R393). -/
def State.hdrAnswer (s : State) (src : HdrSrc) (code : Nat) : State :=
  match src with
  | .launch _ fid id => s.answer fid id (word code) 0
  | .window t off posted => if code != 2 then s else s.hostRefuse t off posted

/-- A header arrives at a partition (R106): into the hub queue, to the tail of the overflow ring, or refused. -/
def State.headerArrive (s : State) (p : Nat) (ws : List Word) (src : HdrSrc) : State :=
  let q := s.part p
  let (seq, s) := s.newId
  let hd : Hdr := { words := ws, slot := s.slotOf p, seq := seq
                    core := match src with | .launch h _ _ => some (h / 4) | .window _ _ _ => none }
  let s' (s : State) : State := (s.poke (.residentSlotCopy p)).poke (.hubQueueRefill p)
  let shut : Bool := match src with | .window t _ _ => (s.slot t).flr | .launch _ _ _ => false
  if s.hub.stopped || shut then s.hdrAnswer src 2
  else if q.hubq.length < 64 && q.ov.isEmpty then
    (s' (s.setPart p { q with hubq := q.hubq ++ [hd] })).hdrAnswer src 0
  else
    let n := bits q.lqcfg 15 0
    if q.ov.length < n then
      let va := q.area + 0x1000 + word (64 * ((q.ovHead + q.ov.length) % n))
      match s.partWrite p va ws with
      | some t => (s' (t.setPart p { t.part p with ov := q.ov ++ [hd] })).hdrAnswer src 1
      | none => (s.elog 21 (s.slotOf p) 0xFFF va 0).hdrAnswer src 2
    else s.hdrAnswer src 2

/-! ### Malformed headers (R95) -/

/-- Whether the fields of a header are well formed. -/
def fieldsOk (ws : List Word) : Bool :=
  let nf := hdrNF ws
  1 ≤ nf && nf ≤ 6 && hdrLevel ws ≤ nf &&
  (List.range 6).all (fun i =>
    if i < nf then 0 < hdrW ws i && hdrExt ws i + 1 ≤ 2 ^ hdrW ws i else hdrW ws i = 0 && hdrExt ws i = 0) &&
  hdrOff ws 6 ≤ 64

/-- Whether the reserved fields of a header are zero. -/
def hdrReservedOk (ws : List Word) : Bool :=
  let z (i m : Nat) : Bool := keepBits (hdrWord ws i) m = 0
  z 0 (ones 63 48 + 3) && z 2 (ones 63 48 + 15) && z 3 (ones 63 48 + 63) && z 6 (ones 63 42) &&
  z 7 (ones 63 56 + ones 39 34 + ones 31 8) && hdrSigkind ws != 3

/-- Whether a header is malformed; `host` says that the host wrote it. -/
def malformed (ws : List Word) (host : Bool) : Bool :=
  !hdrReservedOk ws || bits (hdrWord ws 0) 47 2 = 0 || !fieldsOk ws || 48 < hdrSize ws ||
  (hdrFlag ws 4 && 1 < hdrSize ws) || (hdrFlag ws 1 && !hdrFlag ws 2) ||
  (hdrSigkind ws = 2 && (host || hdrSigvec ws % 16 < 2)) || (hdrBanks ws != 0 && 16 < hdrSize ws)

/-! ### Ordered tasks (R114) -/

/-- Whether a task (timestamp, core) precedes another: by timestamp, ties by core number. -/
def taskBefore (a b : Nat × Nat) : Bool := a.1 < b.1 || (a.1 = b.1 && a.2 < b.2)

/-- Whether a live task of the domain precedes one. -/
def State.livePrecedes (s : State) (p d fid : Nat) (me : Nat × Nat) : Bool :=
  s.ctxs.any (fun q => q.2.firing.any (fun f => f.fid != fid && f.part = p &&
    f.order.any (fun o => o.2 = d && taskBefore (o.1, q.1 / 4) me)))

/-- Whether a reserved or undispatched task of an ordered launch of the domain precedes one: of a resident launch, or of one that waits
in the hub queue or the overflow ring, whose first task has its lowest timestamp. -/
def State.duePrecedes (s : State) (p d : Nat) (me : Nat × Nat) : Bool :=
  let q := s.part p
  q.launches.any (fun l =>
    let ws := l.2.hdr.words
    hdrFlag ws 4 && hdrOdom ws = d &&
    ((l.2.force.isNone && l.2.next < hdrGroups ws && (hdrGid ws l.2.next).toNat < me.1) ||
     s.ctxs.any (fun q => q.2.resv.any (fun r => r.part = p && r.slot = l.1 && taskBefore (r.wid.toNat, q.1 / 4) me)))) ||
  (q.hubq ++ q.ov).any (fun h => hdrFlag h.words 4 && hdrOdom h.words = d && !malformed h.words h.core.isNone &&
    (hdrGid h.words 0).toNat < me.1)

/-- The timestamp and domain under which the chunk of a context that awaits its commit commits (R114): none where it stands before the
task's declaration (R374). -/
def Ctx.taskBody (c : Ctx) : Option (Nat × Nat) := if c.young.declares then none else c.firing.bind (·.order)

/-- Whether the chunk of context `h` may commit as far as the order of its domain goes (R114). -/
def State.orderReady (s : State) (h : Nat) : Bool :=
  match (s.ctx h).firing, (s.ctx h).taskBody with
  | some f, some (ts, d) => !s.livePrecedes f.part d f.fid (ts, h / 4) && !s.duePrecedes f.part d (ts, h / 4)
  | _, _ => true

/-! ### Pre-emption requests (R109) -/

/-- A free save block of a partition (R110). -/
def State.poolFree (s : State) (p : Nat) : Option Nat :=
  (List.range (bits (s.part p).svcfg 11 0)).find? (fun b => !(s.part p).blocks.contains b)

/-- Whether a save block is free for one more request: those under way in the partition each take one. -/
def State.poolRoom (s : State) (p : Nat) : Bool :=
  let due := (s.ctxs.filter (fun q => q.2.firing.any (fun f => f.part = p) && !(s.aux q.1).preqs.isEmpty)).length
  (s.part p).blocks.length + due < bits (s.part p).svcfg 11 0

/-- The outcome of a request that comes to nothing. -/
def State.preemptCode (s : State) (who : PreqBy) (f : Firing) (code : Nat) : State :=
  match who with
  | .preq id => s.preqOutcome id f.idx code
  | _ => s

/-- Whether a request of a PREQ comes for another firing: the one it named has its outcome already. -/
def State.preqStale (s : State) (who : PreqBy) (f : Firing) : Bool :=
  match who with
  | .preq id => !(tget? s.flight.preqs id).any (fun r => r.todo.any (fun t => t.1 = f.fid))
  | _ => false

/-- A pre-emption request reaches the firing of a context (R109): refused, or it drains, or it already stands at its safe
point. That of a halted sorus is held until the sorus resumes (R422), that of a firing that is Starting or Restoring until it runs, and
that of one that FENCE.X stalls until the stall ends (R376). -/
def State.preempt (s : State) (h : Nat) (who : PreqBy) : State :=
  let c := s.ctx h
  match c.firing with
  | none => s
  | some f =>
    if s.preqStale who f then s
    else if s.unpreemptible f then s.preemptCode who f 2
    else if (s.aux h).preqs.isEmpty && !s.poolRoom f.part then s.preemptCode who f 3
    else
      let a := s.aux h
      let s := s.setAux h { a with preqs := a.preqs ++ [who], drainFrom := if a.preqs.isEmpty then 0 else a.drainFrom }
      if (s.sx (h / 64)).halted then s
      else match c.st with
      | .running => if a.fence.isSome then s else s.setCtx h { c with st := .draining }
      | .waiting => s.poke (.safePoint h)
      | _ => s

end Sys2Proof.Machine
end

