-- ==== Sys2Proof/Machine/Engine.lean ====
section
/-! DEFINITION. What the matrix engine and the stream units do behind the program (R301 to R320, R326, R327, R445, R446). -/

namespace Sys2Proof.Machine

/-! ### What an engine's progress lets go on -/

/-- A context in WAITC whose counts are low enough leaves it (R343). -/
def State.countsWake (s : State) (h : Nat) : State :=
  let c := s.ctx h
  match c.wait with
  | .counts l st n t => if c.st = .waiting && c.waitOk && s.countsOk h l st n t then s.wakeHere h else s
  | _ => s

/-- The context of a firing looks at its WAITC. -/
def State.countsWakeOf (s : State) (fid : Nat) : State :=
  match s.hartOf fid with
  | some h => if (s.aux h).preqs.isEmpty then s.countsWake h else (s.countsWake h).poke (.safePoint h)
  | none => s

/-- Whether what an engine of a sorus has under way stands still: a halt lets it complete (R412). -/
def State.stuck (s : State) (n : Nat) : Bool := s.paused n || s.hub.stopped

/-- The ranges of a core's scratchpad that a tile operation accesses, as offsets. -/
def TileKind.ranges : TileKind → List (Nat × Nat)
  | .product form pair cmd a b u => rangesA form pair cmd a u ++ rangesB form pair cmd b
  | .anarrow ty _ _ d r => rowRanges d (r.nr + 1) ((r.nc + 1) * (Ty3Width ty / 8))
  | .ald r d => rowRanges d (r.nr + 1) ((r.nc + 1) * 4)
  | .ast r d => rowRanges d (r.nr + 1) ((r.nc + 1) * 4)
  | _ => []

/-! ### Tile operations -/

/-- The byte at an offset of a core's scratchpad. -/
def State.spad (s : State) (L o : Nat) : Nat := (s.byte (spadKey L o)).toNat
/-- A lane of a core's accumulator store (R303). -/
def State.lane (s : State) (L r c : Nat) : Nat := s.readNat (accKey L (512 * r + 4 * c)) 4
/-- Write a lane. -/
def State.putLane (s : State) (L r c v : Nat) : State := s.writeNat (accKey L (512 * r + 4 * c)) 4 v

/-- The value of an operand element at a scratchpad offset; `nib` is its place in a byte of 4-bit codes (R311). -/
def opVal (rd : Nat → Nat) (fmt : Tab Word) (mf off nib : Nat) : Val :=
  if mf = 10 || mf = 11 then
    let b := off / 0x8000
    bankVal (fun o => rd (b * 0x8000 + o)) mf (fmtSbase (tget 0 fmt b)) (off % 0x8000 * 8 / mfBits mf + nib)
  else mfVal mf (bytesNat rd off (mfBits mf / 8))

/-- Element `j` of the row at an offset. -/
def rowVal (rd : Nat → Nat) (fmt : Tab Word) (mf off j : Nat) : Val :=
  if mf = 11 then opVal rd fmt mf (off + j / 2) (j % 2) else opVal rd fmt mf (off + j * (mfBits mf / 8)) 0

/-- a(m, k) (R311, R315). -/
def elemA (rd : Nat → Nat) (fmt : Tab Word) (form : Nat) (pair : Pair) (a : Word) (u : Unf) (m k : Nat) : Val :=
  let mf := pairA pair
  if form = 1 then
    match u.place (mfBits mf / 8) a.toNat m k with
    | some o => opVal rd fmt mf o 0
    | none => .fin false 0 0
  else rowVal rd fmt mf (descOff a + m * descLd a) k

/-- b(k, n) (R311). -/
def elemB (rd : Nat → Nat) (fmt : Tab Word) (form : Nat) (pair : Pair) (b : Word) (k n : Nat) : Val :=
  let mf := pairB pair
  if form = 2 then rowVal rd fmt mf (descOff b + k * descLd b) n else rowVal rd fmt mf (descOff b + n * descLd b) k

/-- One slab added to a lane (R181). -/
def slabStep (int : Bool) (c : Nat) (ps : List Val) : Nat :=
  let t := sumVals ps
  if int then fromInt 32 (toSigned 32 c + t.units 0)
  else
    let r := Fmt.canonical .f32 t
    Fmt.canonical .f32 (sumVals [Fmt.decode .f32 c, Fmt.decode .f32 r])

/-- A lane of a product over its slabs (R181, R311). -/
def productLane (int : Bool) (slabs : Nat) (a b : Nat → Val) (c : Nat) : Nat :=
  (List.range slabs).foldl (fun c j => slabStep int c ((List.range 64).map (fun i => (a (64 * j + i)).mul (b (64 * j + i))))) c

/-- A matrix product runs (R311). -/
def State.runProduct (s : State) (L : Nat) (fmt : Tab Word) (form : Nat) (pair : Pair) (cmd a b : Word) (u : Unf) : State :=
  let rd := s.spad L
  (List.range (cmdM cmd)).foldl (fun t m => (List.range (cmdN cmd)).foldl (fun t n =>
    let r := cmdRow cmd + m
    let c := cmdCol cmd + n
    t.putLane L r c (productLane (pair = .i8i8) (cmdSlabs cmd) (elemA rd fmt form pair a u m)
      (fun k => elemB rd fmt form pair b k n) (if bit cmd 23 then 0 else s.lane L r c))) t) s

/-- An operation on every lane of a region: its row and column in the region, and the lane's value. Where LD makes the rows of a
destination overlap, what the later row and column write stands (DESIGN CHOICE, unsafe: R316 names no order of the lanes; log 101). -/
def State.overRegion (s : State) (r : Region) (f : State → Nat → Nat → State) : State :=
  (List.range (r.nr + 1)).foldl (fun t j => (List.range (r.nc + 1)).foldl (fun t i => f t j i) t) s

/-- Whether a firing has claimed a row group again in an operation that has yet to run: a release that runs only then does not take the
later claim (DESIGN CHOICE, unsafe: R305 does not say; log 103). -/
def State.reclaims (s : State) (L fid g : Nat) : Bool :=
  let hit (t : Tile) : Bool := t.fid = fid && (match t.kind with | .aclr g0 ng rel _ => !rel && g0 ≤ g && g ≤ g0 + ng | _ => false)
  let held (k : Chunk) : Bool := k.held.any (fun i => match i with | .tile t => hit t | _ => false)
  (s.core L).matq.any hit ||
  (match s.hartOf fid with
    | some h => held (s.ctx h).young || (match (s.ctx h).older with | some o => held o | none => false)
    | none => false)

/-- The first claim of a group that a firing holds in a chunk is a new one: its squash withdraws it (R305). -/
def claimAnew (fid g : Nat) : List Held → List Held
  | [] => []
  | .tile t :: is =>
    (match t.kind with
      | .aclr g0 ng false fresh =>
        if t.fid = fid && g0 ≤ g && g ≤ g0 + ng then .tile { t with kind := .aclr g0 ng false (insertNew fresh g) } :: is
        else .tile t :: claimAnew fid g is
      | _ => .tile t :: claimAnew fid g is)
  | i :: is => i :: claimAnew fid g is

/-- A group that a firing has claimed again in a chunk that is not committed has been released meanwhile: the claim stands by itself, and
a squash of its chunk withdraws it (R305). -/
def State.claimStands (s : State) (L fid g : Nat) : State :=
  if (s.core L).matq.any (fun t => t.fid = fid && (match t.kind with | .aclr g0 ng false _ => g0 ≤ g && g ≤ g0 + ng | _ => false)) then s
  else match s.hartOf fid with
    | none => s
    | some h =>
      let c := s.ctx h
      match c.older with
      | some o =>
        let is := claimAnew fid g o.held
        if is != o.held then s.setCtx h { c with older := some { o with held := is } }
        else s.setCtx h { c with young := { c.young with held := claimAnew fid g c.young.held } }
      | none => s.setCtx h { c with young := { c.young with held := claimAnew fid g c.young.held } }

/-- What a tile operation writes (R305, R311, R316 to R319). Row groups that it releases may let a saved firing come back (R118, R304). -/
def State.runTile (s : State) (L : Nat) (t : Tile) : State :=
  let s := s.powerBanks (t.kind.ranges.map (fun r => (spadKey L r.1, r.2)))
  match t.kind with
  | .product form pair cmd a b u => s.runProduct L t.fmt form pair cmd a b u
  | .aclr g0 ng rel _ =>
    let gs := (List.range (ng + 1)).map (fun j => g0 + j)
    if rel then
      let k := s.core L
      let s := (gs.filter (fun g => tget? k.rowOwn g = some t.fid && s.reclaims L t.fid g)).foldl (fun s g => s.claimStands L t.fid g) s
      (s.setCore L { k with
        rowOwn := k.rowOwn.filter (fun p => !(gs.contains p.1 && p.2 = t.fid && !s.reclaims L t.fid p.1)) }).pokeRoom L
    else s.clearRange (accKey L (g0 * 4096)) ((ng + 1) * 4096)
  | .anarrow ty mode sat d r =>
    s.overRegion r (fun u j i =>
      let w := Ty3Width ty / 8
      u.writeNat (spadKey L (descOff d + j * descLd d + i * w)) w (narrowLane ty mode sat (s.lane L (r.row + j) (r.col + i))))
  | .ald r d => s.overRegion r (fun u j i =>
      u.putLane L (r.row + j) (r.col + i) (s.readNat (spadKey L (descOff d + j * descLd d + 4 * i)) 4))
  | .ast r d => s.overRegion r (fun u j i =>
      u.writeNat (spadKey L (descOff d + j * descLd d + 4 * i)) 4 (s.lane L (r.row + j) (r.col + i)))
  | .amova r v => (List.range 64).foldl (fun u i => u.putLane L r.row (r.col + i) (elem v 32 i)) s
  | .ascale r k => s.overRegion r (fun u j i =>
      u.putLane L (r.row + j) (r.col + i)
        (Fmt.canonical .f32 ((Fmt.decode .f32 (s.lane L (r.row + j) (r.col + i))).mul (Fmt.decode .f32 k.toNat))))
  | .unfcfg u =>
    match s.hartOf t.fid with
    | some h => s.setAux h { s.aux h with unf := some u }
    | none => s

/-- A tile operation is no longer outstanding (R301), and the rows of a firing that has ended are released with its last one
(R304). -/
def State.dropTile (s : State) (L fid id : Nat) : State :=
  let rm (a : CtxAux) : CtxAux := { a with tiles := a.tiles.filter (fun i => i != id) }
  let s := match s.hartOf fid with
    | some h => s.setAux h (rm (s.aux h))
    | none => match s.savedOf fid with
      | some (p, v) => s.setSaved p { v with aux := rm v.aux }
      | none => s
  let s := if !s.alive fid && !s.tilesLeft L fid then
      (s.releaseRows L fid).pokeRoom L else s
  s.countsWakeOf fid

/-- The barrier arrival of a matrix operation with BARV 1 (R313). -/
def State.tileBarrier (s : State) (L : Nat) (t : Tile) (status : Nat) : State :=
  match t.kind with
  | .product _ _ cmd _ _ _ => if cmdBarv cmd then s.barSend L { key := spadKey L (cmdBar cmd), kind := .status status } else s
  | _ => s

/-- The head of the matrix queue leaves it with a status; `run` says whether it writes. -/
def State.tileDone (s : State) (L : Nat) (t : Tile) (run : Bool) (status : Nat) : State :=
  let k := s.core L
  let s := s.setCore L { k with matq := k.matq.filter (fun u => u.id != t.id) }
  let s := if run then s.runTile L t else s
  let s := match s.hartOf t.fid with | some h => s.capEvent h 6 1 | none => s
  let s := if t.kind.heavy then
      let x := s.sorus (L / 16)
      s.setSorus (L / 16) { x with admitted := x.admitted - 1 } else s
  let s := (s.tileBarrier L t status).dropTile L t.fid t.id
  if (s.core L).matq.isEmpty then s else s.poke (.tileOperationComplete L)

/-- A tile operation joins its core's matrix queue (R301). -/
def State.joinMatq (s : State) (t : Tile) : State :=
  let L := t.h / 4
  let k := s.core L
  (s.setCore L { k with matq := k.matq ++ [t] }).poke (.tileOperationComplete L)

/-! ### Streams (R326, R327, R445) -/

/-- Whether a fault on an engine path ends the transfer instead of being delivered (R446). -/
def State.endsInstead (s : State) (h : Nat) (store : Bool) : Bool :=
  match (s.ctx h).firing with
  | none => true
  | some f =>
    let c := if store then 15 else 13
    let toM := !(f.level != .m && bit (s.core (h / 4)).medeleg c)
    f.rtc || f.order.isSome || bits (if toM then (s.core (h / 4)).mtvec else (s.core (h / 4)).stvec) 1 0 = 0

/-- An engine page fault that is ended rather than delivered counts one fault too (R446, R423). -/
def State.faultInstead (s : State) (h : Nat) : State :=
  match (s.ctx h).firing with
  | some f => s.countFault f
  | none => s

/-- A parked transfer raises its fault on the context that issued it (R446). -/
def State.engFault (s : State) (h : Nat) (e : EngFault) : State :=
  let a := s.aux h
  (s.setAux h { a with faults := a.faults ++ [e] }).leaveWaitc h

/-- The place of an element of a stream of firing `fid` in partition `p`: a context's own windows as for its loads and stores, once the
firing has ended without the check of rights (R321, R339). -/
def State.streamPlace (s : State) (h p fid : Nat) (acc : Acc) (va : Word) : Except Nat Place :=
  if bits va 63 48 = 0 && bits va 47 40 ≤ 0xFD then s.resolvePage (h / 64) p acc va
  else if (s.ctx h).firing.any (fun f => f.fid = fid) then s.resolve h acc va
  else if bits va 63 32 = 0xFF00 then .ok { key := spadKey (h / 4) (bits va 31 0), shared := true }
  else if bits va 63 32 = 0xFF01 then .ok { key := sorusKey (h / 64) (bits va 31 0), shared := true }
  else .ok { key := spadKey (bits va 39 20) (bits va 19 0), shared := true }

/-- The elements of one fetch of at most 64 bytes. -/
def Port.request (p : Port) (f : Fetch) : List Nat := (p.wanted f).take (64 / p.size)

/-- The fetched elements up to the first whose address faults, with that one, and the host elements among them. -/
def State.fetchEls (s : State) (h : Nat) (fr : Firing) (p : Port) : List Nat → Fetch → Fetch × Option (Nat × Word) × List Nat
  | [], f => (f, none, [])
  | k :: ks, f =>
    match s.streamPlace h fr.part fr.fid .load (p.addr k) with
    | .ok pl =>
      let (f, w, hs) := s.fetchEls h fr p ks { f with els := tput f.els k (s.readNat pl.key p.size) }
      (f, w, if isHost pl.key then k :: hs else hs)
    | .error _ => (f, some (k, p.addr k), [])

/-- A fetch returns for a binding that its port no longer has: nothing takes it, and it is no longer in flight (R342). -/
def State.fetchLost (s : State) (h q : Nat) : State :=
  let a := s.aux h
  match tget? a.fetch q with
  | some f => s.setAux h { a with fetch := tput a.fetch q { f with flying := 0 } }
  | none => s

/-- The ranges of memory behind some elements of a port. -/
def State.portRanges (s : State) (h : Nat) (fr : Firing) (p : Port) (ks : List Nat) : List (Nat × Nat) :=
  ks.filterMap (fun k => match s.streamPlace h fr.part fr.fid .load (p.addr k) with
    | .ok pl => some (pl.key, p.size)
    | .error _ => none)

/-- A fetch of a read port returns (R326): its elements, or the fault at which the port stops. It waits for what lies in another sorus that
takes no traffic now (R412, R49). -/
def State.fetchReturn (s : State) (h q : Nat) : State :=
  if s.stuck (h / 64) then s
  else match ((s.ctx h).port q).filter (fun p => !p.dir && (tget? (s.aux h).fetch q).all (fun f => f.bind = p.bind)), (s.ctx h).firing with
    | some p, some fr =>
      let a := s.aux h
      let f := a.fetchOf q p.bind
      if f.flying = 0 then s.fetchGo h q
      else if (p.request f).isEmpty then (s.setAux h { a with fetch := tput a.fetch q { f with flying := 0 } }).countsWake h
      else if (s.portRanges h fr p (p.request f)).any (fun r => s.keyStill (h / 64) r.1) then s.again (.streamFetchReturn h q)
      else
          let s := s.powerBanks (s.portRanges h fr p (p.request f))
          let (g, stop, hs) := s.fetchEls h fr p (p.request f) f
          match if hs.isEmpty then some s else s.charge fr.slot ((hs.length * p.size + 63) / 64) (.streamFetchReturn h q) with
          | none => s.waitTurn fr.slot ((hs.length * p.size + 63) / 64) (.streamFetchReturn h q)
          | some s =>
            let g := { g with flying := 0 }
            match stop with
            | none => ((s.setAux h { a with fetch := tput a.fetch q g }).fetchGo h q).countsWake h
            | some st =>
              if s.endsInstead h false then
                ((s.setAux h { a with fetch := tput a.fetch q { g with dead := true, stop := some st } }).faultInstead h).countsWake h
              else
                ((s.setAux h { a with fetch := tput a.fetch q { g with stop := some st } }).engFault h
                  { va := st.2, store := false, port := true, who := q }).countsWake h
    | _, _ => ((s.fetchLost h q).fetchGo h q).countsWake h

/-- Transfers of at most 64 bytes of elements in order (R327). -/
def transfers (n : Nat) : Nat → List StreamEl → List (List StreamEl)
  | 0, _ => []
  | k + 1, els => if els.isEmpty then [] else els.take n :: transfers n k (els.drop n)

/-- A port that is ended drops its parked transfer and the later ones of its binding, the ones to come included (R446). -/
def Drain.cut (d : Drain) : Drain :=
  let b := d.queue.head?.bind (fun t => t.head?.map (·.bind))
  { d with queue := d.queue.filter (fun t => t.head?.map (·.bind) != b), stop := none, dead := b }

/-- The elements of a committed store form join the transfers of their port, unless it has been ended. -/
def State.streamCommit (s : State) (h q : Nat) (els : List StreamEl) : State :=
  match els.head?, (s.ctx h).firing with
  | some e, some f =>
    let a := s.aux h
    let ts := transfers (64 / e.size) els.length els
    match tget? a.drain q with
    | some d =>
      if d.dead = some e.bind then s
      else
      let s := s.setAux h { a with drain := tput a.drain q { d with queue := d.queue ++ ts } }
      if d.queue.isEmpty then s.poke (.streamWriteTransferDone h q) else s
    | none =>
      (s.setAux h { a with drain := tput a.drain q { part := f.part, fid := f.fid, queue := ts, stop := none } }).poke
        (.streamWriteTransferDone h q)
  | _, _ => s

/-- The first transfer of a write port becomes visible, or parks where it faults (R327, R445). -/
def State.transferDone (s : State) (h q : Nat) : State :=
  let a := s.aux h
  match tget? a.drain q with
  | none => s
  | some d =>
    match d.queue with
    | [] => s.countsWake h
    | t :: ts =>
      if s.still (h / 64) || d.stop.isSome then s
      else
        let ps := t.map (fun e => (e, s.streamPlace h d.part d.fid .store e.va))
        if ps.any (fun p => match p.2 with | .ok pl => s.keyStill (h / 64) pl.key | .error _ => false) then s.again (.streamWriteTransferDone h q)
        else match ps.find? (fun p => match p.2 with | .error _ => true | .ok _ => false) with
        | some (e, _) =>
          let live := (s.ctx h).firing.any (fun f => f.fid = d.fid)
          let saving (s : State) : State := if (s.aux h).preqs.isEmpty then s else s.poke (.safePoint h)
          if !live then s.setAux h { a with drain := tdel a.drain q }
          else if s.endsInstead h true then
            let s := saving (((s.setAux h { a with drain := tput a.drain q d.cut }).faultInstead h).countsWake h)
            if d.cut.queue.isEmpty then s else s.poke (.streamWriteTransferDone h q)
          else saving ((s.setAux h { a with drain := tput a.drain q { d with stop := some e.va } }).engFault h
            { va := e.va, store := true, port := true, who := q })
        | none =>
          let n := (ps.filter (fun p => match p.2 with | .ok pl => isHost pl.key | .error _ => false)).length
          let cost := (n * ((t.head?.map (·.size)).getD 1) + 63) / 64
          let slot := s.slotOf d.part
          match if n = 0 then some s else s.charge slot cost (.streamWriteTransferDone h q) with
          | none => s.waitTurn slot cost (.streamWriteTransferDone h q)
          | some s =>
            let s := s.powerBanks (ps.filterMap (fun p => match p.2 with | .ok pl => some (pl.key, p.1.size) | .error _ => none))
            let s := ps.foldl (fun s p => match p.2 with | .ok pl => s.writeNat pl.key p.1.size p.1.bits | .error _ => s) s
            let s := if ts.isEmpty && d.dead.isNone then s.setAux h { a with drain := tdel a.drain q }
              else (s.setAux h { a with drain := tput a.drain q { d with queue := ts } }).poke (.streamWriteTransferDone h q)
            let s := s.countsWake h
            if (s.aux h).preqs.isEmpty then s else s.poke (.safePoint h)

end Sys2Proof.Machine
end

