-- ==== Sys2Proof/Machine/CrozierOps.lean ====
section
/-! DEFINITION. The croziers (R377 to R379): contributions and collections from their commit on. -/

namespace Sys2Proof.Machine

/-- Replace the combines of a column. -/
def State.setCombines (s : State) (k : Nat) (cs : List Combine) : State :=
  { s with flight := { s.flight with combines := tput s.flight.combines k cs } }

/-- The combines of a column. -/
def State.combinesOf (s : State) (k : Nat) : List Combine := tget [] s.flight.combines k

/-- Add a contribution to the first combine of its tag to which its core has not contributed, else to a new one. One that has its code takes
only what its members still owe it. -/
def addSend (L op : Nat) (d : CrzDesc) (off fid now : Nat) : List Combine → List Combine
  | [] => [{ tag := d.tag, sends := [(L, op, d, off, fid)], next := 0, acc := none, code := none, waits := [], got := [], last := now }]
  | c :: cs =>
    if c.tag = d.tag && !c.sends.any (fun x => x.1 = L) &&
        (c.code.isNone || c.sends.head?.any (fun x => x.2.2.1.members.testBit (memberOf L))) then
      { c with sends := c.sends ++ [(L, op, d, off, fid)], last := now } :: cs
    else c :: addSend L op d off fid now cs

/-- CRZSEND commits (R378). -/
def State.crzSendCommit (s : State) (h op : Nat) (d : CrzDesc) (off : Nat) : State :=
  let k := columnOf (h / 4)
  let fid := ((s.ctx h).firing.map (·.fid)).getD 0
  ((s.setCombines k (addSend (h / 4) op d off fid s.gtime (s.combinesOf k))).poke (.crozierContribution k)).after pathTime (.crozierContribution k)

/-- The launch of a firing that is on a context or saved. -/
def State.launchOfFid (s : State) (fid : Nat) : Option Nat :=
  match s.hartOf fid with
  | some h => (s.ctx h).firing.bind (·.key)
  | none => (s.savedOf fid).bind (·.2.firing.key)

/-- Whether a member core belongs to a combine: it is present, or it was removed while a launch that contributes had a firing there, which is
still there (R379, R267). -/
def State.crzMember (s : State) (c : Combine) (L : Nat) : Bool :=
  s.present L || (List.range 4).any (fun j =>
    let x := s.ctx (4 * L + j)
    let key := match x.firing with | some f => f.key | none => x.resv.map (fun r => 64 * r.part + r.slot)
    key.isSome && c.sends.any (fun q => s.launchOfFid q.2.2.2.2 = key))

/-- Whether every member of a combine has collected its status. -/
def State.crzFull (s : State) (k : Nat) (c : Combine) : Bool :=
  let mem := (c.sends.head?.map (fun x => x.2.2.1.members)).getD 0
  (List.range 160).all (fun j => !mem.testBit j || !s.crzMember c (coreOfMember k j) || c.got.contains (coreOfMember k j))

/-- A status collected by a member: once every member has one, the tag is free. -/
def State.crzCollect (s : State) (k : Nat) (c : Combine) : State :=
  match c.code with
  | none => s
  | some v =>
    let s := c.waits.foldl (fun s w => s.answer w.1 w.2.1 (word v) 0) s
    let got := c.waits.foldl (fun l w => insertNew l w.2.2) c.got
    let cs := s.combinesOf k
    let first (x : Combine) : Bool := x.tag = c.tag && x.sends.head? = c.sends.head?
    if s.crzFull k { c with got := got } then (s.setCombines k (cs.filter (fun x => !first x))).poke (.crozierContribution k)
    else s.setCombines k (cs.map (fun x => if first x then { c with waits := [], got := got } else x))

/-- CRZRECV commits (R379): NOSEND without a contribution of the context, else its status when there is one. -/
def State.crzRecvCommit (s : State) (h id : Nat) (d : CrzDesc) : State :=
  let k := columnOf (h / 4)
  let L := h / 4
  let fid := ((s.ctx h).firing.map (·.fid)).getD 0
  let mine (c : Combine) : Bool := c.tag = d.tag && c.sends.any (fun x => x.1 = L && x.2.2.2.2 = fid) && !c.got.contains L &&
    !c.waits.any (fun w => w.2.2 = L)
  match (s.combinesOf k).find? mine with
  | none => s.answer fid id 3 0
  | some c =>
    let c' := { c with waits := c.waits ++ [(fid, id, L)] }
    let s := s.setCombines k ((s.combinesOf k).map (fun x =>
      if x.tag = c.tag && x.sends.head? = c.sends.head? then c' else x))
    s.crzCollect k c'

/-! ### Reading and combining (R378, R379) -/

/-- The offset in its own bank of the scale of the block at a scratchpad offset (R171). -/
def crzScale (fmt : Tab Word) (off : Nat) : Nat :=
  off / 0x8000 * 0x8000 + fmtSbase (tget 0 fmt (off / 0x8000)) + 4 * (off % 0x8000 / 32)

/-- The bytes of a contribution and of its scales. -/
def State.crzRead (s : State) (L : Nat) (d : CrzDesc) (off : Nat) : List Byte × List Byte :=
  let n := d.bytes
  (cellsAt s.mem (spadKey L off) n,
    if d.ty = 3 then (List.range (n / 32)).flatMap (fun i => cellsAt s.mem (spadKey L (crzScale d.fmt (off + 32 * i))) 4) else [])

/-- One element combined with another. -/
def crzElem (op ty a b : Nat) : Nat :=
  if ty = 0 then
    (if op = 0 then (a + b) % 2 ^ 32
     else if (toSigned 32 a < toSigned 32 b) = (op = 1) then b else a)
  else if ty = 1 then
    (if op = 0 then Fmt.canonical .f32 (sumVals [Fmt.decode .f32 a, Fmt.decode .f32 b])
     else
       let r := Fmt.minmax .f32 (op = 1) a b
       if (Fmt.decode .f32 r).isNan then Fmt.canonical .f32 .canon else r)
  else if op = 3 then a &&& b else if op = 4 then a ||| b else a ^^^ b

/-- A block of the running result combined with one of a contribution (R183). -/
def crzBlock (a : List Byte) (sa : Nat) (b : List Byte) (sb : Nat) : List Nat × Nat :=
  let vals (x : List Byte) (sc : Nat) : List Val := x.map (fun e => blockVal (Fmt.decode .e4m3 e.toNat) (Fmt.decode .f32 sc))
  let (q, e) := blockEncode kindB8 .rne ((vals a sa).zip (vals b sb) |>.map (fun p => sumVals [p.1, p.2]))
  (q, b8Scale e)

/-- The running result combined with a contribution, element by element. -/
def crzCombine (op : Nat) (d : CrzDesc) (r p : List Byte × List Byte) : List Byte × List Byte :=
  if d.ty = 3 then
    let bs := (List.range (d.bytes / 32)).map (fun i =>
      crzBlock ((r.1.drop (32 * i)).take 32) (leNat ((r.2.drop (4 * i)).take 4)) ((p.1.drop (32 * i)).take 32)
        (leNat ((p.2.drop (4 * i)).take 4)))
    (bs.flatMap (fun b => b.1.map (fun n => BitVec.ofNat 8 n)), bs.flatMap (fun b => leBytes b.2 4))
  else
    let w := crzSize d.ty
    ((List.range (d.nel + 1)).flatMap (fun i =>
      leBytes (crzElem op d.ty (leNat ((r.1.drop (w * i)).take w)) (leNat ((p.1.drop (w * i)).take w))) w), [])

/-- The result of a combine: an FP32 NaN is canonical, that of a single member too (R166, R379). -/
def crzCanon (d : CrzDesc) (r : List Byte × List Byte) : List Byte × List Byte :=
  if d.ty = 1 then
    ((List.range (d.nel + 1)).flatMap (fun i =>
      let x := leNat ((r.1.drop (4 * i)).take 4)
      leBytes (if (Fmt.decode .f32 x).isNan then Fmt.canonical .f32 .canon else x) 4), r.2)
  else r

/-- Whether a contribution of a combine names another operation, type, number of elements or set of members than the first (R379). -/
def Combine.mismatch (c : Combine) : Bool :=
  match c.sends with
  | [] => false
  | x :: xs => xs.any (fun y => y.2.1 != x.2.1 || y.2.2.1.ty != x.2.2.1.ty || y.2.2.1.nel != x.2.2.1.nel ||
      y.2.2.1.members != x.2.2.1.members)

/-- The result written to RES of one member (R379). -/
def State.crzWrite (s : State) (L : Nat) (d : CrzDesc) (r : List Byte × List Byte) : State :=
  let s := (s.powerBanks [(spadKey L d.res, r.1.length)]).writeBytes (spadKey L d.res) r.1
  if d.ty = 3 then (List.range (d.bytes / 32)).foldl (fun s i =>
    s.writeBytes (spadKey L (crzScale d.fmt (d.res + 32 * i))) ((r.2.drop (4 * i)).take 4)) s
  else s

/-- The result written to RES of every member, each as its own descriptor names it. -/
def State.crzWriteAll (s : State) (c : Combine) (r : List Byte × List Byte) : State :=
  c.sends.foldl (fun s x => if s.crzMember c x.1 then s.crzWrite x.1 x.2.2.1 r else s) s

/-- The next member that a combine must read, from `next` on: absent cores are skipped, unless they have contributed before. -/
def State.crzNext (s : State) (k : Nat) (c : Combine) : Option Nat :=
  let mem := (c.sends.head?.map (fun x => x.2.2.1.members)).getD 0
  (List.range 160).find? (fun j => c.next ≤ j && mem.testBit j &&
    (s.crzMember c (coreOfMember k j) || c.sends.any (fun x => x.1 = coreOfMember k j)))

/-- Whether a combine can go on: none of its contributors' sori is halted or has its clock paused (R49, R58, R412), and its next contribution
is there, or it is to end and took or read the last one at least 3 ns ago (R52). -/
def State.crzReady (s : State) (k : Nat) (c : Combine) : Bool :=
  c.code.isNone && !c.sends.any (fun x => s.quiet (x.1 / 16)) &&
  match if c.mismatch then none else s.crzNext k c with
  | none => c.last + pathTime ≤ s.gtime
  | some j => c.sends.any (fun x => x.1 = coreOfMember k j)

/-- Read and combine one contribution, or write the result after the last: the combine and the state after it. -/
def State.crzStep (s : State) (k : Nat) (c : Combine) : Combine × State :=
  if c.mismatch then ({ c with code := some 1 }, s)
  else match s.crzNext k c, c.sends.head? with
  | some j, some (_, op, d, _, _) =>
    match c.sends.find? (fun x => x.1 = coreOfMember k j) with
    | some (L, _, d', off, _) =>
      let p := s.crzRead L d' off
      let r := match c.acc with | none => p | some r => crzCombine op d r p
      ({ c with acc := some r, next := j + 1, last := s.gtime },
        (s.powerBanks [(spadKey L off, d'.bytes)]).after pathTime (.crozierContribution k))
    | none => (c, s)
  | none, some (_, _, d, _, _) =>
    ({ c with code := some 0 }, match c.acc with | some r => s.crzWriteAll c (crzCanon d r) | none => s)
  | _, none => ({ c with code := some 0 }, s)

/-- The first combine of a column that can go on: one of the first 64, with no earlier one of its tag (R379). -/
def State.crzPick (s : State) (k : Nat) : Option Combine :=
  let cs := (s.combinesOf k).take 64
  (List.range cs.length).findSome? (fun i => match cs[i]? with
    | some c => if s.crzReady k c && !(cs.take i).any (fun d => d.tag = c.tag) then some c else none
    | none => none)

/-- A crozier frees the tags of which every member that is left has its status, and reads one contribution (R379). -/
def State.crzContribution (s : State) (k : Nat) : State :=
  let cs := s.combinesOf k
  let s := if cs.any (fun c => c.code.isSome && s.crzFull k c) then s.setCombines k (cs.filter (fun c => !(c.code.isSome && s.crzFull k c))) else s
  match s.crzPick k with
  | none => s
  | some c =>
    let (c', s) := s.crzStep k c
    let s := s.setCombines k ((s.combinesOf k).map (fun x => if x.tag = c.tag && x.sends.head? = c.sends.head? then c' else x))
    (s.crzCollect k c').poke (.crozierContribution k)

end Sys2Proof.Machine
end

