-- ==== Sys2Proof/Machine/CopyEngine.lean ====
section
/-! DEFINITION. The copy engine behind the program: geometry (R331, R332), the checks at the head of the queue (R335, R340),
sectors (R336, R445), promises (R334), the end of a copy. -/

namespace Sys2Proof.Machine

/-! ### Geometry (R329 to R332) -/

/-- CPYSPACE of the snapshot. -/
def Copy.space (c : Copy) : Word := tget 0 c.csr 0x82A
/-- COUNT of a dimension. -/
def Copy.len (c : Copy) (d : Nat) : Nat := (tget 0 c.csr (0x826 + d)).toNat % 2 ^ 32
/-- A 32-bit signed field as a number modulo 2 to the 64. -/
def sext32 (n : Nat) : Nat := (sextNat 32 n).toNat
/-- The half of a stride register that a side uses: strides of dimension 1 to 3, the scale offset for 0. -/
def Copy.strd (c : Copy) (dst : Bool) (d : Nat) : Nat :=
  let w := tget 0 c.csr (0x822 + d)
  sext32 (if dst then bits w 63 32 else bits w 31 0)
/-- The space code of a side. -/
def Copy.sp (c : Copy) (dst : Bool) : Nat := if dst then bits c.space 5 3 else bits c.space 2 0
/-- The base address of a side. -/
def Copy.base (c : Copy) (dst : Bool) : Nat := (tget 0 c.csr (if dst then 0x821 else 0x820)).toNat
/-- Whether a side lies in scratchpad banks. -/
def Copy.banked (c : Copy) (dst : Bool) : Bool := c.sp dst = 1 || c.sp dst = 2
/-- The format code of a side, from its banks or from CPYSPACE (R331, R179). -/
def Copy.fmtOf (c : Copy) (dst : Bool) : Nat :=
  if c.banked dst then fmtFmt (if dst then c.dreg else c.sreg)
  else if dst then bits c.space 15 12 else bits c.space 11 8
/-- The rounding mode and SATF of the destination (R331). -/
def Copy.rounding (c : Copy) : RMode × Bool :=
  if c.banked true then (fmtRm c.dreg, fmtSat c.dreg) else (modeOf (bits c.space 17 16), bit c.space 18)
/-- Whether bytes move unchanged (R332). -/
def Copy.raw (c : Copy) : Bool := c.fmtOf false = 0 || c.fmtOf true = 0
/-- Bits of an element of a format code, the MX codes included. -/
def copyBits (mf : Nat) : Nat := if mf = 12 || mf = 13 then 8 else if mf = 14 then 4 else mfBits mf
/-- Whether a format has blocks. -/
def copyBlocks (mf : Nat) : Bool := mf = 10 || mf = 11 || mf = 12 || mf = 13 || mf = 14
/-- Element bytes of a block. -/
def blockBytes (mf : Nat) : Nat := 32 * copyBits mf / 8
/-- Bytes of a scale outside banks (R332). -/
def scaleBytes (mf : Nat) : Nat := if mf = 12 || mf = 13 || mf = 14 then 1 else 4
/-- Bits of a unit on a side. -/
def Copy.unit (c : Copy) (dst : Bool) : Nat := if c.raw then 8 else copyBits (c.fmtOf dst)
/-- Bytes of a run on a side. -/
def Copy.runBytes (c : Copy) (dst : Bool) : Nat := (c.len 0 * c.unit dst + 7) / 8
/-- The number of runs. -/
def Copy.runs (c : Copy) : Nat := c.len 1 * c.len 2 * c.len 3
/-- The address of run `j` on a side. -/
def Copy.run (c : Copy) (dst : Bool) (j : Nat) : Nat :=
  (c.base dst + j % c.len 1 * c.strd dst 1 + j / c.len 1 % c.len 2 * c.strd dst 2 + j / c.len 1 / c.len 2 * c.strd dst 3) %
    2 ^ 64
/-- Destination bytes in all. -/
def Copy.total (c : Copy) : Nat := c.runs * c.runBytes true
/-- The number of sectors (R336). -/
def Copy.sectors (c : Copy) : Nat := (c.total + 4095) / 4096
/-- Whether the copy moves nothing (R333). -/
def Copy.empty (c : Copy) : Bool := c.len 0 = 0 || c.runs = 0

/-- The address of the scale of block `k` of run `j` on a side: where R171 places it in a bank, else by its number in copy
order (R332). -/
def Copy.scaleAt (c : Copy) (dst : Bool) (j k : Nat) : Nat :=
  let mf := c.fmtOf dst
  if c.banked dst then
    let a := c.run dst j + k * blockBytes mf
    a / 0x8000 * 0x8000 + fmtSbase (if dst then c.dreg else c.sreg) + 4 * (a % 0x8000 / blockBytes mf)
  else (c.base dst + c.strd dst 0 + scaleBytes mf * (j * (c.len 0 / 32) + k)) % 2 ^ 64

/-- Whether a side's scales move: its format has blocks and the copy is not of bytes. -/
def Copy.scaled (c : Copy) (dst : Bool) : Bool := !c.raw && copyBlocks (c.fmtOf dst)

/-- A part of a run: its number and the elements from `e0` to before `e1`. -/
structure Piece where
  run : Nat
  e0 : Nat
  e1 : Nat
  deriving DecidableEq, Repr

/-- The parts of runs that sector `k` writes. -/
def Copy.pieces (c : Copy) (k : Nat) : List Piece :=
  let rb := c.runBytes true
  let lo := 4096 * k
  let hi := min (lo + 4096) c.total
  if hi ≤ lo then []
  else (List.range ((hi - 1) / rb + 1 - lo / rb)).map (fun i =>
    let j := lo / rb + i
    { run := j, e0 := (max lo (j * rb) - j * rb) * 8 / c.unit true, e1 := (min hi ((j + 1) * rb) - j * rb) * 8 / c.unit true })

/-- The address and length of a part on a side. -/
def Copy.span (c : Copy) (dst : Bool) (p : Piece) : Nat × Nat :=
  let b := c.unit dst
  ((c.run dst p.run + p.e0 * b / 8) % 2 ^ 64, (p.e1 - p.e0) * b / 8)

/-- The blocks of a part. -/
def Piece.blocks (p : Piece) : List Nat := (List.range (p.e1 / 32 - p.e0 / 32)).map (fun i => p.e0 / 32 + i)

/-- Bytes of a scale on a side. -/
def Copy.scaleLen (c : Copy) (dst : Bool) : Nat := if c.banked dst then 4 else scaleBytes (c.fmtOf dst)

/-- The scales of a part on a side, as ranges. -/
def Copy.scaleSpans (c : Copy) (dst : Bool) (p : Piece) : List (Nat × Nat) :=
  if c.scaled dst then p.blocks.map (fun k => (c.scaleAt dst p.run k, c.scaleLen dst)) else []

/-- A whole run. -/
def Copy.whole (c : Copy) (j : Nat) : Piece := { run := j, e0 := 0, e1 := c.len 0 }

/-- Every range of a side: its runs, and the scales of their blocks. -/
def Copy.ranges (c : Copy) (dst : Bool) : List (Nat × Nat) :=
  (List.range c.runs).flatMap (fun j => (c.run dst j, c.runBytes dst) :: c.scaleSpans dst (c.whole j))

/-! ### The checks at the head of the queue (R335, R340) -/

/-- Whether a range lies inside its space (R331). -/
def inSpace (sp a n : Nat) : Bool :=
  if sp = 0 || sp = 4 then a / 2 ^ 40 ≤ 0xFD && (a + n - 1) / 2 ^ 40 ≤ 0xFD
  else if sp = 1 then a + n ≤ 0x50000
  else if sp = 2 then a / 2 ^ 20 < 2560 && a % 2 ^ 20 + n ≤ 0x50000
  else if sp = 3 then a + n ≤ 0x10000
  else sp = 5 && a + n ≤ 0x1F0000

/-- The banks of a range of offsets. -/
def rangeBanks (off n : Nat) : List Nat := (List.range 10).filter (fun b => off / 0x8000 ≤ b && b ≤ (off + n - 1) / 0x8000)

/-- The pages of a range of virtual addresses. -/
def rangePages (a n : Nat) : List Nat := (List.range ((a + n - 1) / 65536 + 1 - a / 65536)).map (fun i => a / 65536 + i)

/-- The leaf a copy translates by (R128, R130). -/
def State.copyLeaf (s : State) (c : Copy) (a : Nat) : Option Leaf := s.leafOf (c.h / 64) c.part (word a)

/-- Whether the pages of a range that are translated have the HOST bit of their space (R331). -/
def State.hostOk (s : State) (c : Copy) (sp a n : Nat) : Bool :=
  (rangePages a n).all (fun p => match s.copyLeaf c (p * 65536) with | some l => bit l.pte 63 == (sp == 4) | none => true)

/-- Whether the copy's firing, or after its end nobody else, holds a bank of its own core (R93, R339). -/
def State.copyBank (s : State) (c : Copy) (b : Nat) : Bool :=
  if (s.ctx c.h).firing.any (fun f => f.fid = c.fid) then s.bankOk c.h b
  else (s.bank (c.h / 4) b).own.isNone

/-- Rights over a bank of a named core (R340). -/
def State.copyPeer (s : State) (c : Copy) (T b : Nat) : Bool :=
  let L := c.h / 4
  let k := s.bank T b
  let w := (s.core T).cpyperm
  if T = L then s.copyBank c b
  else s.present T && s.partOf T = some c.part && (k.own.isSome || k.retain.isSome) && bit w (48 + b) &&
    (bit w 16 || (T / 16 = L / 16 && bit w (L % 16)))

/-- Whether the copy holds its rights over a range (R340). -/
def State.copyRight (s : State) (c : Copy) (sp a n : Nat) : Bool :=
  if sp = 1 then (rangeBanks a n).all (s.copyBank c)
  else if sp = 2 then (rangeBanks (a % 2 ^ 20) n).all (s.copyPeer c (a / 2 ^ 20))
  else if sp = 3 then
    (List.range 16).all (fun g => g < a / 4096 || (a + n - 1) / 4096 < g ||
      match tget? (s.core (c.h / 4)).rowOwn g with
      | some f => f = c.fid
      | none => !(s.ctx c.h).firing.any (fun f => f.fid = c.fid))
  else true

/-- The format registers of the banks that the runs of a side occupy: the core's own as they stood at issue (R178). -/
def State.sideRegs (s : State) (c : Copy) (dst : Bool) : List Word :=
  let n := if c.len 0 = 0 then 1 else c.runBytes dst
  let L := c.h / 4
  (List.range c.runs).flatMap (fun j =>
    let a := c.run dst j
    if c.sp dst = 1 then (rangeBanks a n).map (fun b => tget 0 c.fmt b)
    else if c.sp dst = 2 then
      (rangeBanks (a % 2 ^ 20) n).map (fun b => if a / 2 ^ 20 = L then tget 0 c.fmt b else tget 0 (s.core (a / 2 ^ 20)).fmt b)
    else [])

/-- The format register of the bank at a side's address. -/
def State.sideReg (s : State) (c : Copy) (dst : Bool) : Word :=
  let a := c.base dst
  if c.sp dst = 1 then tget 0 c.fmt (a / 0x8000)
  else if c.sp dst = 2 then
    (if a / 2 ^ 20 = c.h / 4 then tget 0 c.fmt (a % 2 ^ 20 / 0x8000) else tget 0 (s.core (a / 2 ^ 20)).fmt (a % 2 ^ 20 / 0x8000))
  else 0

/-- The copy with the formats of its two sides sampled (R178). -/
def State.sampled (s : State) (c : Copy) : Copy := { c with sreg := s.sideReg c false, dreg := s.sideReg c true }

/-- Whether the formats of a copy are legal (R335 FORMAT, R175). -/
def State.formatsOk (s : State) (c : Copy) : Bool :=
  let f := c.fmtOf false
  let g := c.fmtOf true
  let same (dst : Bool) : Bool := (s.sideRegs c dst).all (fun r => r = (s.sideReg c dst))
  let acc (dst : Bool) : Bool := c.sp dst != 3 || c.fmtOf dst = 0 || c.fmtOf dst = 3 || c.fmtOf dst = 5
  f != 15 && g != 15 && (g != 11 || f = 11) && acc false && acc true && same false && same true

/-- Whether the runs of a side keep R332's limits for blocks and for INT4. -/
def Copy.cutOk (c : Copy) (dst : Bool) : Bool :=
  let mf := c.fmtOf dst
  if c.raw then true
  else if copyBlocks mf then
    c.len 0 % 32 = 0 && (!c.banked dst || (List.range c.runs).all (fun j => c.run dst j % 0x8000 % blockBytes mf = 0))
  else mf != 4 || c.len 0 % 2 = 0

/-- The code of the first check that fails, 0 where none does: of several, the lowest (DESIGN CHOICE, unsafe: R335 gives no order among the
codes 1 to 4; log 100). -/
def State.copyCode (s : State) (c : Copy) : Nat :=
  let rs := (c.ranges false).map (fun r => (c.sp false, r)) ++ (c.ranges true).map (fun r => (c.sp true, r))
  let blocked (dst : Bool) : Bool := c.scaled dst && c.banked dst && (List.range c.runs).any (fun j =>
    (List.range (c.len 0 / 32)).any (fun k =>
      let a := c.run dst j + k * blockBytes (c.fmtOf dst)
      a / 0x8000 * 0x8000 + 0x8000 < c.scaleAt dst j k + 4))
  if !rs.all (fun r => inSpace r.1 r.2.1 r.2.2) || blocked false || blocked true ||
      !rs.all (fun r => !(r.1 = 0 || r.1 = 4) || s.hostOk c r.1 r.2.1 r.2.2) then 1
  else if !rs.all (fun r => s.copyRight c r.1 r.2.1 r.2.2) ||
      (c.sp false = 2 && c.sp true = 2 && !bit (s.core (c.h / 4)).compat 0) then 2
  else if !s.formatsOk c then 3
  else if !(c.cutOk false && c.cutOk true) then 4
  else 0

/-! ### The end of a copy (R335, R337) -/

/-- The copy at the head of a core's queue. -/
def State.copyHead (s : State) (L : Nat) : Option Copy := (s.core L).copyq.head?.bind (tget? s.flight.copies)

/-- Replace a copy under way. -/
def State.setCopy (s : State) (c : Copy) : State :=
  { s with flight := { s.flight with copies := tput s.flight.copies c.id c } }

/-- A copy leaves its core's queue, and the next one is checked. -/
def State.copyLeaves (s : State) (c : Copy) : State :=
  let L := c.h / 4
  let k := s.core L
  let q := k.copyq.filter (fun n => n != c.id)
  let s := s.setCore L { k with copyq := q }
  if q.isEmpty then s else s.poke (.copyHeadCheck L)

/-- A heavy follow-on that is discarded is no longer an admitted burst, and waits for no admission (R73, R337). -/
def State.dropBurst (s : State) (t : Tile) : State :=
  let n := t.h / 64
  let x := s.sorus n
  if !t.kind.heavy then s
  else if t.admitted then s.setSorus n { x with admitted := x.admitted - 1 }
  else
    let s := s.setSorus n { x with admq := x.admq.filter (fun r => r.id != t.id) }
    if (s.ctx t.h).firing.any (fun f => f.fid = t.fid) then s.admitNow t.h else s

/-- The follow-on of a copy that has ended with a code (R337). -/
def State.copyFollow (s : State) (c : Copy) (code : Nat) : State :=
  match c.follow with
  | none => s
  | some t => if code = 0 then s.joinMatq t else ((s.dropBurst t).tileBarrier (c.h / 4) t 1).dropTile (c.h / 4) c.fid t.id

/-- The status word (R335). -/
def Copy.status (c : Copy) (code : Nat) (late : Bool) : Word := word (c.done * 2 ^ 32 + flag late * 256 + code)

/-- A copy that is late raises COPYLATE where its PTRAP asks for it (R450): dropped where no handler would take it. -/
def State.raiseLate (s : State) (c : Copy) : State :=
  let v := word (c.promise % 2 ^ 59 * 32 + c.xd)
  if !bit c.space 19 || c.discard then s
  else match s.hartOf c.fid with
    | some h =>
      match (s.ctx h).firing with
      | none => s
      | some f =>
        let vec := if !(f.level != .m && bit (s.core (h / 4)).medeleg 30) then (s.core (h / 4)).mtvec else (s.core (h / 4)).stvec
        if f.rtc || f.order.isSome || bits vec 1 0 = 0 then s
        else if s.paused (h / 64) then s.inbound h (.late v)
        else s.lateNow h v
    | none =>
      match s.savedOf c.fid with
      | some (p, w) => s.setSaved p { w with aux := { w.aux with lates := w.aux.lates ++ [v] } }
      | none => s

/-- A copy ends with a code: its status is delivered, unless it is discarded (R339). One whose promise passes only as it ends raises COPYLATE
too (R450). -/
def State.copyEnd (s : State) (c : Copy) (code : Nat) : State :=
  let late := c.late || c.promise < s.localTime (c.h / 4)
  let s := if late && !c.late then s.raiseLate c else s
  let s := { s with flight := { s.flight with copies := tdel s.flight.copies c.id } }
  let s := s.copyLeaves c
  let s := if c.discard then s else s.answerHere c.fid c.id (c.status code late)
  let s := match s.hartOf c.fid with | some h => s.capEvent h 7 1 | none => s
  (s.copyFollow c code).countsWakeOf c.fid

/-- A copy meets a translation fault: it parks at its sector and the queue moves on, or it ends with FAULT (R445, R446). -/
def State.copyPark (s : State) (c : Copy) (dst : Bool) (va : Word) : State :=
  let c := { c.restart with fault := true, side := dst }
  if c.cancel then s.copyEnd c 5
  else match s.hartOf c.fid with
    | none => s.copyEnd c 7
    | some h =>
      if s.endsInstead h dst then (s.faultInstead h).copyEnd c 7
      else ((s.setCopy { c with parked := true }).copyLeaves c).engFault h { va := va, store := dst, port := false, who := c.id }

/-! ### Moving a sector (R336, R445) -/

/-- Where a byte of a copy lies: a memory key, or an import slot with the offset in its window. -/
inductive CopyAt
  | key (k : Nat)
  | win (i off : Nat)
  deriving DecidableEq, Repr

/-- Why a sector does not move: a translation fault at an address, or a code that ends the copy. -/
inductive CopyStop
  | fault (va : Nat)
  | code (n : Nat)
  deriving DecidableEq, Repr

/-- Whether an import slot grants a request of a copy (R402). -/
def State.winGrants (s : State) (c : Copy) (dst : Bool) (i off n : Nat) : Bool :=
  let w0 := tget 0 s.fabric.impw0 i
  let w1 := tget 0 s.fabric.impw1 i
  bit w1 63 && bits w1 51 48 = c.slot && bit w1 (if dst then 1 else 0) && off + n ≤ (bits w0 15 0 + 1) * 65536

/-- The place of `n` bytes that no page bound cuts. -/
def State.copyAt (s : State) (c : Copy) (dst : Bool) (a n : Nat) : Except CopyStop CopyAt :=
  let sp := c.sp dst
  let L := c.h / 4
  if sp = 1 then .ok (.key (spadKey L a))
  else if sp = 2 then .ok (.key (spadKey (a / 2 ^ 20) (a % 2 ^ 20)))
  else if sp = 3 then .ok (.key (accKey L a))
  else if sp = 5 then .ok (.key (sorusKey (L / 16) a))
  else match s.copyLeaf c a with
    | none => .error (.fault a)
    | some l =>
      if !leafGrants l.pte (if dst then .store else .load) then .error (.fault a)
      else if bit l.pte 63 != (sp == 4) then .error (.code 1)
      else if pteWindow l.pte then
        let i := bits l.pte 42 32
        let off := (bits l.pte 31 12 * 4096 + a % 2 ^ l.size) % 2 ^ 32
        if s.winGrants c dst i off n then .ok (.win i off) else .error (.code 2)
      else .ok (.key (leafPlace l (word a)).key)

/-- A range cut at page bounds. -/
def pageCuts (a n : Nat) : List (Nat × Nat) :=
  (rangePages a n).map (fun p =>
    let lo := max a (p * 65536)
    (lo, min (a + n) ((p + 1) * 65536) - lo))

/-- The places of ranges, cut at page bounds: the address, the length, the place. -/
def State.copyPlaces (s : State) (c : Copy) (dst : Bool) (rs : List (Nat × Nat)) : Except CopyStop (List (Nat × Nat × CopyAt)) :=
  (rs.flatMap (fun r => pageCuts r.1 r.2)).mapM (fun r => (s.copyAt c dst r.1 r.2).map (fun p => (r.1, r.2, p)))

/-- The key in a copy's own list of the byte at an offset of a window. -/
def winKey (i off : Nat) : Nat := i * 2 ^ 32 + off

/-- Where the byte at a place stands among the cells that a sector has made. -/
def CopyAt.tag : CopyAt → Nat
  | .key k => k
  | .win i off => 2 ^ 100 + winKey i off

/-- The byte `j` of a place of the source: what an earlier unit of the sector has made, else what memory holds or came from a window. -/
def State.copyByte (s : State) (c : Copy) (made : List Host.Cell) (p : CopyAt) (j : Nat) : Byte :=
  match tget? made (p.tag + j) with
  | some b => b
  | none => match p with
    | .key k => s.byte (k + j)
    | .win i off => tget 0 c.got (winKey i off + j)

/-- The bytes of a range of the source. -/
def State.copyBytes (s : State) (c : Copy) (made : List Host.Cell) (a n : Nat) : List Byte :=
  (pageCuts a n).flatMap (fun r =>
    match s.copyAt c false r.1 r.2 with
    | .ok p => (List.range r.2).map (s.copyByte c made p)
    | .error _ => [])

/-- The codes of `w` bits packed in a number, `n` of them. -/
def codesOf (w n x : Nat) : List Nat := (List.range n).map (fun i => x / 2 ^ (w * i) % 2 ^ w)

/-- The exact values of a block of format `mf` with its scale (R172 to R174). -/
def copyBlock (mf blk scale : Nat) : List Val :=
  if mf = 10 then (codesOf 8 32 blk).map (fun c => blockVal (Fmt.decode .e4m3 c) (Fmt.decode .f32 scale))
  else if mf = 11 then o4Decode blk (Fmt.decode .f32 scale)
  else if mf = 12 then (codesOf 8 32 blk).map (fun c => blockVal (Fmt.decode .e4m3 c) (e8m0 scale))
  else if mf = 13 then (codesOf 8 32 blk).map (fun c => blockVal (Fmt.decode .e5m2 c) (e8m0 scale))
  else (codesOf 4 32 blk).map (fun c => blockVal (Fmt.decode .e2m1 c) (e8m0 scale))

/-- The exact values of a part of a run, from its bytes and the scales of its blocks. -/
def Copy.values (c : Copy) (p : Piece) (data : List Byte) (scales : List Nat) : List Val :=
  let mf := c.fmtOf false
  let x := leNat data
  if copyBlocks mf then
    let b := 8 * blockBytes mf
    (List.range scales.length).flatMap (fun i => copyBlock mf (x / 2 ^ (b * i) % 2 ^ b) (scales.getD i 0))
  else (codesOf (copyBits mf) (p.e1 - p.e0) x).map (mfVal mf)

/-- A number of codes as bytes. -/
def packBytes (w : Nat) (cs : List Nat) : List Byte :=
  leBytes (packNat w (fun i => cs.getD i 0) cs.length) (cs.length * w / 8)

/-- The kind of a block destination (R175). -/
def copyKind (mf : Nat) : BlockKind := if mf = 10 then kindB8 else if mf = 12 then kindMx8a else if mf = 13 then kindMx8b else kindMx4

/-- The scale that a block destination writes (R175). -/
def copyScale (mf : Nat) (e : Option Int) : Nat := if mf = 10 then b8Scale e else mxScale e

/-- What a part of a run writes: addresses with the bytes that go there (R332, R179). -/
def State.copyData (s : State) (c : Copy) (made : List Host.Cell) (p : Piece) : List (Nat × List Byte) :=
  let (sa, sn) := c.span false p
  let (da, _) := c.span true p
  let data := s.copyBytes c made sa sn
  let scales := (c.scaleSpans false p).map (fun r => s.copyBytes c made r.1 r.2)
  let dsc := c.scaleSpans true p
  if c.raw || c.fmtOf false = c.fmtOf true then
    (da, data) :: (dsc.zip scales).map (fun q => (q.1.1, leBytes (leNat q.2) q.1.2))
  else
    let vs := c.values p data (scales.map leNat)
    let mf := c.fmtOf true
    let (mode, satf) := c.rounding
    if copyBlocks mf then
      let es := (List.range dsc.length).map (fun i => blockEncode (copyKind mf) mode ((vs.drop (32 * i)).take 32))
      (da, packBytes (copyBits mf) (es.flatMap (·.1))) ::
        (dsc.zip es).map (fun q => (q.1.1, leBytes (copyScale mf q.2.2) q.1.2))
    else [(da, packBytes (copyBits mf) (vs.map (mfRound mf mode satf)))]

/-- A request of a copy to an import window leaves, and is sent again while no reply has come (R402, R474). -/
def State.winRequest (s : State) (c : Copy) (i off : Nat) (k : WinKind) (n : Nat) : State :=
  let again := c.flying.isSome
  let seq := if again then c.seq else c.seq + 1
  let w0 := tget 0 s.fabric.impw0 i
  let rq : WinReq := { src := s.modId, tag := 2 ^ 41 + c.id * 65536 + seq % 65536, otag := bits (s.slot c.slot).tencfg 59 48
                       gen := bits w0 31 16, off := off, kind := k }
  let s := (s.setCopy { c with seq := seq, flying := some (winKey i off, s.gtime) }).noteSent (2 ^ 41 + c.id) c.slot
  if again then
    (s.sendOwed c.slot (bits w0 63 48) (c.h / 4) 0 ((n + 63) / 64) (.request (bits w0 41 32) rq)).after 8000 (.copySectorWritten (c.h / 4))
  else s.outSend c.slot ((n + 63) / 64) (.datagram 0 (bits w0 63 48) (c.h / 4) 0 (.request (bits w0 41 32) rq))

/-- The next window page that a sector must read. -/
def Copy.toRead (c : Copy) (ps : List (Nat × Nat × CopyAt)) : Option (Nat × Nat × Nat) :=
  ps.findSome? (fun p => match p.2.2 with
    | .win i off => if thas c.got (winKey i off) then none else some (i, off, p.2.1)
    | .key _ => none)

/-- The next window page that a sector must write, with its bytes. -/
def Copy.toWrite (c : Copy) (ps : List (Nat × Nat × CopyAt)) : Option (Nat × Nat × List Byte) :=
  ps.findSome? (fun p => match p.2.2 with
    | .win i off => if c.acked.contains (winKey i off) then none
      else some (i, off, (List.range p.2.1).map (fun j => (tget? c.out.flatten.reverse ((CopyAt.win i off).tag + j)).getD 0))
    | .key _ => none)

/-- A sector has been written: the next one, the end, or the end that a cancellation asked for (R336, R338); the last sector completes the
copy even so (R344). -/
def State.sectorDone (s : State) (c : Copy) : State :=
  let c := { c.restart with done := c.done + 1 }
  if c.sectors ≤ c.done then (s.setCopy c).copyEnd c 0
  else if c.cancel then (s.setCopy c).copyEnd c 5
  else (s.setCopy c).poke (.copySectorWritten (c.h / 4))

/-- The host bytes of some places. -/
def hostBytes (ps : List (Nat × CopyAt)) : Nat :=
  ps.foldl (fun n p => match p.2 with | .key k => if isHost k then n + p.1 else n | .win _ _ => n) 0

/-- Cut bytes into their aligned 8-byte words. -/
def cutWords (a : Nat) (bs : List Byte) : List (Nat × List Byte) :=
  (List.range ((a % 8 + bs.length + 7) / 8)).map (fun i =>
    let lo := 8 * i - a % 8
    (a + lo, (bs.drop lo).take (8 * (i + 1) - a % 8 - lo)))

/-- How many units of a part move together: a byte of a copy of bytes, an element, a byte of 4-bit elements, or a block where a side has
blocks. -/
def Copy.grain (c : Copy) : Nat :=
  if c.raw then 1
  else if copyBlocks (c.fmtOf false) || copyBlocks (c.fmtOf true) then 32
  else if c.unit false = 4 || c.unit true = 4 then 2 else 1

/-- A part of a run cut into what moves together, in order (R332). -/
def Copy.grains (c : Copy) (p : Piece) : List Piece :=
  (List.range ((p.e1 - p.e0 + c.grain - 1) / c.grain)).map (fun i =>
    { run := p.run, e0 := p.e0 + c.grain * i, e1 := min p.e1 (p.e0 + c.grain * (i + 1)) })

/-- What a sector has made so far: the aligned word that was written last, the cells, the newest first, and the words, the newest first. -/
structure Made where
  last : Option Nat := none
  cells : List Host.Cell := []
  words : List (List Host.Cell) := []
  deriving DecidableEq, Repr

/-- Bytes within an aligned word at an address of the destination are made. Of the words that had been moved before a halt nothing is made
again (R412). -/
def State.makeWord (s : State) (c : Copy) (m : Made) (q : Nat × List Byte) : Made :=
  let m := if m.last = some (q.1 / 8) then m else { m with last := some (q.1 / 8), words := [] :: m.words }
  if m.words.length ≤ c.words then m
  else match s.copyAt c true q.1 q.2.length with
    | .ok p =>
      let cs := ((List.range q.2.length).zip q.2).map (fun b => (p.tag + b.1, b.2))
      { m with cells := cs ++ m.cells
               words := match m.words with | w :: ws => (w ++ cs) :: ws | [] => [cs] }
    | .error _ => m

/-- What moves together is made: a unit finds what an earlier unit has made (R332). -/
def State.makeGrain (s : State) (c : Copy) (m : Made) (p : Piece) : Made :=
  ((s.copyData c m.cells p).flatMap (fun q => cutWords q.1 q.2)).foldl (s.makeWord c) m

/-- The words of the sector under way, in copy order. -/
def State.sectorWords (s : State) (c : Copy) : List (List Host.Cell) :=
  (((c.pieces c.done).flatMap c.grains).foldl (s.makeGrain c) {}).words.reverse

/-- The places of the sector under way on a side, or why it does not move. -/
def State.sectorPlaces (s : State) (c : Copy) (dst : Bool) : Except CopyStop (List (Nat × Nat × CopyAt)) :=
  s.copyPlaces c dst ((c.pieces c.done).flatMap (fun p => c.span dst p :: c.scaleSpans dst p))

/-- The ranges of memory behind some places. -/
def placeKeys (ps : List (Nat × Nat × CopyAt)) : List (Nat × Nat) :=
  ps.filterMap (fun p => match p.2.2 with | .key k => some (k, p.2.1) | .win _ _ => none)

/-- Cells go to memory. -/
def State.cellsWrite (s : State) (cs : List Host.Cell) : State := cs.foldl (fun s p => s.writeBytes p.1 [p.2]) s

/-- A copy stops at its sector: it parks at a fault, or ends with a code. -/
def State.copyStop (s : State) (c : Copy) (dst : Bool) : CopyStop → State
  | .fault va => s.copyPark c dst (word va)
  | .code n => s.copyEnd c n

/-- The data of a sector are read, and written 3 ns later (R52): the source is at hand, both sides translate, and the tokens of host bytes
are there. What lies in a sorus that takes no traffic now is waited for (R412, R49). -/
def State.sectorMake (s : State) (c : Copy) (src dst : List (Nat × Nat × CopyAt)) : State :=
  let who := Event.copySectorWritten (c.h / 4)
  let n := hostBytes (src.map (fun p => p.2)) + hostBytes (dst.map (fun p => p.2))
  if (placeKeys (src ++ dst)).any (fun r => s.keyStill (c.h / 64) r.1) then (s.setCopy c).again who
  else match if n = 0 then some s else s.charge c.slot ((n + 63) / 64) who with
    | none => s.waitTurn c.slot ((n + 63) / 64) who
    | some s =>
      let s := s.powerBanks (placeKeys (src ++ dst))
      (s.setCopy { c with made := some s.gtime, out := s.sectorWords c }).after pathTime who

/-- The data of a sector that have been read are written: to windows first, then to memory (R336). -/
def State.sectorLand (s : State) (c : Copy) (t : Nat) : State :=
  if s.gtime < t + pathTime then s.setCopy c
  else match s.sectorPlaces c true with
    | .error e => s.copyStop c true e
    | .ok dst =>
      match c.toWrite dst with
      | some (i, off, bs) => s.winRequest c i off (.write bs) bs.length
      | none => (s.cellsWrite (c.out.flatten.filter (fun p => p.1 < 2 ^ 100))).sectorDone c

/-- The copy at the head of a core's queue moves its next sector (R336). -/
def State.copySector (s : State) (c : Copy) : State :=
  match c.made with
  | some t => s.sectorLand c t
  | none =>
    match s.sectorPlaces c false with
    | .error e => s.copyStop c false e
    | .ok src =>
      match c.toRead src with
      | some (i, off, n) => s.winRequest c i off (.read n) n
      | none => match s.sectorPlaces c true with
        | .error e => s.copyStop c true e
        | .ok dst => s.sectorMake c src dst

/-- A halt freezes the copy at the head of a queue after the word in flight (R412): of a sector whose data have been read and that needs
neither a window nor tokens, as many words have been moved by then as a free value says (log 90). After the resume it reads and moves the
words behind them. -/
def State.copyFreeze (s : State) (c : Copy) : State :=
  if c.frozen then s
  else
    let c := { c with frozen := true }
    let plain (dst : Bool) : Bool := match s.sectorPlaces c dst with
      | .ok ps => ps.all (fun p => match p.2.2 with | .key k => !isHost k | .win _ _ => false)
      | .error _ => false
    if c.made.isSome && plain false && plain true then
      let n := min (c.words + Config.copyWords c.id s.gtime % 1024) c.out.length
      (s.cellsWrite (c.out.take n).flatten).setCopy { c with words := n, made := none, out := [] }
    else s.setCopy c

/-- Whether the request of a copy to a window still waits for its tokens (R405). -/
def State.copyHeld (s : State) (c : Copy) : Bool :=
  (s.slot c.slot).queue.any (fun p => match p.2 with
    | .datagram _ _ _ _ (.request _ rq) => 2 ^ 41 ≤ rq.tag && (rq.tag - 2 ^ 41) / 65536 = c.id
    | _ => false)

/-- Whether the request of a copy to a window has not left or still awaits its reply, not yet for 8 µs. -/
def State.copyAwaits (s : State) (c : Copy) : Bool := s.copyHeld c || c.flying.any (fun f => s.gtime < f.2 + 8000)

/-- The virtual address of the window page that a copy's request named. -/
def State.copyVa (s : State) (c : Copy) (k : Nat) : Nat :=
  let look (dst : Bool) : Option Nat :=
    match s.sectorPlaces c dst with
    | .ok ps => ps.findSome? (fun p => match p.2.2 with | .win i off => if winKey i off = k then some p.1 else none | .key _ => none)
    | .error _ => none
  match look false with
  | some a => a
  | none => (look true).getD (c.base false)

/-- A reply from a window reaches a copy (R402, R475). -/
def State.copyReply (s : State) (tag code : Nat) (bytes : List Byte) : State :=
  let id := (tag - 2 ^ 41) / 65536
  match tget? s.flight.copies id with
  | none => s
  | some c =>
    match c.flying with
    | none => s
    | some (k, _) =>
      if (tag - 2 ^ 41) % 65536 != c.seq % 65536 then s
      else if code != 0 then
        (s.elog 18 c.slot (c.h / 4) (word (s.copyVa c k)) (word (k / 2 ^ 32))).copyEnd { c with flying := none } 2
      else
        let c := { c with flying := none }
        let c := if bytes.isEmpty then { c with acked := c.acked ++ [k] } else { c with got := writeCells c.got k bytes }
        let c := if thas c.got k || bytes.isEmpty then c else { c with got := tput c.got k 0 }
        (s.setCopy c).poke (.copySectorWritten (c.h / 4))

/-! ### A copy joins the queue (R333, R334) -/

/-- The rate of a space at a core in units of 1/1152 byte per ns (R334). -/
def State.spaceRate (s : State) (L sp : Nat) : Nat :=
  if sp = 1 || sp = 3 then
    let n := bits (s.tratio L) 11 0
    64 * (if n = 0 then 1152 else n)
  else if sp = 5 then 32 * 1152 else if sp = 4 then 4 * 1152 else 16 * 1152

/-- The promise of a copy that joins its core's queue now (R334), by the core's own copy of the time (R471). -/
def State.promiseOf (s : State) (c : Copy) : Nat :=
  let L := c.h / 4
  let c := s.sampled c
  let r := min (s.spaceRate L (c.sp false)) (s.spaceRate L (c.sp true))
  let B := c.runs * max (c.runBytes false) (c.runBytes true)
  let q := ((s.core L).copyq.getLast?.bind (tget? s.flight.copies)).map (·.promise)
  let now := s.localTime L
  max now (q.getD now) + 120 + (B * 1152 + r - 1) / r

/-- The moment at which the core's copy of the time will have passed a promise, as it goes now. -/
def State.promiseTimer (s : State) (c : Copy) : State :=
  s.after (c.promise + 1 - s.localTime (c.h / 4)) (.promiseExpiry c.h c.id)

/-- A copy whose chunk commits (R333): its promise goes to xp; a copy of nothing completes at once. -/
def State.copyCommit (s : State) (c : Copy) (pid xp : Nat) : State :=
  let L := c.h / 4
  if c.empty then
    let c := { c with promise := s.localTime L }
    let s := if xp = 0 then s else s.answerHere c.fid pid (word c.promise)
    (s.setCopy c).copyEnd c 0
  else
    let c := { c with promise := s.promiseOf c }
    let s := if xp = 0 then s else s.answerHere c.fid pid (word c.promise)
    let k := s.core L
    let s := (s.setCopy c).setCore L { k with copyq := k.copyq ++ [c.id] }
    let s := s.promiseTimer c
    if k.copyq.isEmpty then s.poke (.copyHeadCheck L) else s

/-- A copy is cancelled (R338): one that moves ends after its sector, another at once. -/
def State.cancelCopy (s : State) (c : Copy) : State :=
  if c.checked && !c.parked && ((s.copyHead (c.h / 4)).any (fun d => d.id = c.id)) then s.setCopy { c with cancel := true }
  else s.copyEnd c 5

/-- CPY.CANCEL at its commit (R338). -/
def State.copyCancel (s : State) (fid n : Nat) : State :=
  s.flight.copies.foldl (fun s p =>
    if p.2.fid != fid || p.2.discard || !(n = 0 || p.2.xd = n) then s else s.cancelCopy p.2) s

/-- The promise of a copy passes (R450): LATE, and with PTRAP COPYLATE on its context, once. It is judged on the core's copy of the time
(R471, R483): one that has lost time meanwhile comes to it later, and one that passes while the core's clock is paused takes effect as the
clock resumes (R468). -/
def State.copyLate (s : State) (cid : Nat) : State :=
  match tget? s.flight.copies cid with
  | none => s
  | some c =>
    if c.late then s
    else if s.localTime (c.h / 4) ≤ c.promise then
      if s.timers.any (fun t => t.2 = .promiseExpiry c.h c.id) then s else s.promiseTimer c
    else if s.paused (c.h / 64) then s.after 10 (.promiseExpiry c.h c.id)
    else
      (s.setCopy { c with late := true, lateTrap := bit c.space 19 && !c.discard }).raiseLate c

end Sys2Proof.Machine
end

