-- ==== Sys2Proof/Machine/LogOps.lean ====
section
/-! DEFINITION. Update logs at the commit of their instructions and behind it (R364 to R366). -/

namespace Sys2Proof.Machine

/-- Entries of one segment of a log. -/
def Log.segment (g : Log) : Nat := g.cap / 16

/-- One append dropped and counted. -/
def Log.drop (g : Log) : Log := { g with dropped := g.dropped + 1 }

/-- The two words of an entry (R365). -/
def LogEnt.words (e : LogEnt) : List Word :=
  [word (bits e.va 47 2 * 4 + flag e.int * 2), word (e.v.toNat * 2 ^ 32 + e.core * 2 ^ 20 + e.ctx * 2 ^ 18 + e.seq)]

/-- The device place of a target in a partition, for writing, or none (R366). -/
def State.logPlace (s : State) (p : Nat) (va : Word) : Option Nat :=
  match s.partPlace p true va with
  | some pl => if isDev pl.key then some pl.key else none
  | none => none

/-- An append commits (R364): to the open log's segment of the owning slice, or dropped and counted. -/
def State.logAppend (s : State) (h : Nat) (va v : Word) : State :=
  match (s.ctx h).firing with
  | none => s
  | some f =>
    let q := s.part f.part
    match q.log with
    | none => s.setPart f.part { q with dropped := q.dropped + 1 }
    | some g =>
      match s.logPlace f.part va with
      | none => s.setPart f.part { q with log := some g.drop }
      | some key =>
        let sl := sliceOf (key / 64)
        let n := (g.ents.filter (fun e => e.slice = sl)).length
        let seq := tget 0 g.counts h
        if g.segment ≤ n || 2 ^ 18 ≤ seq then s.setPart f.part { q with log := some g.drop }
        else
          let e : LogEnt := { slice := sl, va := va, int := bit v 32, v := v.truncate 32, core := h / 4, ctx := h % 4, seq := seq }
          match s.partWrite f.part (g.base + word (16 * (sl * g.segment + n))) e.words with
          | none => s.setPart f.part { q with log := some g.drop }
          | some t =>
            t.setPart f.part { t.part f.part with log := some { g with ents := g.ents ++ [e], counts := tput g.counts h (seq + 1) } }

/-- Whether an entry comes before another in the order of a merge (R366). -/
def LogEnt.before (a b : LogEnt) : Bool :=
  let k (e : LogEnt) : Nat := (bits e.va 47 2 * 2 ^ 12 + e.core) * 2 ^ 2 + e.ctx
  k a < k b || (k a = k b && a.seq < b.seq)

/-- An entry put in its place. -/
def insertEnt (e : LogEnt) : List LogEnt → List LogEnt
  | [] => [e]
  | x :: xs => if e.before x then e :: x :: xs else x :: insertEnt e xs

/-- The entries of a closed log in the order in which they apply: slice by slice, each sorted. -/
def Log.ordered (g : Log) : List LogEnt :=
  (List.range 16).flatMap (fun n => (g.ents.filter (fun e => e.slice = n)).foldl (fun l e => insertEnt e l) [])

/-- What an entry makes of the old value (R366, R184). A NaN becomes the canonical one: no rule names the NaN of a merge (DESIGN CHOICE,
unsafe; log 107). -/
def LogEnt.apply (e : LogEnt) (old : Nat) : Nat :=
  if e.int then (old + e.v.toNat) % 2 ^ 32
  else Fmt.canonical .f32 (sumVals [Fmt.decode .f32 old, Fmt.decode .f32 e.v.toNat])

/-- Apply entries in order: the updates applied, those dropped, the lines written. -/
def State.logApply (p : Nat) : List LogEnt → State → Nat → Nat → List Nat → State × Nat × Nat × List Nat
  | [], s, a, d, ls => (s, a, d, ls)
  | e :: es, s, a, d, ls =>
    match s.logPlace p e.va with
    | none => State.logApply p es s a (d + 1) ls
    | some k => State.logApply p es (s.writeNat k 4 (e.apply (s.readNat k 4))) (a + 1) d (insertNew ls (k / 64))

/-- A commit of the device itself: the next CSN, broadcast with the lines written (R139, R366, R389). -/
def State.deviceCommit (s : State) (lines : List Nat) (owner : Option Nat) (order : Option (Nat × Nat × Nat)) : State :=
  let t := s.thallus
  let n := t.csn + 1
  let cores := s.ctxs.foldl (fun l p => insertNew l (p.1 / 4)) []
  let s := { s with thallus := { t with csn := n
                                        bcasts := if cores.isEmpty then t.bcasts else t.bcasts ++ [(Bcast.mk n lines owner order)] } }
  cores.foldl (fun s L =>
    let k := s.core L
    (s.setCore L { k with inbox := k.inbox ++ [n] }).poke (.broadcastArrival L)) s

/-- Lines take a version (R139). -/
def State.stamp (s : State) (lines : List Nat) (n : Nat) : State :=
  { s with thallus := { s.thallus with vers := lines.foldl (fun t a => if thallusLine a then tput t a n else t) s.thallus.vers } }

/-- The merge at the head of a partition's queue starts: the open log is closed when it is to be merged, and appends find none
until the next log opens (R366). -/
def State.mergeStart (s : State) (p : Nat) : State :=
  let q := s.part p
  match q.merges with
  | [] => s
  | m :: ms =>
    let w := m.desc.getD 2 0
    let m := if bit w 0 then { m with closed := q.log } else m
    (s.setPart p { q with merges := m :: ms, log := if bit w 0 || bit w 1 then none else q.log, dropped := 0 }).poke (.logMergeDone p)

/-- LOGMRG commits; a second one in the partition waits until the first is done. -/
def State.logMerge (s : State) (h id : Nat) (desc : List Word) : State :=
  match (s.ctx h).firing with
  | none => s
  | some f =>
    let q := s.part f.part
    let m : Merge := { id := id, fid := f.fid, open0 := none, closed := none, desc := desc }
    let t := s.setPart f.part { q with merges := q.merges ++ [m] }
    if q.merges.isEmpty then t.mergeStart f.part else t

/-- Whether a merge would write a line that a granted chunk has still to drain (R139, R162). -/
def State.mergeBehind (s : State) (p : Nat) (es : List LogEnt) : Bool :=
  es.any (fun e => match s.logPlace p e.va with | some k => s.thallus.pending.any (fun q => q.1 = k / 64) | none => false)

/-- The merge at the head of a partition's queue is done: the entries are applied, the next log opens, the status is
answered with the merge's version (R366). -/
def State.mergeDone (s : State) (p : Nat) : State :=
  match (s.part p).merges with
  | [] => s
  | m :: ms =>
    if s.mergeBehind p ((m.closed.map (·.ents)).getD []) then s.after pathTime (.logMergeDone p)
    else
    let w := m.desc.getD 2 0
    let (s, a, d, ls) := s.logApply p ((m.closed.map (·.ordered)).getD []) 0 ((m.closed.map (·.dropped)).getD 0) []
    let s := if ls.isEmpty then s else (s.deviceCommit ls none none).stamp ls (s.thallus.csn + 1)
    let q := s.part p
    let s := s.setPart p { q with
      merges := ms
      log := if bit w 1 then some { base := m.desc.getD 0 0, cap := bits (m.desc.getD 1 0) 31 0 } else q.log }
    let s := s.answer m.fid m.id (word (d % 2 ^ 32 * 2 ^ 32 + a)) (if ls.isEmpty then 0 else s.thallus.csn)
    s.mergeStart p

end Sys2Proof.Machine
end

