-- ==== Sys2Proof/Machine/OwnerOps.lean ====
section
/-! DEFINITION. Remote atomics at their owner (R356, R358, R363, R462) and the reply at the requester (R359, R460). -/

namespace Sys2Proof.Machine

/-- The new datum (R356): `n` bits. -/
def atomicNew (op n old v e : Nat) : Nat :=
  let sl : Bool := toSigned n old < toSigned n v
  let nanFix (r : Nat) : Nat := if (Fmt.decode .f32 r).isNan then 0x7FC00000 else r
  if op = 0 then (old + v) % 2 ^ n
  else if op = 1 then old &&& v
  else if op = 2 then old ||| v
  else if op = 3 then old ^^^ v
  else if op = 4 then (if sl then old else v)
  else if op = 5 then (if sl then v else old)
  else if op = 6 then (if old < v then old else v)
  else if op = 7 then (if old < v then v else old)
  else if op = 8 then v
  else if op = 9 then (if old = e then v else old)
  else if op = 10 then Fmt.canonical .f32 (sumVals [Fmt.decode .f32 old, Fmt.decode .f32 v])
  else nanFix (Fmt.minmax .f32 (op = 12) old v)

/-- Bytes of the datum of an operation. -/
def atomBytes (a : AtomicOp) : Nat := if a.narrow then 4 else 8

/-- The owner handler runs (R358): it reads the datum, writes it, and halts in one chunk. The old value stands in a0 until the
commit. A datum that an error withholds is not written (R452). -/
def State.ownerRun (s : State) (h id : Nat) : State :=
  match tget? s.flight.rcopies id with
  | none => s
  | some r =>
    let c := s.ctx h
    let n := atomBytes r.op
    let pl : Place := { key := r.key, shared := true }
    if !(s.asleep [pl]).isEmpty then s.wakeBanks (s.asleep [pl])
    else if s.lineBusy c r.key n then s
    else
      let old := s.seenNat c r.key n
      let new := atomicNew r.op.op (8 * n) old (r.op.v.toNat % 2 ^ (8 * n)) (r.op.e.toNat % 2 ^ (8 * n))
      let ls := match lineOf r.key with | some a => [a] | none => []
      let y := { c.young with
        rset := ls
        hor := max c.young.hor (s.version [pl])
        wset := if r.abort then [] else ls
        lines := if r.abort then [] else [r.key / 64]
        wbuf := if r.abort then [] else (storeCells n [pl] [new]).reverse
        held := [.halt 0 0] }
      (s.setCtx h { c with regs := c.regs.setX 10 (word old), young := y, sync := true }).endChunk h

/-- An admitted request of another module has its reply: its window may have drained (R403). -/
def State.admitDone (s : State) (id : Nat) : State :=
  match s.fabric.admits.find? (fun p => p.2.1 = id) with
  | none => s
  | some (w, _) =>
    ({ s with fabric := { s.fabric with admits := s.fabric.admits.filter (fun p => p.2.1 != id) } }).poke (.revokeDrainEnd w)

/-- A reply or acknowledgement leaves for a requester: of this module, which it reaches 3 ns later (R52), or through a port, without a
version, which is a number of this module's own chunk order (R359, R402; log 104). -/
def State.ownerReply (s : State) (id : Nat) (r : ReqCopy) (code : Nat) (v : Word) (ver : Nat) : State :=
  let n := r.core / 16
  let ep := (s.sorus n).epoch
  let s := { s with flight := { s.flight with rcopies := tdel s.flight.rcopies id } }
  match r.remote with
  | none =>
    let (rid, s) := s.newId
    let q : Reply := { rid := r.rid, code := code, v := v, ver := ver, epoch := ep, sorus := n }
    ({ s with flight := { s.flight with replies := tput s.flight.replies rid q } }).after pathTime (.replyArrival rid)
  | some (m, tag) =>
    let w := ((s.fabric.admits.find? (fun p => p.2.1 = id)).map (·.1)).getD 0
    (s.sendDatagram (bits (tget 0 s.fabric.expw1 w) 27 24) m 0 r.core (.reply tag code v ep [])).admitDone id

/-- The handler's chunk commits (R363): the entry stands with the datum, and the reply leaves unless an injection drops it
(R463). -/
def State.ownerCommit (s : State) (h id : Nat) (v : Word) (ver : Nat) : State :=
  match tget? s.flight.rcopies id with
  | none => s
  | some r =>
    let n := r.core / 16
    let x := s.sorus n
    let e : CacheEnt := { tenant := r.tenant, vrid := r.vrid, serial := r.serial, result := v, time := s.gtime
                          epoch := x.epoch, abort := r.abort, ver := ver }
    let s := if r.nonIdem then (s.setSorus n { x with cache := x.cache ++ [e] }).after 256000 (.resultCacheRetirement n) else s
    if s.finjHits (h / 4) 0 1 r.tenant then
      let s := (s.finjDone (h / 4)).admitDone id
      { s with flight := { s.flight with rcopies := tdel s.flight.rcopies id } }
    else s.ownerReply id r (if r.abort then 4 else 0) v ver

/-- Whether a cache entry answers a request. -/
def CacheEnt.answers (e : CacheEnt) (r : ReqCopy) : Bool := e.tenant = r.tenant && e.vrid = r.vrid && e.serial = r.serial

/-- An acknowledgement retires earlier entries of its requester and raises the floor, which is the first one seen at first (R363).
Modulo 2^16, an acknowledgement counts as higher where it is fewer than 32,768 ahead (DESIGN CHOICE, unsafe; log 112). -/
def SorusSt.ackSeen (x : SorusSt) (r : ReqCopy) : SorusSt :=
  let k := r.tenant * 2 ^ 32 + r.vrid
  let newer : Bool := match tget? x.floors k with
    | some f => 1 ≤ (r.ack + 65536 - f) % 65536 && (r.ack + 65536 - f) % 65536 < 32768
    | none => true
  { x with
    floors := if newer then tput x.floors k r.ack else x.floors
    cache := x.cache.filter (fun e =>
      !(e.tenant = r.tenant && e.vrid = r.vrid && 1 ≤ (r.ack + 65536 - e.serial) % 65536 && (r.ack + 65536 - e.serial) % 65536 < 32768)) }

/-- A copy of a request is discarded at its owner. -/
def State.discardCopy (s : State) (id : Nat) : State :=
  { s with flight := { s.flight with rcopies := tdel s.flight.rcopies id } }.admitDone id

/-- A request waits for the handler. -/
def State.queueOwner (s : State) (id : Nat) (r : ReqCopy) : State :=
  let k := s.core r.core
  let s := { s with flight := { s.flight with rcopies := tput s.flight.rcopies id { r with queued := true } } }
  (s.setCore r.core { k with owners := k.owners ++ [id] }).poke (.selection r.core)

/-- Whether a request of the same line has arrived at the owner before and has not taken effect: it waits, or the handler's chunk for it
has not committed (R382). -/
def State.lineAhead (s : State) (r : ReqCopy) : Bool :=
  s.flight.rcopies.any (fun p => p.2.queued && p.2.core = r.core && p.2.key / 64 = r.key / 64)

/-- The answer that a result-cache entry gives (R363, R452, R462). -/
def CacheEnt.hit (e : CacheEnt) : Nat × Word × Nat := (if e.abort then 4 else 0, e.result, e.ver)

/-- A copy that needs no handler is answered, after the earlier requests of its line have taken effect (R382). -/
def State.answerCopy (s : State) (id : Nat) (r : ReqCopy) (a : Nat × Word × Nat) : State :=
  if s.lineAhead r then s.queueOwner id { r with hit := some a } else s.ownerReply id r a.1 a.2.1 a.2.2

/-- A copy of a request reaches an owner that takes no traffic now: it waits in the interface, with the answer that the result cache holds
for it (R412, R458). -/
def State.ownerHold (s : State) (id : Nat) (r : ReqCopy) : State :=
  if r.came.isSome then s
  else
    let (k, s) := s.newId
    let hit := if r.nonIdem then ((s.sorus (r.core / 16)).cache.find? (fun e => e.answers r)).map CacheEnt.hit else none
    { s with flight := { s.flight with rcopies := tput s.flight.rcopies id { r with came := some (s.gtime, k), hit := hit } } }

/-- A copy whose time in routers, links and ports exceeds 8,000 ns is discarded and counted as lost (R456). -/
def State.lostCopy (s : State) (id n : Nat) : State :=
  (s.setSorus n { s.sorus n with lost := (s.sorus n).lost + 1 }).discardCopy id

/-- The way of a copy of a request of this module to its owner. -/
def State.copyWay (s : State) (r : ReqCopy) : List (Nat × Nat) :=
  if r.remote.isSome || r.came.isSome then []
  else match tget? s.flight.reqs r.rid with
    | some q => wayLinks (q.core / 16) (r.core / 16)
    | none => []

/-- A copy of a request arrives at its owner (R363, R382, R456, R462). At one that takes no traffic it waits in the interface, where it
does not age (R58, R412). -/
def State.ownerArrive (s : State) (id : Nat) : State :=
  match tget? s.flight.rcopies id with
  | none => s
  | some r =>
    let n := r.core / 16
    if r.queued || s.wayDown (s.copyWay r) then s
    else if s.still n then s.ownerHold id r
    else if !s.present r.core then s.discardCopy id
    else if 8000 < r.age + ((r.came.map (·.1)).getD s.gtime - r.sent) then s.lostCopy id n
    else if !r.nonIdem then s.queueOwner id r
    else
      let s := s.setSorus n ((s.sorus n).ackSeen r)
      let x := s.sorus n
      let f := tget 0 x.floors (r.tenant * 2 ^ 32 + r.vrid)
      match r.hit with
      | some a => s.answerCopy id r a
      | none => match x.cache.find? (fun e => e.answers r) with
      | some e => s.answerCopy id r e.hit
      | none =>
        if 32768 ≤ (r.serial + 65536 - f) % 65536 then s.discardCopy id
        else if 0 < r.copyn && (s.gtime - max x.epochAt s.hub.relAt < 264000 || (r.epoch != 0 && r.epoch != x.epoch)) then
          s.answerCopy id r (3, 0, 0)
        else if s.flight.rcopies.any (fun p => p.2.queued && p.2.hit.isNone && p.2.nonIdem && p.2.tenant = r.tenant && p.2.vrid = r.vrid &&
            p.2.serial = r.serial && p.2.core / 16 = n) then s.discardCopy id
        else s.queueOwner id r

/-- A reply reaches its requester (R359, R460, R475); a later answer to a request that has completed is discarded. -/
def State.replyHere (s : State) (rid code : Nat) (v : Word) (ver epoch sorus : Nat) : State :=
  match tget? s.flight.reqs rid with
  | none => s
  | some q =>
    let k := s.core q.core
    let s := if epoch = 0 then s else s.setCore q.core { k with epochs := tput k.epochs (q.epochKey sorus) epoch }
    if code = 0 then
      let s := s.reqDone rid
      if q.op.nr then s else s.answer q.fid q.id (if q.op.narrow then sextNat 32 v.toNat else v) ver
    else if code = 4 then
      let f := match s.hartOf q.fid with
        | some h => (s.ctx h).firing
        | none => (s.savedOf q.fid).map (·.2.firing)
      let s := match f with | some f => s.countFault f | none => s
      (s.elog 2 q.slot q.core (word (q.va.toNat % 2 ^ 60)) 4).reqUnknown rid 4
    else if code = 3 then s.reqUnknown rid 5
    else (s.elog 18 q.slot q.core q.va (word (q.win.getD 0))).reqUnknown rid 5

/-- A reply reaches the core of its requester, unless that takes no traffic now (R49, R412) or a link on its way retrains (R472). -/
def State.replyCome (s : State) (id : Nat) : State :=
  match tget? s.flight.replies id with
  | none => s
  | some r =>
    let away := { s with flight := { s.flight with replies := tdel s.flight.replies id } }
    match tget? s.flight.reqs r.rid with
    | none => away
    | some q =>
      if (s.sx (q.core / 16)).halted || s.paused (q.core / 16) || (r.sorus < 160 && s.wayDown (wayLinks r.sorus (q.core / 16))) then s
      else (away.replyHere r.rid r.code r.v r.ver r.epoch r.sorus).requestsEnd q.fid

/-- The last deadline of a request (R457); with its core's clock paused it takes effect once that resumes (R468). -/
def State.lastDeadline (s : State) (rid : Nat) : State :=
  match tget? s.flight.reqs rid with
  | none => s
  | some q =>
    if q.held then s
    else if s.localTime q.core < q.first + 312000 then s.reqTimer q 312000 (.requestLastDeadline rid)
    else if s.paused (q.core / 16) then s.after 10 (.requestLastDeadline rid)
    else (s.reqUnknown rid 5).requestsEnd q.fid

/-- Entries of a result cache that are 256 µs old retire (R363). A copy that waits in the interface has reached the owner before and keeps its
answer (R458). -/
def State.retireCache (s : State) (n : Nat) : State :=
  let x := s.sorus n
  let s := { s with flight := { s.flight with rcopies := s.flight.rcopies.map (fun (p : Nat × ReqCopy) =>
    if p.2.came.isSome && !p.2.queued && p.2.core / 16 = n && p.2.hit.isNone then
      (p.1, { p.2 with hit := (x.cache.find? (fun (e : CacheEnt) => e.answers p.2 && !(s.gtime < e.time + 256000))).map CacheEnt.hit })
    else p) } }
  let s := s.setSorus n { x with cache := x.cache.filter (fun e => s.gtime < e.time + 256000) }
  (List.range 16).foldl (fun s c => if (s.core (16 * n + c)).owners.isEmpty then s else s.poke (.selection (16 * n + c))) s

end Sys2Proof.Machine
end

