-- ==== Sys2Proof/Machine/Power.lean ====
section
/-! DEFINITION. The sorus power controller's budget and the admission of heavy bursts (R70, R73). -/

namespace Sys2Proof.Machine

/-- The effective budget of a sorus in units of 1/16 W (R70). -/
def State.budget (s : State) (n : Nat) : Nat :=
  let x := s.sorus n
  let boost := if x.level = 1 then 116 else if x.level = 2 then 256 else 0
  max 64 (bits x.pwrcfg 11 0 + boost - x.ballastCharge)

/-- Whether the controller admits a burst now (R73). -/
def State.admits (s : State) (n : Nat) : Bool :=
  let x := s.sorus n
  x.pest + x.rsum + 20 ≤ s.budget n || x.admitted = 0

/-- Set the mark of admission on a tile operation, in its queue or behind its copy. -/
def State.markAdmitted (s : State) (L id : Nat) : State :=
  let mark (t : Tile) : Tile := if t.id = id then { t with admitted := true } else t
  let k := s.core L
  let s := s.setCore L { k with matq := k.matq.map mark }
  { s with flight := { s.flight with copies := s.flight.copies.map (fun p => (p.1, { p.2 with follow := p.2.follow.map mark })) } }

/-- A burst of context `h` is admitted: the context goes on once none of its operations awaits admission, and while its clock is paused
the grant waits in the interface (R49, R58). -/
def State.letIn (s : State) (h id : Nat) : State :=
  let n := h / 64
  let x := s.sorus n
  let s := s.setSorus n { x with
    rsum := x.rsum + 20, admitted := x.admitted + 1, admq := x.admq.filter (fun r => r.id != id) }
  let s := (s.markAdmitted (h / 4) id).poke (.tileOperationComplete (h / 4))
  if s.paused n then s.inbound h .letIn else s.admitNow h

/-- A request put in its place: in order of the time it was made, then of the logical core (R73). -/
def insertAdm (r : AdmReq) : List AdmReq → List AdmReq
  | [] => [r]
  | q :: qs => if r.at' < q.at' || (r.at' = q.at' && r.h / 4 < q.h / 4) then r :: q :: qs else q :: insertAdm r qs

/-- A burst asks for admission as its chunk commits: its context is Waiting until it has it (R312). -/
def State.askAdmission (s : State) (h id : Nat) : State :=
  let n := h / 64
  let x := s.sorus n
  let s := s.setSorus n { x with admq := insertAdm (AdmReq.mk h id s.gtime) x.admq }
  let c := s.ctx h
  let s := if c.firing.isSome && (c.st = .running || c.st = .draining) then
      s.setCtx h { c with st := .waiting, wait := .admission, waitOk := true } else s
  s.poke (.admissionRequest h)

/-- Requests from the head of the queue are admitted for as long as the test holds; the fuel is the queue's length. -/
def State.serveAdmissions (s : State) (n : Nat) : Nat → State
  | 0 => s
  | k + 1 =>
    match (s.sorus n).admq with
    | [] => s
    | r :: _ => if s.admits n then (s.letIn r.h r.id).serveAdmissions n k else s

/-- The requests at the head of the queue that were made within the last 10 ns are admitted while the test holds (R73); one that an
earlier request holds back waits for the controller's step. -/
def State.admitFresh (s : State) (n : Nat) : Nat → State
  | 0 => s
  | k + 1 =>
    match (s.sorus n).admq with
    | [] => s
    | r :: _ => if s.gtime ≤ r.at' + 10 && s.admits n then (s.letIn r.h r.id).admitFresh n k else s

end Sys2Proof.Machine
end

