-- ==== Sys2Proof/Machine/System.lean ====
section
/-! DEFINITION. The instructions of custom-3: waits in either time base, the boost request, trap return, trace and capture,
scan test, the logical core map, pre-emption requests (R250 to R268). -/

namespace Sys2Proof.Machine

/-- The register operand as a hold that takes effect at the commit, with a bound after it (R251). -/
def State.holdSync (s : State) (i : Held) : State := (s.hold i).stepSync

/-- WAIT.C (R252): the end is a count of the core's cycles. -/
def execWaitC (xs : Reg) (s : State) : Out :=
  finish s (do
    s.notRtc (.waitC xs)
    .ok (s.beginWait (.cycles (s.cycles s.lcore + (s.x xs).toNat))))

/-- WAIT.T (R252). -/
def execWaitT (xs : Reg) (s : State) : Out :=
  finish s (do
    s.notRtc (.waitT xs)
    .ok (s.beginWait (.time (s.x xs).toNat)))

/-- WAIT.TR (R252): the target is taken at issue, modulo 2 to the 64. -/
def execWaitTr (xs : Reg) (s : State) : Out :=
  finish s (do
    s.notRtc (.waitTr xs)
    .ok (s.beginWait (.time (word (s.localTime s.lcore) + s.x xs).toNat)))

/-- BREQ (R254). -/
def execBreq (prio : BitVec 3) (level : BitVec 2) (s : State) : Out :=
  .next (s.holdSync (.boost level.toNat prio.toNat))

/-- ERET.S (R255). -/
def execEretS (s : State) : Out :=
  finish s (do
    s.needs .s .eretS
    .ok (s.holdSync (.eret false)))

/-- ERET.M (R255). -/
def execEretM (s : State) : Out :=
  finish s (do
    s.needs .m .eretM
    .ok (s.holdSync (.eret true)))

/-- TRON (R256). -/
def execTron (s : State) : Out := .next (s.holdSync .traceOn)
/-- TROFF (R256). -/
def execTroff (s : State) : Out := .next (s.holdSync .traceOff)
/-- TRMARK (R256): no chunk bound; the record is emitted at the commit. -/
def execTrmark (xs : Reg) (s : State) : Out := .next ((s.hold (.mark (s.x xs))).step4)
/-- CAPON (R257). -/
def execCapon (n : BitVec 5) (s : State) : Out := .next (s.holdSync (.cap n.toNat true))
/-- CAPOFF (R257). -/
def execCapoff (n : BitVec 5) (s : State) : Out := .next (s.holdSync (.cap n.toNat false))
/-- CAPRD (R257). -/
def execCaprd (xd : Reg) (n : BitVec 5) (s : State) : Out := s.putX xd (tget 0 (s.aux s.cur).caps n.toNat)

/-- The accesses SCANRUN checks at issue: its descriptor must be readable and writable, unless it is misaligned (R261). -/
def State.scanAccess (s : State) (va : Word) : Except Stop Unit :=
  if va.toNat % 32 != 0 then .ok ()
  else
    let vas := [va, va + 8, va + 16, va + 24]
    let ld := vas.map (fun a => (a, s.resolve s.cur .load a))
    let st := vas.map (fun a => (a, s.resolve s.cur .store a))
    let hit (rs : List (Word × Except Nat Place)) (c : Nat) : Option Stop :=
      (rs.find? (fun r => match r.2 with | .error d => d == c | .ok _ => false)).map (fun r => Stop.trap c r.1)
    match hit ld 5, hit st 7, hit ld 13, hit st 15 with
    | some e, _, _, _ => .error e
    | none, some e, _, _ => .error e
    | none, none, some e, _ => .error e
    | none, none, none, some e => .error e
    | none, none, none, none => .ok ()

/-- SCANRUN (R261): the request leaves at the commit, which gives the code. -/
def execScanrun (xd xs : Reg) (s : State) : Out :=
  finish s (do
    s.needs .s (.scanrun xd xs)
    s.scanAccess (s.x xs)
    let (id, t) := s.ask xd
    .ok (t.holdSync (.scanrun id (s.x xs) s.hart.priv)))

/-- The word of SCANSTAT (R263). -/
def Scan.word (k : Scan) : Word :=
  Sys2Proof.word (k.state * 2 ^ 62 + k.result * 2 ^ 59 + flag k.hold * 2 ^ 58 + k.core)

/-- SCANSTAT (R263). -/
def execScanstat (xd : Reg) (s : State) : Out :=
  finish s (do
    s.needs .s (.scanstat xd)
    let v := match (s.aux s.cur).scan.bind (tget? s.flight.scans) with | some k => k.word | none => 0
    .ok ((s.setX xd v).step4))

/-- SCANABORT (R264). -/
def execScanabort (s : State) : Out :=
  finish s (do
    s.needs .s .scanabort
    .ok (s.holdSync .scanabort))

/-- MAPRD (R266). -/
def execMaprd (xd xs : Reg) (s : State) : Out :=
  finish s (do
    s.needs .s (.maprd xd xs)
    .ok ((s.setX xd (s.lcmap (s.x xs).toNat)).step4))

/-- MAPRM (R266). -/
def execMaprm (xs : Reg) (s : State) : Out :=
  finish s (do
    s.needs .s (.maprm xs)
    .ok (s.holdSync (.maprm (s.x xs).toNat s.hart.priv)))

/-- MAPADD (R266). -/
def execMapadd (xs : Reg) (s : State) : Out :=
  finish s (do
    s.needs .m (.mapadd xs)
    .ok (s.holdSync (.mapadd (s.x xs).toNat)))

/-- PREQ (R258). -/
def execPreq (xd xs : Reg) (s : State) : Out :=
  finish s (do
    s.needs .s (.preq xd xs)
    let (id, t) := s.ask xd
    .ok (t.holdSync (.preq id (s.x xs) s.hart.priv)))

end Sys2Proof.Machine
end

