-- ==== Sys2Proof/Machine/SystemOps.lean ====
section
/-! DEFINITION. What the instructions of custom-3 come to at the commit of their chunks (R256 to R266). -/

namespace Sys2Proof.Machine

/-! ### Trace and capture -/

/-- TRON commits (R256): the first traced context of a core brings a SYNC record (R418). -/
def State.traceStart (s : State) (h : Nat) : State :=
  if !s.traceAllowed h (s.ctx h).priv then s
  else
    let first := !(List.range 4).any (fun c => (s.aux (h / 4 * 4 + c)).trace)
    let s := s.setAux h { s.aux h with trace := true }
    if first then s.traceSync (h / 4) 0 else s

/-- TROFF commits. -/
def State.traceStop (s : State) (h : Nat) : State :=
  if s.traceAllowed h (s.ctx h).priv then s.setAux h { s.aux h with trace := false } else s

/-- CAPON and CAPOFF commit (R257). -/
def State.capSet (s : State) (h n : Nat) (on : Bool) : State :=
  let a := s.aux h
  let m : BitVec 32 := BitVec.ofNat 32 (2 ^ n)
  s.setAux h { a with capOn := if on then a.capOn ||| m else a.capOn &&& ~~~m }

/-! ### Pre-emption requests (R258, R259) -/

/-- The contexts of a group, or the one context. -/
def State.preqTargets (s : State) (h : Nat) (group : Bool) : List Nat :=
  match (s.ctx h).firing with
  | none => [h]
  | some f =>
    if group && f.key.isSome then
      (s.ctxs.filter (fun p => p.2.firing.any (fun g => g.key = f.key && g.gid = f.gid) ||
        p.2.resv.any (fun r => f.key = some (64 * r.part + r.slot) && r.gid = f.gid))).map (·.1)
    else [h]

/-- The in-group index of what a context holds. -/
def State.idxOf (s : State) (h : Nat) : Nat :=
  match (s.ctx h).firing with
  | some f => f.idx
  | none => ((s.ctx h).resv.map (·.idx)).getD 0

/-- PREQ commits: a code at once, or a request to each target. Where several of BADARG, DENIED and EMPTY apply the spec names no order: the
model tests them in this one (DESIGN CHOICE, unsafe; R258; log 98). -/
def State.preqCommit (s : State) (h id : Nat) (v : Word) (p : Priv) : State :=
  let fid := ((s.ctx h).firing.map (·.fid)).getD 0
  let part := (s.ctx h).firing.map (·.part)
  let L := bits v 11 0
  let t := 4 * L + bits v 13 12
  if bits v 63 16 != 0 || bit v 14 then s.answer fid id 6 0
  else if !s.present L || (p = .s && s.partOf L != part) || t = h then s.answer fid id 5 0
  else if (s.ctx t).firing.isNone then s.answer fid id 4 0
  else
    let ts := s.preqTargets t (bit v 15)
    let (rid, s) := s.newId
    let r : PreqRec := { fid := fid, id := id, todo := ts.map (fun u => (((s.ctx u).firing.map (·.fid)).getD 0, s.idxOf u)), codes := [] }
    let s := { s with flight := { s.flight with preqs := tput s.flight.preqs rid r } }
    ts.foldl (fun s u =>
      if (s.ctx u).firing.isNone then s.preqOutcome rid (s.idxOf u) 4 else s.poke (.preemptionRequest u (.preq rid))) s

/-! ### Scan test (R261, R264) -/

/-- The cores of a core's sorus. -/
def siblings (L : Nat) : List Nat := (List.range 16).map (fun c => L / 16 * 16 + c)

/-- Whether a core holds a firing, a reservation or a retained bank. -/
def State.coreBusy (s : State) (L : Nat) : Bool :=
  (List.range 4).any (fun c => (s.ctx (4 * L + c)).firing.isSome || (s.ctx (4 * L + c)).resv.isSome) ||
  (List.range 10).any (fun b => (s.bank L b).retain.isSome)

/-- The code that a scan request receives (R261). -/
def State.scanCode (s : State) (h : Nat) (va w0 : Word) (p : Priv) : Nat :=
  let L := bits w0 11 0
  let part := (s.ctx h).firing.map (·.part)
  let open' := ((s.aux h).scan.bind (tget? s.flight.scans)).any (fun k => k.state != 3)
  if open' then 1
  else if va.toNat % 32 != 0 || bits w0 63 23 != 0 || bits w0 17 16 != 0 then 4
  else if !s.present L || L = h / 4 || (p = .s && s.partOf L != part) then 2
  else if (siblings L).any (fun l => (s.core l).test.isTesting) then 3
  else if !bit w0 18 && s.coreBusy L then 5
  else 0

/-- An accepted scan begins to drain its target (R262). -/
def State.scanStart (s : State) (h : Nat) (key : Nat) (w0 expect : Word) : State :=
  let L := bits w0 11 0
  let (sid, s) := s.newId
  let k : Scan := { fid := ((s.ctx h).firing.map (·.fid)).getD 0, core := L, pat := bits w0 15 12, expect := expect, key := key
                    autoAb := if bit w0 19 then some (bits w0 22 20) else none, state := 1, result := 0, since := s.gtime
                    paused := false, hold := false }
  let s := { s with flight := { s.flight with scans := tput s.flight.scans sid k } }
  let s := s.setAux h { s.aux h with scan := some sid }
  let s := s.setCore L { s.core L with test := .draining, testScan := sid }
  let s := if !bit w0 18 then s
    else
      let s := (List.range 4).foldl (fun s c =>
        if (s.ctx (4 * L + c)).firing.isSome then s.poke (.preemptionRequest (4 * L + c) .scan) else s) s
      (List.range 10).foldl (fun s b => if (s.bank L b).retain.isSome then s.bankDown L b else s) s
  (s.after 1000000 (.scanDrainTimeout L sid)).poke (.scanDrainEnd L)

/-- SCANRUN commits: the descriptor is read, and the code answered. -/
def State.scanCommit (s : State) (h id : Nat) (va : Word) (p : Priv) : State :=
  let fid := ((s.ctx h).firing.map (·.fid)).getD 0
  let w0 := (s.readFor h va).getD 0
  let e := (s.readFor h (va + 8)).getD 0
  match s.scanCode h va w0 p, s.resolve h .store va with
  | 0, .ok pl => (s.scanStart h pl.key w0 e).answer fid id 0 0
  | 0, .error _ => s.answer fid id 4 0
  | c, _ => s.answer fid id (word c) 0

/-- An abort: the scan is done with ABORTED, and its core returns to service (R264). -/
def State.scanStop (s : State) (sid : Nat) : State :=
  match tget? s.flight.scans sid with
  | none => s
  | some k =>
    let L := k.core
    if s.patternOver k then s.patternEnd L sid
    else if k.state = 1 || k.state = 2 then
      let s := s.writeNat (k.key + 16) 8 0
      let s := s.writeNat (k.key + 24) 8 (3 * 2 ^ 61 + s.gtime % 2 ^ 61)
      ({ s with flight := { s.flight with scans := tput s.flight.scans sid { k with state := 3, result := 3 } } }).poke (.returnToService L)
    else if k.hold then
      ({ s with flight := { s.flight with scans := tput s.flight.scans sid { k with hold := false } } }).poke (.returnToService L)
    else s

/-- SCANABORT commits. -/
def State.scanabortCommit (s : State) (h : Nat) : State :=
  match (s.aux h).scan with | some sid => s.scanStop sid | none => s

/-- MAPRM commits (R266). -/
def State.maprmCommit (s : State) (h L : Nat) (p : Priv) : State :=
  if p = .s && s.partOf L != (s.ctx h).firing.map (·.part) then s else s.mapRemove L

end Sys2Proof.Machine
end

