-- ==== Sys2Proof/Machine/Commit.lean ====
section
/-! DEFINITION. The commit of a chunk (R135, R139 to R144): grants, broadcasts, the drain, and what each held item comes to
in program order. -/

namespace Sys2Proof.Machine

/-! ### Vector exchange (R297, R298) -/

/-- The vector a member of an exchange set receives: element `p` of 128 bits of every filled position. -/
def exchangeVec (xs : List (Nat × VReg)) (p : Nat) : VReg :=
  packV 128 (fun k => match xs.find? (fun x => x.1 = k) with | some (_, v) => elem v 128 p | none => 0)

/-- A member arrives at its exchange. A firing of no launch is a set of one. -/
def State.xchgArrive (s : State) (h id : Nat) (v : VReg) : State :=
  match (s.ctx h).firing with
  | none => s
  | some f =>
    match f.key, (s.launchOf f).bind (fun l => (l.group f.gid.toNat).map (fun g => (l, g))) with
    | some k, some (l, g) =>
      (s.setLaunch k (l.setGroup { g with xg := g.xg ++ [(f.idx, f.fid, id, v)] })).poke
        (.exchangeComplete (k / 64) (k % 64) f.gid.toNat (f.idx / 16))
    | _, _ => s.release f.fid id (.vect (exchangeVec [(0, v)] 0))

/-- An exchange completes when every filled position of its set has arrived. What a member brought that was killed before then is
dropped: it is absent from this exchange too (DESIGN CHOICE, unsafe: R297 says so of later exchanges only; log 99). -/
def State.xchgComplete (s : State) (p slot gid set : Nat) : State :=
  match (tget? (s.part p).launches slot).bind (fun l => (l.group gid).map (fun g => (l, g))) with
  | none => s
  | some (l, g) =>
    let ms := g.xg.filter (fun m => m.1 / 16 = set)
    let filled := (List.range g.hs.length).filter (fun j => j / 16 = set && !g.ended.contains j)
    if ms.isEmpty || !filled.all (fun j => ms.any (fun m => m.1 = j)) then s
    else
      let s := s.setLaunch (64 * p + slot) (l.setGroup { g with xg := g.xg.filter (fun m => m.1 / 16 != set) })
      let live := ms.filter (fun m => !g.ended.contains m.1)
      let xs := live.map (fun m => (m.1 % 16, m.2.2.2))
      live.foldl (fun s m => s.release m.2.1 m.2.2.1 (.vect (exchangeVec xs (m.1 % 16)))) s

/-! ### Waits (R253) -/

/-- The chunk of a wait commits: from here on the context may leave Waiting. -/
def State.waitCommit (s : State) (h : Nat) : State :=
  let c := s.ctx h
  if c.st != .waiting then s
  else
    let s := s.setCtx h { c with waitOk := true }
    let s := if (s.aux h).preqs.isEmpty then s else s.poke (.safePoint h)
    match c.wait, c.firing with
    | .cycles n, _ => if n ≤ s.cycles (h / 4) then s.poke (.waitCExpiry h) else s
    | .time t, _ => if t ≤ s.localTime (h / 4) then s.poke (.waitTExpiry h) else s
    | .counts _ _ _ _, _ =>
      if (s.aux h).faults.isEmpty && (s.aux h).lates.isEmpty then s.countsWake h else s.leaveWaitc h
    | .bar k ph id, some f =>
      let w := word (s.readNat (k + 8) 8)
      if bit w 0 != ph then (s.answer f.fid id w 0).wake h
      else match f.key with | some k => s.dlStart k | none => s
    | .ticket d v, some f =>
      if (tget {} (s.sorus (h / 64)).tickets d).serving = v then s.wakeHere h
      else
        let s := s.ticketLift (h / 64) d
        match f.key with | some k => s.dlStart k | none => s
    | _, some f => (match f.key with | some k => s.dlStart k | none => s)
    | _, none => s

/-! ### Held items (R135, R251) -/

/-- HALT commits (R90, R380): the reply of the owner handler leaves, the END record is written, the firing ends. -/
def State.haltCommit (s : State) (h banks actor ver : Nat) : State :=
  let c := s.ctx h
  let s := s.trace h 3 (c.pc - 4)
  let s := if (s.aux h).capOn = 0 then s else s.trace h 5 (word (s.localTime (h / 4) % 2 ^ 63))
  let s := match c.firing.bind (·.owner) with
    | some id => s.ownerCommit h id (c.regs.getX 10) ver
    | none => s
  s.endFiring h true banks actor

/-- A tile operation joins the queue as its chunk commits; a heavy burst asks for admission (R301, R312). -/
def State.tileCommit (s : State) (h : Nat) (t : Tile) : State :=
  let s := s.joinMatq t
  if t.kind.heavy then s.askAdmission h t.id else s

/-- A copy as its chunk commits, with the admission of a heavy follow-on (R333, R337). -/
def State.copyCommitH (s : State) (h : Nat) (c : Copy) (pid xp : Nat) : State :=
  let s := s.copyCommit c pid xp
  match c.follow with
  | some t => if t.kind.heavy then s.askAdmission h t.id else s
  | none => s

/-- What one held item of context `h` comes to at the commit of its chunk with version `ver`. -/
def State.heldDo (s : State) (h ver : Nat) : Held → State
  | .csr a op v p rd => s.csrCommit h a op v p rd
  | .clear a => s.csrClear h a
  | .message t ch ws w rep => s.sendOut h t ch ws w rep
  | .atomic id xd op key slot va => s.commitAtomic h id xd op key slot va
  | .tile t => s.tileCommit h t
  | .copy c pid xp => s.copyCommitH h c pid xp
  | .cancel n => s.copyCancel (((s.ctx h).firing.map (·.fid)).getD 0) n
  | .stream q els => s.streamCommit h q els
  | .bar u => s.barSend (h / 4) u
  | .logapp va v => s.logAppend h va v
  | .logmrg id d => s.logMerge h id d
  | .tktget id d => s.ticketGet h id d
  | .tktadv d => s.ticketAdv h d
  | .wait => s.waitCommit h
  | .gbar id => s.gbarArrive h id
  | .lbar id n => s.lbarArrive h id n
  | .xchg id _ v => s.xchgArrive h id v
  | .otdecl _ _ _ => s
  | .launch id hdr =>
    let f := (s.ctx h).firing
    s.poke (.launchHeaderArrival ((f.map (·.part)).getD 0) hdr (.launch h ((f.map (·.fid)).getD 0) id))
  | .fence a b => s.setAux h { s.aux h with fence := some (a, b) }
  | .crzsend op d off => s.crzSendCommit h op d off
  | .crzrecv id d => s.crzRecvCommit h id d
  | .halt banks actor => s.haltCommit h banks actor ver
  | .boost level prio => s.writeBoost h (word (prio * 2 ^ 8 + level))
  | .eret m => s.trapReturn h m
  | .traceOn => s.traceStart h
  | .traceOff => s.traceStop h
  | .mark v => s.trace h 1 v
  | .cap n on => s.capSet h n on
  | .scanrun id va p => s.scanCommit h id va p
  | .scanabort => s.scanabortCommit h
  | .maprm L p => s.maprmCommit h L p
  | .mapadd L => s.mapAdd L
  | .preq id v p => s.preqCommit h id v p
  | .chmask n on p => if n < 2 && p = .u then s
    else (s.setCore (h / 4) ((s.core (h / 4)).setMask n (!on))).poke (.selection (h / 4))

/-- Whether an item is a message. -/
def Held.isMessage : Held → Bool
  | .message _ _ _ _ _ => true
  | _ => false

/-- Whether an item waits for the HALT of a run-to-completion firing (R89, R380). -/
def Held.untilHalt : Held → Bool
  | .message _ _ _ _ _ => true
  | .atomic _ _ _ _ _ _ => true
  | _ => false

/-! ### The commit -/

/-- The younger chunk that met its bound while the older one awaited its commit takes its place (R133); a context with nothing
uncommitted left goes on, or takes the trap that waited (R427). -/
def State.afterCommit (s : State) (h : Nat) : State :=
  let c := s.ctx h
  if c.firing.isNone then s
  else if c.young.ended then (s.setCtx h c.shift).requestCommit h
  else if c.firing.any (fun f => f.order.isSome) && c.trapReq.isSome then s.poke (.localCommit h)
  else if c.clean then
    let s := s.setCtx h { c with sync := false }
    match c.trapReq with
    | some r => s.poke (.trapEntry h r.int r.cause r.val)
    | none => s
  else s

/-- The order a chunk's broadcast carries (R114). -/
def State.orderOf (s : State) (h : Nat) : Option (Nat × Nat × Nat) :=
  let c := s.ctx h
  c.firing.bind (fun f => c.taskBody.map (fun o => (f.part, o.2, o.1)))

/-- Whether the chunk of a context that awaits its commit meets some written lines. -/
def Ctx.olderMeets (c : Ctx) (lines : List Nat) : Bool :=
  match c.older with | some o => sigMeets o.rset lines || sigMeets o.wset lines | none => false

/-- Whether its executing chunk does. -/
def Ctx.youngMeets (c : Ctx) (lines : List Nat) : Bool := sigMeets c.young.rset lines || sigMeets c.young.wset lines

/-- The squash of one context by a broadcast (R140). -/
def State.plainTo (s : State) (b : Bcast) (h : Nat) : State :=
  let c := s.ctx h
  if c.olderMeets b.lines then s.squash h true
  else if c.youngMeets b.lines then s.squash h false
  else s

/-- What the commit of a task does to a task of its domain (R114): one that is later in the order is squashed where it has read what was
written. A chunk that stands before a task's declaration is no part of it. -/
def State.taskTo (s : State) (b : Bcast) (h : Nat) (late : Bool) : State :=
  let c := s.ctx h
  let before := c.young.declares && c.older.isSome
  if before && c.olderMeets b.lines then s.squash h true
  else if !late then s
  else if !before && (match c.older with | some o => sigMeets o.rset b.lines | none => false) then s.squash h true
  else if sigMeets c.young.rset b.lines then s.squash h (!before)
  else s

/-- What a broadcast does to one context (R140, R114). -/
def State.broadcastTo (s : State) (b : Bcast) (h : Nat) : State :=
  let c := s.ctx h
  if b.owner = some h || c.firing.isNone then s
  else
    let mine := c.firing.bind (fun f => f.order.map (fun o => (f.part, o.2, o.1)))
    match b.order, mine with
    | some (p, d, ts), some (p', d', ts') =>
      if p = p' && d = d' then s.taskTo b h (taskBefore (ts, (b.owner.getD 0) / 4) (ts', h / 4)) else s.plainTo b h
    | _, _ => s.plainTo b h

/-- The core-scratchpad lines of a local commit reach the other three contexts of its core (R141); among the tasks of one domain in
their order (R114). -/
def State.localSquash (s : State) (h : Nat) (lines : List Nat) (order : Option (Nat × Nat × Nat)) : State :=
  if lines.isEmpty then s
  else (List.range 4).foldl (fun s k =>
    s.broadcastTo { csn := 0, lines := lines, owner := some h, order := order } (h / 4 * 4 + k)) s

/-- The lines with a version that a chunk writes: those of device memory, private ones included, and of sorus scratchpads (R139). -/
def Chunk.written (o : Chunk) : List Nat := (o.lines.filterMap (fun l => lineOf (64 * l))).filter thallusLine

/-- The reservation of a context ends with the commit of the chunk it stands for, not with that of the chunk before it (R143). -/
def State.endResv (s : State) (h : Nat) (o : Chunk) : State :=
  if o.sq < 3 then s
  else
    let s := s.dropResv h
    let k := (s.ctx h).young
    if 3 ≤ k.sq then s.reserve h k.sqLines else s

/-- The chunk of context `h` that awaits its commit commits (R139, R141): `ver` is its CSN, or 0 for a local commit. -/
def State.commitChunk (s : State) (h ver : Nat) : State :=
  let c := s.ctx h
  match c.older, c.firing with
  | some o, some f =>
    let s := s.linesWritten o.lines
    let s := { s with mem := o.wbuf.foldr (fun (p : Host.Cell) m => tset 0 m p.1 p.2) s.mem }
    let t := s.thallus
    let s := { s with thallus := { t with
      pending := t.pending.filter (fun p => p.2 != h)
      vers := if ver = 0 then t.vers else o.written.foldl (fun v a => tput v a ver) t.vers } }
    let s := s.setCtx h { c with
      older := none
      young := { c.young with hor := max c.young.hor ver }
      floor := max c.floor ver
      firing := some { f with retired := f.retired + o.n } }
    let held := if f.rtc then (if o.halts then c.carry ++ o.held else o.held.filter (fun i => !i.untilHalt)) else o.held
    let s := if f.rtc then s.setCtx h { s.ctx h with carry := if o.halts then [] else c.carry ++ o.held.filter Held.untilHalt } else s
    let a := s.aux h
    let s := s.setAux h { a with
      instret := a.instret + word o.n
      infl := dropMessages a.infl (held.filter Held.isMessage).length }
    let s := s.capEvent h 2 1
    let s := s.localSquash h (o.wset.filter (fun x => !thallusLine x)) (c.firing.bind (fun f => c.taskBody.map (fun p => (f.part, p.2, p.1))))
    let s := s.endResv h o
    let s := if c.taskBody.isSome then s.orderPoint f else s
    let s := held.foldl (fun s i => s.heldDo h ver i) s
    s.afterCommit h
  | _, _ => s

/-- A task's declaration that the check finds below its domain's commit point (R374). -/
def State.otFails (s : State) (h : Nat) (o : Chunk) : Bool :=
  match (s.ctx h).firing with
  | none => false
  | some f => o.held.any (fun i => match i with | .otdecl ts d _ => ts.toNat < tget 0 (s.part f.part).points d | _ => false)

/-- The chunk is squashed, and its OTDECL will write 1. -/
def State.otSquash (s : State) (h : Nat) : State :=
  let s := s.squash h true
  let c := s.ctx h
  s.setCtx h { c with young := { c.young with otfail := true } }

/-- The tokens of the host lines that a drain writes (R404; log 13). -/
def Chunk.hostCost (o : Chunk) : Nat := ((o.wbuf.filter (fun p => isHost p.1)).length + 63) / 64

/-- A drain goes on with the tokens it needs, or waits for them until `who` (R404, R405). -/
def State.drainPaid (s : State) (h : Nat) (o : Chunk) (who : Event) (go : State → State) : State :=
  let slot := ((s.ctx h).firing.map (·.slot)).getD 0
  match if o.hostCost = 0 then some s else s.charge slot o.hostCost who with
  | none => s.waitTurn slot o.hostCost who
  | some s => go s

/-- The partition whose translations a held item drops (R130). -/
def State.dropsOf (s : State) (h : Nat) : Held → Option Nat
  | .csr a _ _ _ _ =>
    if a = 0x5C0 || a = 0x5C1 then some (s.partFor h)
    else if a = 0x7A3 then
      let t := 64 * (h / 64) + bits (s.aux h).dbgsel 5 0
      let i := (s.aux h).dbgridx
      if (s.sx (h / 64)).halted && bits i 23 21 = 5 && (bits i 20 9 = 0x5C0 || bits i 20 9 = 0x5C1) then some (s.partFor t) else none
    else if 4096 ≤ a then (match hubReg (a - 4096) with | some (.ptroot p) => some p | _ => none)
    else none
  | _ => none

/-- Whether the chunk of a context that awaits its commit may not commit yet: it ended less than 3 ns ago (R52), the core's clock is
paused (R49), it writes into another sorus that takes no traffic now (R412, R49), or an engine operation still holds a translation that the
chunk drops (R130, R448). -/
def State.commitWaits (s : State) (h : Nat) (o : Chunk) : Bool :=
  s.gtime < o.since + pathTime || s.paused (h / 64) || o.lines.any (fun l => s.keyStill (h / 64) (64 * l)) ||
  o.held.any (fun i => match s.dropsOf h i with | some p => s.transBusy p | none => false)

/-- Whether a line that a chunk writes is still to be drained by a chunk with a CSN below `n` (R139, R162). -/
def State.drainsBehind (s : State) (h : Nat) (o : Chunk) (n : Nat) : Bool :=
  s.thallus.pending.any (fun p => p.2 != h && o.wset.contains p.1 && ((s.ctx p.2).older.bind (·.csn)).any (fun m => m < n))

/-- The hub register that a held write reaches (R235). -/
def State.hubTarget (s : State) (h : Nat) : Held → Option HubReg
  | .csr a _ _ _ _ =>
    let p := s.partFor h
    if 4096 ≤ a then hubReg (a - 4096)
    else if a = 0x5C0 then some (.ptroot p) else if a = 0x802 then some (.ppool (s.slotOf p))
    else if a = 0x840 then some (.lqcfg p) else if a = 0x841 then some (.svcfg p) else if a = 0x842 then some (.spocfg p)
    else if 0x830 ≤ a && a ≤ 0x83F then some (.hte (h / 4) (a - 0x830)) else none
  | _ => none

/-- Whether a hub register that a chunk writes is still to be written by a chunk with a CSN below `n`: the write of the chunk later in the
chunk order stands (R235, R144). -/
def State.hubBehind (s : State) (h : Nat) (o : Chunk) (n : Nat) : Bool :=
  let mine := o.held.filterMap (s.hubTarget h)
  !mine.isEmpty && s.ctxs.any (fun q => q.1 != h && q.2.older.any (fun k => k.csn.any (fun m => m < n) &&
    k.held.any (fun i => (s.hubTarget q.1 i).any mine.contains)))

/-- A task that another of its domain has come to precede since its grant returns the grant, and asks again (R114, R139, R160): the pending
marks clear without a write, and the broadcast stands. -/
def State.returnGrant (s : State) (h : Nat) (o : Chunk) : State :=
  let t := s.thallus
  let s := { s with thallus := { t with pending := t.pending.filter (fun p => p.2 != h) } }
  (s.setCtx h { s.ctx h with older := some { o with csn := none } }).requestCommit h

/-- A granted chunk's drain completes, once its core has processed every broadcast up to its CSN and up to its horizon (R139, R141), so that
no chunk of the core takes what it writes to the core's scratchpad for what was there before it (R144). -/
def State.drainDone (s : State) (h : Nat) : State :=
  match (s.ctx h).older with
  | none => s
  | some o =>
    match o.csn with
    | none => s
    | some n =>
      if !s.orderReady h then s.returnGrant h o
      else if s.commitWaits h o || s.drainsBehind h o n || s.hubBehind h o n then s.after pathTime (.drainComplete h)
      else if !(s.core (h / 4)).inbox.all (fun m => n < m && o.hor < m) then s
      else if s.otFails h o then s.otSquash h
      else s.drainPaid h o (.drainComplete h) (fun s => s.commitChunk h n)

/-- Whether a task could commit its body now: the order of its domain lets it (R114), and its core has processed every broadcast up to
the horizon of the body (R141). -/
def State.taskReady (s : State) (h : Nat) : Bool :=
  match (s.ctx h).firing.bind (fun f => f.order.map (fun o => (f, o))) with
  | some (f, ts, d) =>
    !s.livePrecedes f.part d f.fid (ts, h / 4) && !s.duePrecedes f.part d (ts, h / 4) &&
    (s.core (h / 4)).inbox.all (fun m => (s.ctx h).young.hor < m)
  | none => false

/-- The trap that a task has met is due once the task could commit: until then a squash cancels it (R427). A declaration that the domain's
check finds late is squashed first (R374). -/
def State.taskTrapDue (s : State) (h : Nat) : State :=
  match (s.ctx h).trapReq with
  | none => s
  | some r =>
    if !s.taskReady h || s.paused (h / 64) then s
    else if s.otFails h (s.ctx h).young then s.otSquash h
    else s.poke (.trapEntry h r.int r.cause r.val)

/-- A chunk without thallus lines commits locally, once its core has processed every broadcast up to its horizon (R141). -/
def State.localDone (s : State) (h : Nat) : State :=
  match (s.ctx h).older with
  | none => s.taskTrapDue h
  | some o =>
    if s.commitWaits h o || s.drainsBehind h o (o.hor + 1) || s.hubBehind h o (o.hor + 1) then s.after pathTime (.localCommit h)
    else if o.wset.any thallusLine || !(s.core (h / 4)).inbox.all (fun m => o.hor < m) || !s.orderReady h then s
    else if s.otFails h o then s.otSquash h
    else s.drainPaid h o (.localCommit h) (fun s => s.commitChunk h 0)

/-! ### Grants and broadcasts (R139, R140) -/

/-- Whether an active reservation of another context delays a request (R143). -/
def State.delayed (s : State) (r : GrantReq) : Bool :=
  s.thallus.resvs.any (fun v => v.active && v.h != r.h && sigMeets r.lines v.lines &&
    (slicesOf r.lines).any (fun n => (slicesOf v.lines).contains n))

/-- Whether a request may be granted now: it arrived at its home slice at least 3 ns ago (R52, R142), unless a link on its way retrains
(R472). -/
def State.grantable (s : State) (r : GrantReq) : Bool :=
  r.at' + pathTime ≤ s.gtime && !s.delayed r && s.orderReady r.h && !s.wayDown (wayLinks (r.h / 64) (homeSlice r.lines))

/-- The thallus grants the first request that nothing delays: the next CSN, the pending marks, the broadcast (R139). -/
def State.grantNext (s : State) : State :=
  match s.thallus.requests.find? s.grantable with
  | none => s
  | some r =>
    let c := s.ctx r.h
    match c.older with
    | none => { s with thallus := { s.thallus with requests := s.thallus.requests.filter (fun q => q.h != r.h) } }
    | some o =>
      let t := s.thallus
      let n := t.csn + 1
      let s := { s with thallus := { t with
        requests := t.requests.filter (fun q => q.h != r.h)
        pending := t.pending ++ o.wset.map (fun a => (a, r.h)) } }
      let s := s.setCtx r.h { c with older := some { o with csn := some n } }
      let s := (s.deviceCommit o.wset (some r.h) (s.orderOf r.h)).poke (.drainComplete r.h)
      if s.thallus.requests.any s.grantable then s.poke .grant else s

/-- The lowest number of a list. -/
def lowest : List Nat → Option Nat
  | [] => none
  | n :: ns => some (ns.foldl min n)

/-- Core `L` processes its next broadcast (R140). -/
def State.processBroadcast (s : State) (L : Nat) : State :=
  let k := s.core L
  match lowest k.inbox with
  | none => s
  | some n =>
    let s := s.setCore L { k with inbox := k.inbox.filter (fun m => m != n) }
    let s := match s.thallus.bcasts.find? (fun b => b.csn = n) with
      | some b => (List.range 4).foldl (fun s c => s.broadcastTo b (4 * L + c)) s
      | none => s
    let s := if s.cores.any (fun p => p.2.inbox.contains n) then s
      else { s with thallus := { s.thallus with bcasts := s.thallus.bcasts.filter (fun b => b.csn != n) } }
    let s := if k.inbox.length ≤ 1 then s else s.poke (.broadcastArrival L)
    (List.range 4).foldl (fun s c =>
      let h := 4 * L + c
      match (s.ctx h).older with
      | some o => if o.csn.isSome then s.poke (.drainComplete h) else if o.wset.any thallusLine then s else s.poke (.localCommit h)
      | none => if (s.ctx h).trapReq.isSome then s.poke (.localCommit h) else s) s

end Sys2Proof.Machine
end

