-- ==== Sys2Proof/Machine/BringupOps.lean ====
section
/-! DEFINITION. Reset and bring-up (R38 to R45), the supply (R467 to R469), links and ports that lose lanes (R472, R473, R481),
time beacons (R470, R471). -/

namespace Sys2Proof.Machine

/-! ### MSTAT and MBOOT (R40, R41) -/

/-- Whether the module runs with fewer units or lanes than built (R40, R481). -/
def State.degraded (s : State) : Bool :=
  (3 ≤ s.hub.phase && s.hub.good != 0xFFFFFFFF) || !s.hub.absent.isEmpty || s.hub.lanesLost

/-- Bit `f` says that frond `f` has a core present after phase 3. -/
def State.frondBits (s : State) : Nat :=
  if s.hub.phase < 4 then 0
  else (List.range 8).foldl (fun m f =>
    m + (if (List.range 160).any (fun n => frondOf n = f && (List.range 16).any (fun c => s.present (16 * n + c))) then 2 ^ f else 0)) 0

/-- MSTAT. -/
def State.mstat (s : State) : Word :=
  let g := s.hub
  word (g.good.toNat * 2 ^ 32 + s.frondBits * 2 ^ 24 + g.absent.length * 2 ^ 12 + g.phase * 16 + flag g.imgerr * 8 +
    flag g.bisterr * 4 + flag s.degraded * 2 + flag g.ready)

/-- MBOOT. -/
def State.mboot (s : State) : Word := word (flag s.hub.go)

/-! ### Reset (R38, R45, R479) -/

/-- The clock histories of a module that resets under a raw rail other than the nominal one. -/
def resetClocks (raw : Nat) : Tab SorusAux :=
  if raw = 780 then []
  else (List.range 160).map (fun n => (n, { clk := [{ since := 0, from0 := 700, goal := 700, raw := raw, acc := 0 }] }))

/-- Reset: the whole state is that of reset, and phase 0 begins. Device memory and the image window hold nothing after any reset (R45
promises no contents; log 54). What does not belong to the module stays: host memory, the raw
rail, what has left, what the surroundings do next. The error log survives all but a fundamental reset. -/
def State.resetNow (s : State) (fundamental : Bool) : State :=
  let r := State.reset
  let g := s.hub
  let log (h : Hub) : Hub := if fundamental then h else
    { h with elog := g.elog, elogHead := g.elogHead, elogTail := g.elogTail, elogLost := g.elogLost }
  { r with
    mem := s.mem.filter (fun p => isHost p.1)
    saux := resetClocks g.raw
    hub := log { r.hub with raw := g.raw }
    flight := { r.flight with ids := s.flight.ids }
    script := s.script
    out := s.out
    fresh := s.fresh }

/-! ### Phases (R38) -/

/-- The widest width of a die-to-die link with so many good lanes; 0 below 16 (R472). -/
def linkWidth (good : Nat) : Nat := if 64 ≤ good then 64 else if 32 ≤ good then 32 else if 16 ≤ good then 16 else 0
/-- The widest width of a port with so many good lanes (R473). -/
def portWidth (good : Nat) : Nat := if 8 ≤ good then 8 else if 4 ≤ good then 4 else if 2 ≤ good then 2 else 0

/-- Phase 1 ends: global time starts from 0, and with it boundary 0 (R38, R66). -/
def State.startTime (s : State) : State := { s with gtime := 0, running := true }.pokePeriods

/-- Phase 2 ends with the stacks that passed. -/
def State.stacksFound (s : State) (good : BitVec 32) : State :=
  { s with hub := { s.hub with good := good, bisterr := s.hub.bisterr || good != 0xFFFFFFFF } }

/-- Phase 3 ends: cores that failed their self-test are absent (R31), and the cores are released. -/
def State.coresFound (s : State) (failed : List Nat) : State :=
  let fs := (failed.filter (fun L => L < 2560)).foldl insertNew []
  { s with hub := { s.hub with absent := fs, selffail := fs, bisterr := s.hub.bisterr || !fs.isEmpty, relAt := s.gtime } }

/-- Phase 4 ends with the widths of links and ports. A port that trains at no width is no link that failed its phase test: BISTERR
stays, and DEGR shows the lanes lost (log 63). -/
def State.linksFound (s : State) (ports : List Nat) (links : List (Nat × Nat)) : State :=
  let ws := (List.range 16).map (fun n => (n, portWidth (ports.getD n 0)))
  let ls := links.map (fun p => (p.1, linkWidth p.2))
  let f := s.fabric
  { s with
    fabric := { f with ports := ws, portsUp := (ws.filter (fun p => p.2 != 0)).map (·.1), links := ls.foldl (fun t p => tput t p.1 p.2) f.links }
    hub := { s.hub with lanesLost := s.hub.lanesLost || ws.any (fun p => p.2 != 8) || ls.any (fun p => p.2 != 64) } }

/-- The phase advances. -/
def State.enterPhase (s : State) (n : Nat) : State := { s with hub := { s.hub with phase := n } }

/-- A phase ends (R38). A link with fewer than 16 good lanes halts phase 4 (R472). -/
def State.phaseEnd (s : State) (good : BitVec 32) (failed ports : List Nat) (links : List (Nat × Nat)) : State :=
  let n := s.hub.phase
  if n = 0 then s.enterPhase 1
  else if n = 1 then (s.enterPhase 2).startTime
  else if n = 2 then (s.stacksFound good).enterPhase 3
  else if n = 3 then (s.coresFound failed).enterPhase 4
  else if n = 4 then
    if s.hub.linkBad then s
    else if links.any (fun p => linkWidth p.2 = 0) then { s with hub := { s.hub with bisterr := true, linkBad := true } }
    else
      let s := (s.linksFound ports links).enterPhase 5
      if s.hub.go then s.poke .imageCheck else s
  else s

/-! ### The image (R41 to R44) -/

/-- A write of MBOOT. -/
def State.writeMboot (s : State) (v : Bool) : State :=
  if !v || s.hub.ready || s.hub.go then s
  else
    let s := { s with hub := { s.hub with go := true } }
    if s.hub.phase = 5 then s.poke .imageCheck else s

/-- `n` steps of the reflected CRC-32. -/
def crcShift : Nat → Nat → Nat
  | 0, c => c
  | n + 1, c => crcShift n (if c % 2 = 1 then c / 2 ^^^ 0xEDB88320 else c / 2)

/-- CRC-32 of bytes (R42). -/
def crc32 (bs : List Byte) : Nat := (bs.foldl (fun c b => crcShift 8 (c ^^^ b.toNat)) 0xFFFFFFFF) ^^^ 0xFFFFFFFF

/-- The number of entries of the image. -/
def State.imageCount (s : State) : Nat := s.readNat (imageKey 0) 4

/-- The entries of the image: addresses and values. -/
def State.imageEntries (s : State) : List (Nat × Word) :=
  (List.range s.imageCount).map (fun i => (s.readNat (imageKey (16 + 16 * i)) 8, word (s.readNat (imageKey (24 + 16 * i)) 8)))

/-- Whether entries can all be applied, given the cores absent before them (R43). -/
def entriesOk : List Nat → List (Nat × Word) → Bool
  | _, [] => true
  | gone, (a, v) :: es =>
    match hubReg a with
    | none => false
    | some r =>
      r.config && keepBits v r.reserved = 0 &&
      (match r with
        | .lcmap L => if bit v 63 then entriesOk (insertNew gone L) es else !gone.contains L && entriesOk gone es
        | _ => entriesOk gone es)

/-- Whether the image passes (R43). -/
def State.imageOk (s : State) : Bool :=
  let n := s.imageCount
  1 ≤ n && n ≤ 65535 && s.readNat (imageKey 4) 4 = crc32 (cellsAt s.mem (imageKey 16) (16 * n)) &&
  entriesOk s.hub.absent s.imageEntries

/-- Apply entries in order. -/
def State.applyEntries (s : State) (es : List (Nat × Word)) : State :=
  es.foldl (fun s e => match hubReg e.1 with | some r => s.hubWrite r e.2 | none => s) s

/-- The check of the image, and its application (R43). The hub takes the contents that the window has at this one moment, also where the
platform has written it while GO read 1 (R44 leaves open which contents it then takes; log 83). -/
def State.imageTake (s : State) : State :=
  if !s.hub.go || s.hub.phase != 5 || s.hub.ready then s
  else if s.imageOk then
    let s := s.applyEntries s.imageEntries
    { s with hub := { s.hub with imgerr := false, ready := true, go := false } }
  else { s with hub := { s.hub with imgerr := true, go := false } }

/-! ### The supply (R47, R467 to R469) -/

/-- The module stops (R469): the fatal error is reported, and nothing is logged after it. -/
def State.moduleStop (s : State) : State := { s with hub := { s.hub with stopped := true } }.emit .fatal

/-- One sorus follows the raw rail, in the same nanosecond (R47 gives the bound of 2 ns; log 9): a clock that had paused and runs again brings a SYNC record (R418) and goes on. -/
def State.sorusRail (s : State) (mv n : Nat) : State :=
  let was := s.paused n
  let p := clkPoint (s.sx n).clk s.gtime
  let s := s.clkChange n p.goal mv
  if was && !s.paused n then
    let s := (List.range 16).foldl (fun s c => s.traceSync (16 * n + c) 3) s
    (s.takeAll n).pokeSorus n
  else s

/-- Below and above its limits the raw rail no longer holds the state of the cores: SUPFAIL is logged and the module stops (R469). -/
def State.supplyFail (s : State) (mv : Nat) : State :=
  if s.hub.stopped || (440 < mv && mv < 900) then s
  else
    let s := (s.elog 13 0 0xFFF 0 (flag (900 ≤ mv))).moduleStop
    { s with hub := { s.hub with coreLost := true } }

/-- The raw rail changes (R47, R469). -/
def State.railChange (s : State) (mv : Nat) : State :=
  let s := (List.range 160).foldl (fun s n => s.sorusRail mv n) s
  { s with hub := { s.hub with raw := mv } }.supplyFail mv

/-- The hub samples the raw rail (R467); one that is out of its limits after a reset stops the module again (R469). -/
def State.railLook (s : State) : State :=
  let s := s.supplyFail s.hub.raw
  let g := s.hub
  let u : Bool := g.raw < 560
  let o : Bool := 860 < g.raw
  let s := if u && !g.under then s.elog 11 0 0xFFF 0 0 else s
  let s := if o && !g.overF then s.elog 12 0 0xFFF 0 0 else s
  { s with hub := { s.hub with under := u, overF := o } }

/-! ### Links and ports (R472, R473) -/

/-- Lanes of a die-to-die link fail. -/
def State.linkFail (s : State) (link good : Nat) : State :=
  let w := linkWidth good
  if w = 0 then (s.elog 17 0 0xFFF (word link) 0).moduleStop
  else { s with
    fabric := { s.fabric with links := tput s.fabric.links link w, retrain := insertNew s.fabric.retrain link }
    hub := { s.hub with lanesLost := s.hub.lanesLost || w != 64 } }.after 20000 (.linkRetrainEnd link)

/-- What has waited in the routers for a link goes on (R472). -/
def State.pokeTraffic (s : State) : State :=
  let s := s.flight.msgs.foldl (fun s m => if m.2.left then s.poke (.messageArrival m.1) else s) s
  let s := s.flight.rcopies.foldl (fun s r => if r.2.queued || r.2.came.isSome then s else s.poke (.ownerRequestArrival r.1)) s
  let s := s.flight.replies.foldl (fun s r => s.poke (.replyArrival r.1)) s
  if s.thallus.requests.isEmpty then s else s.poke .grant

/-- A die-to-die link has retrained. -/
def State.linkBack (s : State) (link : Nat) : State :=
  if !s.fabric.retrain.contains link then s
  else State.pokeTraffic <| ({ s with fabric := { s.fabric with retrain := s.fabric.retrain.filter (fun n => n != link) } }).elog 16 0 0xFFF (word link)
    (word (tget 64 s.fabric.links link))

/-- Lanes of a port fail: it carries nothing until it has retrained. -/
def State.portFail (s : State) (n good : Nat) : State :=
  if 16 ≤ n || !s.fabric.portsUp.contains n then s
  else
    let s := { s with
      fabric := { s.fabric with ports := tput s.fabric.ports n (portWidth good), retrain := insertNew s.fabric.retrain (64 + n) }
      hub := { s.hub with lanesLost := s.hub.lanesLost || portWidth good != 8 } }
    s.after 200000 (.portRetrainEnd n)

/-- The units of a checkpoint that a port carried move to the other ports (R482). -/
def State.ckMove (s : State) (n : Nat) : State :=
  (s.fabric.ckunits.filter (fun u => u.2.1 = n)).foldl (fun s u => s.poke (.checkpointResend u.1)) s

/-- A port has retrained at its new width; one that trains at none carries nothing. -/
def State.portBack (s : State) (n : Nat) : State :=
  if !s.fabric.retrain.contains (64 + n) then s
  else
    let f := s.fabric
    let w := tget 0 f.ports n
    let s := { s with fabric := { f with
      retrain := f.retrain.filter (fun m => m != 64 + n)
      portsUp := if w = 0 then f.portsUp.filter (fun m => m != n) else f.portsUp } }
    (s.elog 16 0 0xFFF (word n) (word w)).ckFill

/-- The widest width of the host link with so many good lanes (R388). -/
def hostWidth (good : Nat) : Nat := if 16 ≤ good then 16 else if 8 ≤ good then 8 else if 4 ≤ good then 4 else 0

/-- Lanes of the host link fail: the port goes on at a lower rate (R481). -/
def State.hostFail (s : State) (good : Nat) : State :=
  let w := min (hostWidth good) s.fabric.hostLanes
  { s with
    fabric := { s.fabric with hostLanes := w }
    hub := { s.hub with lanesLost := s.hub.lanesLost || w != 16 } }

/-! ### Time beacons (R470, R471) -/

/-- A beacon reaches a frond: it corrects a copy that is more than 1 ns off, and a frond that had run free is back once it is
within 1 ns. -/
def State.beacon (s : State) (f : Nat) : State :=
  let t := s.fabric
  let d := tget 0 t.skew f
  let near : Bool := -1 ≤ d && d ≤ 1
  let s := { s with fabric := { t with
    lastBeacon := tput t.lastBeacon f s.gtime
    slew := if near then t.slew else insertNew t.slew f
    lost := if near then t.lost.filter (fun g => g != f) else t.lost } }
  if near && t.lost.contains f then s.elog 15 0 0xFFF (word f) 0 else s

/-- No beacon has reached a frond for 10 µs. -/
def State.beaconLost (s : State) (f : Nat) : State :=
  let t := s.fabric
  if t.lost.contains f || s.gtime < tget 0 t.lastBeacon f + 10000 then s
  else ({ s with fabric := { t with lost := insertNew t.lost f } }).elog 14 0 0xFFF (word f) 0

end Sys2Proof.Machine
end

