-- ==== Sys2Proof/Machine/EvThallus.lean ====
section
/-! DEFINITION. Happenings of the thallus: grants, broadcasts, drains, local commits, reservations, data that returns (R139
to R143). -/

namespace Sys2Proof.Machine

/-- The happening that takes place has been taken up. -/
def State.taken (s : State) : State := { s with now := none }

/-- GRANT (R139, R143). -/
def execGrant (s : State) : Out :=
  match s.now with
  | some .grant => .next s.taken.grantNext
  | _ => .next s

/-- BROADCAST_ARRIVAL (R140): a core whose clock is paused takes no traffic (R49). -/
def execBroadcastArrival (s : State) : Out :=
  match s.now with
  | some (.broadcastArrival L) => .next (if s.paused (L / 16) then s.taken.after 1 (.broadcastArrival L) else s.taken.processBroadcast L)
  | _ => .next s

/-- DRAIN_COMPLETE (R139, R141). -/
def execDrainComplete (s : State) : Out :=
  match s.now with
  | some (.drainComplete h) => .next (s.taken.drainDone h)
  | _ => .next s

/-- LOCAL_COMMIT (R141). -/
def execLocalCommit (s : State) : Out :=
  match s.now with
  | some (.localCommit h) => .next (s.taken.localDone h)
  | _ => .next s

/-- RESERVATION_TIMEOUT (R143). -/
def execReservationTimeout (s : State) : Out :=
  match s.now with
  | some (.reservationTimeout h since) =>
    .next (if s.thallus.resvs.any (fun r => r.h = h && r.active && r.since = since) then s.taken.dropResv h else s.taken)
  | _ => .next s

/-- The context whose load has its data is offered the turn of its core, unless the core has issued in this nanosecond (R489). -/
def State.dataBack (s : State) (h : Nat) : State :=
  let s := s.endTurn
  if s.runnable h && !(List.range 4).all (s.triedOn (h / 4)).contains then s.offer h else s

/-- LOAD_DATA_RETURN (R141): the waiting load is issued with the line as it now stands; its version raises the horizon. -/
def execLoadDataReturn (s : State) : Out :=
  match s.now with
  | some (.loadDataReturn h) => .next (s.taken.dataBack h)
  | _ => .next s

end Sys2Proof.Machine
end

