-- ==== Sys2Proof/Machine/EvBringup.lean ====
section
/-! DEFINITION. Happenings of reset, bring-up, supply, time and links (R38 to R45, R467 to R473, R481). -/

namespace Sys2Proof.Machine

/-- FUNDAMENTAL_RESET (R45). -/
def execFundamentalReset (s : State) : Out :=
  match s.now with
  | some .fundamentalReset => .next (s.resetNow true)
  | _ => .next s

/-- PF_FUNCTION_LEVEL_RESET (R38, R45). -/
def execPfFunctionLevelReset (s : State) : Out :=
  match s.now with
  | some .pfFunctionLevelReset => .next (s.resetNow false)
  | _ => .next s

/-- SECONDARY_BUS_RESET (R38, R45). -/
def execSecondaryBusReset (s : State) : Out :=
  match s.now with
  | some .secondaryBusReset => .next (s.resetNow false)
  | _ => .next s

/-- BRINGUP_PHASE_END (R38). -/
def execBringupPhaseEnd (s : State) : Out :=
  match s.now with
  | some (.bringupPhaseEnd good failed ports links) => .next (s.taken.phaseEnd good failed ports links)
  | _ => .next s

/-- CONFIG_REQUEST (R39). -/
def execConfigRequest (s : State) : Out :=
  match s.now with
  | some .configRequest => .next (s.taken.emit (if s.hub.phase ≤ 1 then .configRetry else .configOk))
  | _ => .next s

/-- MBOOT_GO (R41, R44). -/
def execMbootGo (s : State) : Out :=
  match s.now with
  | some (.mbootGo v) => .next (s.taken.writeMboot v)
  | _ => .next s

/-- IMAGE_CHECK (R43). -/
def execImageCheck (s : State) : Out :=
  match s.now with
  | some .imageCheck => .next s.taken.imageTake
  | _ => .next s

/-- RAW_RAIL_CHANGE (R47, R49, R469). -/
def execRawRailChange (s : State) : Out :=
  match s.now with
  | some (.rawRailChange mv) => .next (s.taken.railChange mv)
  | _ => .next s

/-- RAIL_SAMPLE (R467). -/
def execRailSample (s : State) : Out :=
  match s.now with
  | some .railSample => .next s.taken.railLook
  | _ => .next s

/-- TIME_BEACON (R470). -/
def execTimeBeacon (s : State) : Out :=
  match s.now with
  | some (.timeBeacon f) => .next (s.taken.beacon f)
  | _ => .next s

/-- BEACON_LOSS (R471). -/
def execBeaconLoss (s : State) : Out :=
  match s.now with
  | some (.beaconLoss f) => .next (s.taken.beaconLost f)
  | _ => .next s

/-- LINK_LANE_FAILURE (R472). -/
def execLinkLaneFailure (s : State) : Out :=
  match s.now with
  | some (.linkLaneFailure link good) => .next (s.taken.linkFail link good)
  | _ => .next s

/-- LINK_RETRAIN_END (R472). -/
def execLinkRetrainEnd (s : State) : Out :=
  match s.now with
  | some (.linkRetrainEnd link) => .next (s.taken.linkBack link)
  | _ => .next s

/-- PORT_LANE_FAILURE (R473). -/
def execPortLaneFailure (s : State) : Out :=
  match s.now with
  | some (.portLaneFailure n good) => .next ((s.taken.portFail n good).ckMove n)
  | _ => .next s

/-- PORT_RETRAIN_END (R473). -/
def execPortRetrainEnd (s : State) : Out :=
  match s.now with
  | some (.portRetrainEnd n) => .next (s.taken.portBack n)
  | _ => .next s

/-- HOST_LANE_FAILURE (R481, R388). -/
def execHostLaneFailure (s : State) : Out :=
  match s.now with
  | some (.hostLaneFailure n) => .next (s.taken.hostFail n)
  | _ => .next s

end Sys2Proof.Machine
end

