-- ==== Sys2Proof/Machine/FabricEvOps.lean ====
section
/-! DEFINITION. Token buckets (R404, R405, R476), incoming datagrams (R401), export windows (R402, R403), the units of a checkpoint
(R407, R482), the router count grid (R420, R421). -/

namespace Sys2Proof.Machine

/-! ### Token buckets -/

/-- What a slot's refill leaves: its debt and tokens, and the spare pool (R405). -/
def refillSlot (q : Slot) (spare cap : Nat) : Slot × Nat :=
  let r := bits q.tbkt 43 24
  let pay := min q.bdebt (r / 2)
  let r := r - pay
  let add : Int := min (r : Int) ((bits q.tbkt 63 44 : Int) - q.tokens)
  ({ q with bdebt := q.bdebt - pay, tokens := ((q.tokens : Int) + add).toNat }, (min (cap : Int) ((spare : Int) + r - add)).toNat)

/-- The refill of one slot, if it is enabled. -/
def State.refillOne (s : State) (t : Nat) : State :=
  let q := s.slot t
  if !bit q.tencfg 63 then s
  else
    let (q, sp) := refillSlot q s.fabric.spare (bits s.fabric.fabcfg 43 24)
    let s := { (s.setSlot t q) with fabric := { s.fabric with spare := sp } }
    if q.queue.isEmpty then s else s.poke (.headRequestRelease t)

/-- The refill of every slot, lowest first. -/
def State.refillAll (s : State) : State := (List.range 16).foldl State.refillOne s

/-- The head request of a slot leaves, if its tokens cover it now; then the next one may (R405). -/
def State.releaseHead (s : State) (t : Nat) : State :=
  let q := s.trimmed t
  let s := s.setSlot t q
  match q.queue with
  | [] => s
  | (c, a) :: rest =>
    match s.outDo t c a with
    | none => s.stallSlot t
    | some s =>
      let s := s.setSlot t { s.slot t with queue := rest, stall := false }
      if rest.isEmpty then s else s.poke (.headRequestRelease t)

/-- A stall that has lasted 10 ms is logged (R476). -/
def State.debtStall (s : State) (t since : Nat) : State :=
  let q := s.trimmed t
  if q.stall && q.stallAt = since && since + 10000000 ≤ s.gtime then s.elog 19 t 0xFFF 0 (word q.bdebt) else s

/-! ### Incoming datagrams (R401) -/

/-- A message of another module: its core must be present and its partition's slot must have the datagram's owner tag. -/
def State.messageIn (s : State) (port : Nat) (dg : Datagram) (L ch : Nat) (ws : List Word) (srcw : Word) : State :=
  if !s.present L then s.dropDatagram port 4 dg.src
  else
    match s.partOf L with
    | none => s.dropDatagram port 3 dg.src
    | some p =>
      if bits (s.slot (s.slotOf p)).tencfg 59 48 != dg.otag then s.dropDatagram port 3 dg.src
      else
        let w := setBits (setBits (setBits srcw 48 16 dg.src) 47 1 1) 12 4 ch
        s.postMessage { sender := 20481 + s.flight.ids, core := L, ch := ch % 16, words := ws, srcw := w, left := false
                        slot := s.slotOf p, from' := portSorus port }

/-- The slot that a reply of another module is charged to (R404, R476): that of the request it answers, be that one complete. -/
def State.replySlot (s : State) (tag : Nat) : Option Nat :=
  if 2 ^ 41 ≤ tag then tget? s.flight.sentFor (2 ^ 41 + (tag - 2 ^ 41) / 65536)
  else if 2 ^ 40 ≤ tag then none
  else tget? s.flight.sentFor tag

/-- A reply of another module: to a copy, to the checkpoint engine, or to the core of a remote-atomic request; charged as debt. -/
def State.replyIn (s : State) (tag code : Nat) (v : Word) (epoch : Nat) (bytes : List Byte) : State :=
  let s := match s.replySlot tag with
    | some t => s.owe t (max 1 ((bytes.length + 63) / 64))
    | none => s
  if 2 ^ 41 ≤ tag then s.copyReply tag code bytes
  else if 2 ^ 40 ≤ tag then s.poke (.checkpointUnitAck (tag - 2 ^ 40) code)
  else
    let (id, s) := s.newId
    let r : Reply := { rid := tag, code := code, v := v, ver := 0, epoch := epoch, sorus := 160 }
    ({ s with flight := { s.flight with replies := tput s.flight.replies id r } }).poke (.replyArrival id)

/-- A datagram comes in at a port. -/
def State.datagramIn (s : State) (port : Nat) (dg : Datagram) : State :=
  if !s.fabric.portsUp.contains port || s.fabric.retrain.contains (64 + port) then s.dropDatagram port 5 dg.src
  else if !s.portPasses port dg.otag dg.key then s.dropDatagram port 1 dg.src
  else if dg.dst != s.modId then s.dropDatagram port 2 dg.src
  else match dg.body with
    | .message L ch ws srcw => s.messageIn port dg L ch ws srcw
    | .request w rq => s.poke (.exportRequest w { rq with src := dg.src, otag := dg.otag })
    | .reply tag code v epoch bytes => s.replyIn tag code v epoch bytes

/-! ### Export windows (R402, R403) -/

/-- Bytes that a request names. -/
def WinKind.bytes : WinKind → Nat
  | .read n => n
  | .write bs => bs.length
  | .atomic a _ _ _ _ _ _ _ => atomBytes a

/-- The right a request needs: bit 0 R, 1 W, 2 A. -/
def WinKind.right : WinKind → Nat
  | .read _ => 0
  | .write _ => 1
  | .atomic _ _ _ _ _ _ _ _ => 2

/-- The code of a request that a window does not let in: 1 DENIED, 2 STALE. -/
def State.windowCode (s : State) (w : Nat) (rq : WinReq) : Option Nat :=
  let e0 := tget 0 s.fabric.expw0 w
  let e1 := tget 0 s.fabric.expw1 w
  if 1024 ≤ w || !bit e1 63 || bits e1 59 48 != rq.otag then some 1
  else if bits e1 47 32 != rq.gen then some 2
  else if (bits e0 15 0 + 1) * 65536 < rq.off + (Machine.WinKind.bytes rq.kind) || !bit e1 (Machine.WinKind.right rq.kind) then some 1
  else none

/-- A reply of a window leaves with the tag of its exporting slot; it is neither charged nor held (R404). -/
def State.windowReply (s : State) (w : Nat) (rq : WinReq) (code : Nat) (bytes : List Byte) : State :=
  s.sendDatagram (bits (tget 0 s.fabric.expw1 w) 27 24) rq.src 0 0 (.reply rq.tag code 0 0 bytes)

/-- A request at an export window: admitted and carried out at the window's base, or answered DENIED or STALE. An atomic on a datum
that no core can own, none of the module being present, is answered DENIED (log 91). -/
def State.exportDo (s : State) (w : Nat) (rq : WinReq) : State :=
  match s.windowCode w rq with
  | some c => s.windowReply w rq c []
  | none =>
    let k := devKey (bits (tget 0 s.fabric.expw0 w) 51 16 * 65536 + rq.off)
    match rq.kind with
    | .read n => s.windowReply w rq 0 (cellsAt s.mem k n)
    | .write bs => (s.writeBytes k bs).windowReply w rq 0 []
    | .atomic a tenant vrid serial ack epoch copyn age =>
      match s.ownerOf k with
      | none => s.windowReply w rq 1 []
      | some L =>
        let (id, s) := s.newId
        let non := !(a.nr && (a.op = 1 || a.op = 2 || (4 ≤ a.op && a.op ≤ 7) || a.op = 11 || a.op = 12))
        let c : ReqCopy := { rid := 0, copyn := copyn, sent := s.gtime, age := age, core := L, ack := ack, epoch := epoch, queued := false
                             tenant := tenant, vrid := vrid, serial := serial, nonIdem := non, op := a, key := k
                             remote := some (rq.src, rq.tag), abort := false }
        let s := { s with fabric := { s.fabric with admits := s.fabric.admits ++ [(w, id, rq.gen)] } }
        ({ s with flight := { s.flight with rcopies := tput s.flight.rcopies id c } }).poke (.ownerRequestArrival id)

/-- REVOKE is written 1. -/
def State.revokeNow (s : State) (w : Nat) : State := if w < 1024 then s.revokeWindow w else s

/-- The requests that a revoked window had admitted under its earlier generations have replied. -/
def State.revokeDone (s : State) (w : Nat) : State :=
  let f := s.fabric
  let e := tget 0 f.expw1 w
  if !bit e 31 || f.admits.any (fun p => p.1 = w && p.2.2 != bits e 47 32) then s
  else { s with fabric := { f with expw1 := tput f.expw1 w (setBits e 31 1 0) } }

/-! ### Checkpoint units (R407, R482) -/

/-- A unit is acknowledged; after the last one the checkpoint is done. A refusal ends it, and is logged (R475, R482). -/
def State.ckAck (s : State) (unit code : Nat) : State :=
  let f := s.fabric
  if f.ckstate != 1 || !f.ckunits.any (fun u => u.1 = unit) then s
  else if code != 0 then
    (s.elog 18 0 0xFFF (word (unit * 65536)) (word (bits f.ckrun 58 48 + unit * 65536 / 2 ^ 32))).ckEnd 3
  else
    let s := { s with fabric := { f with ckdone := f.ckdone + 1, ckunits := f.ckunits.filter (fun u => u.1 != unit) } }
    if s.capacity ≤ s.fabric.ckdone * 65536 then s.ckEnd 2 else s.ckFill

/-- A unit that has not been acknowledged for 8 µs, or whose port carries nothing, is sent again; after eight resends the checkpoint
fails. -/
def State.ckResend (s : State) (unit : Nat) : State :=
  let f := s.fabric
  match f.ckunits.find? (fun u => u.1 = unit) with
  | none => s
  | some (_, port, n, at0) =>
    let ports := s.ckPorts
    let up := ports.contains port
    if f.ckstate != 1 || (up && s.gtime < at0 + 8000) then s
    else if 8 ≤ n then (if at0 + 8000 ≤ s.gtime then (s.elog 20 0 0xFFF (word (unit * 65536)) (word port)).ckEnd 3 else s)
    else match if up then some port else ports.head? with
      | none => s.after 1000 (.checkpointResend unit)
      | some q =>
        ({ s with fabric := { f with ckunits := f.ckunits.map (fun (u : Nat × Nat × Nat × Nat) =>
          if u.1 = unit then (unit, q, n + 1, s.gtime) else u) } }).ckSend unit q

/-! ### The router count grid (R420, R421) -/

/-- The bytes of entry `i` of the grid, sorus by sorus, link by link, virtual channel by virtual channel: the flits
counted and the stalled ticks of the period (log 8). -/
def gridEntry (grid : Tab Nat) (period i : Nat) : List Byte :=
  leBytes (tget 0 grid i % 2 ^ 32 + 2 ^ 32 * (Config.stallCount (i / 20) (i % 20 / 4) (i % 4) period (tget 0 grid i) % 2 ^ 32)) 8

/-- A period of the grid ends: the counts start again, and its slot is stored, SEQ last. -/
def State.gridPeriod (s : State) : State :=
  let f := s.fabric
  let s := { s with fabric := { f with grid := [] } }
  let slots := bits f.rgcfg 11 4
  if slots = 0 || s.gtime = 0 then s
  else
    let n := s.gtime / 10000 - 1
    let a := devKey (bits f.rgcfg 51 12 * 4096 + 0x8000 * ((n + 1) % slots))
    let s := (s.writeNat (a + 8) 8 s.gtime).writeNat (a + 16) 48 0
    let s := s.writeBytes (a + 64) ((List.range 3200).flatMap (gridEntry f.grid n))
    let s := s.writeNat a 8 (n + 1)
    { s with fabric := { s.fabric with rgseq := n + 1 } }

end Sys2Proof.Machine
end

