-- ==== Sys2Proof/Machine/EvDebug.lean ====
section
/-! DEFINITION. Happenings of the debug modules and of the router count grid (R411 to R414, R421). -/

namespace Sys2Proof.Machine

/-- DEBUG_HALT (R411). -/
def execDebugHalt (s : State) : Out :=
  match s.now with
  | some (.debugHalt n) => .next (s.taken.haltSorus n)
  | _ => .next s

/-- DEBUG_RESUME (R412). -/
def execDebugResume (s : State) : Out :=
  match s.now with
  | some (.debugResume n) => .next (s.taken.resumeSorus n)
  | _ => .next s

/-- DEBUG_STEP (R413). -/
def execDebugStep (s : State) : Out :=
  match s.now with
  | some (.debugStep n) => .next (s.taken.stepSorus n (s.sx n).dbgsel)
  | _ => .next s

/-- DBGRDAT_WRITE (R414). -/
def execDbgrdatWrite (s : State) : Out :=
  match s.now with
  | some (.dbgrdatWrite h sel v) => .next (s.taken.writeDbgrdat h sel v)
  | _ => .next s

/-- ROUTER_GRID_PERIOD (R421). -/
def execRouterGridPeriod (s : State) : Out :=
  match s.now with
  | some (.routerGridPeriod) => .next (s.taken.gridPeriod)
  | _ => .next s

end Sys2Proof.Machine
end

