-- ==== Sys2Proof/Machine/PowerOps.lean ====
section
/-! DEFINITION. Boost levels and permits (R60 to R67), the controller's step (R71), ballast (R74), release by exit groups
(R75). -/

namespace Sys2Proof.Machine

/-! ### Requests and permits (R62 to R66) -/

/-- The tenant slot that owns a sorus, if any. -/
def State.ownerSlot (s : State) (n : Nat) : Option Nat :=
  let x := s.sorus n
  if x.pvalid then some (s.slotOf x.part) else none

/-- The contexts of a sorus that hold firings. -/
def State.firingsOf (s : State) (n : Nat) : List Nat := (s.ctxs.filter (fun p => p.1 / 64 = n && p.2.firing.isSome)).map (·.1)

/-- The request of a sorus: the largest REQ, capped by LCAP, and the largest BPRI among those that ask for it (R63). -/
def State.sampleSorus (s : State) (n : Nat) : State :=
  let as := (s.firingsOf n).map s.aux
  let r := as.foldl (fun m (a : CtxAux) => max m a.req) 0
  let p := as.foldl (fun m (a : CtxAux) => if a.req = r then max m a.bpri else m) 0
  let lcap := ((s.ownerSlot n).map (fun t => (s.slot t).lcap)).getD 0
  let x := s.sorus n
  if x.rreq = min r lcap && x.rpri = p then s else s.setSorus n { x with rreq := min r lcap, rpri := p }

/-- Writes of PPOOL that waited take effect (R64). -/
def State.takePool (s : State) (t : Nat) : State :=
  let q := s.slot t
  if q.ppend.isEmpty then s else s.setSlot t { q.ppend.foldl Slot.setPool q with ppend := [] }

/-- The sample of requests for the next interval (R63). -/
def State.sampleAll (s : State) : State := (List.range 160).foldl State.sampleSorus s

/-- Increment of a level in units of 0.1 W (R65). -/
def levelInc (l : Nat) : Nat := if l = 0 then 0 else if l = 1 then 72 else 160

/-- Step 1 of a boundary for one tenant. -/
def State.refill (s : State) (t : Nat) : State :=
  if (List.range 160).any (fun n => 0 < (s.sorus n).level && (s.sorus n).payer = some t) then s
  else
    let q := s.slot t
    if 0 < q.debt then s.setSlot t { q with debt := q.debt - 1 }
    else if q.count < q.cap then s.setSlot t { q with count := q.count + 1 } else s

/-- The largest level not above `g` that fits a room. -/
def fitLevel (room : Int) : Nat → Nat
  | 0 => 0
  | g + 1 => if room < (levelInc (g + 1) : Nat) then fitLevel room g else g + 1

/-- The setpoint of a level in millivolts (R47). -/
def levelMv (l : Nat) : Nat := if l = 0 then 700 else if l = 1 then 750 else 800

/-- A sorus takes its new level: its slew begins when its cores' copy of `GTIME` reads the boundary (R60). -/
def State.setLevel (s : State) (n new : Nat) (grace : Bool) (payer : Option Nat) : State :=
  let x := s.sorus n
  let y := { x with level := new, grace := grace, newTenant := false, payer := payer }
  let s := if y = x then s else s.setSorus n y
  if new = x.level then s
  else (s.setSx n { s.sx n with slewAt := some (s.gtime, levelMv new), syncAt := some s.gtime }).startSlew n

/-- Step 2 of a boundary for one sorus, with the room left. -/
def State.permitSorus (s : State) (room : Int) (n : Nat) : State × Int :=
  let x := s.sorus n
  let t := s.ownerSlot n
  let q := s.slot (t.getD 16)
  let want := if t.isSome then min x.rreq q.lcap else 0
  let prev := if x.newTenant then 0 else x.level
  let g := if 0 < want && q.debt = 0 then fitLevel room (min want q.count) else 0
  let fall : Bool := g < min want (prev - 1)
  let new := if fall then min want (prev - 1) else g
  let s := match t with
    | some t => if g = 0 && !fall then s
      else s.setSlot t { q with count := q.count - g, debt := if fall then q.debt + (new - g) else q.debt }
    | none => s
  (s.setLevel n new fall t, room - (levelInc new : Nat))

/-- The sori in the order of step 2: by request priority, then by number. -/
def State.permitOrder (s : State) : List Nat :=
  [7, 6, 5, 4, 3, 2, 1, 0].flatMap (fun p => (List.range 160).filter (fun n => (s.sorus n).rpri = p))

/-- A permit interval boundary (R66), at which the writes of PPOOL that waited take effect first (R64). -/
def State.permitAll (s : State) : State :=
  let s := (List.range 16).foldl State.takePool s
  let s := (List.range 16).foldl State.refill s
  (s.permitOrder.foldl (fun (a : State × Int) n => a.1.permitSorus a.2 n) (s, ((bits s.hub.mpwrcfg 54 42 : Nat) : Int))).1

/-- A regulator slew ends: the clock goes on from the new setpoint (R47). -/
def State.slewEnd (s : State) (n : Nat) : State :=
  let p := clkPoint (s.sx n).clk s.gtime
  s.clkChange n p.goal s.hub.raw

/-! ### The controller (R70, R71, R74) -/

/-- A signed sum held between 0 and a bound. -/
def satAdd (a : Nat) (d : Int) (hi : Nat) : Nat := min hi ((a : Int) + d).toNat

/-- The integrator and the duty of a step. -/
def powerStep (cfg : Word) (budget pest integ : Nat) : Nat × Nat :=
  let e : Int := (budget : Int) - (pest : Int)
  let integ := satAdd integ ((bits cfg 27 20 : Nat) * e) 1048576
  let d : Int := ((bits cfg 19 12 : Nat) * e + (integ : Int)) / 4096
  (integ, min 256 (max 16 d.toNat))

/-- What a controller's step takes from the period before it: PEST, the mean power of its tenths, and at a boundary the charge for the
ballast of the interval that ends, its energy divided by 10 µs (R70). -/
def SorusSt.measured (x : SorusSt) (now : Nat) : SorusSt :=
  { x with
    pest := x.drawSum / 10
    drawSum := 0
    ballastSum := if now % 10000 = 0 then 0 else x.ballastSum
    ballastCharge := if now % 10000 = 0 then x.ballastSum / 100 else x.ballastCharge }

/-- The controller of one sorus steps (R71), then serves its queue (R73). A rise of the duty takes effect at once; a cut begins. -/
def State.controlSorus (s : State) (n : Nat) : State :=
  let y := (s.sorus n).measured s.gtime
  let s := s.setSorus n y
  let (integ, target) := powerStep y.pwrcfg (s.budget n) y.pest y.integ
  let s := s.setSorus n { y with integ := integ, target := target, duty := max y.duty target, rsum := 0 }
  s.serveAdmissions n y.admq.length

/-- All controllers step. -/
def State.controlAll (s : State) : State := (List.range 160).foldl State.controlSorus s

/-! ### Exit groups (R75) -/

/-- The first word of a work message is the work identifier, the second the address of the launch header (R100). The dispatcher
sends it to channel 0 of the core whose context is reserved. -/
def State.sendWork (s : State) (h : Nat) (r : Resv) : State :=
  let src := word (s.modId * 2 ^ 48 + s.tenantOf (s.slotOf r.part) * 2 ^ 16 + 0xFFF)
  s.postMessage { sender := 20480, core := h / 4, ch := 0, words := [r.wid, r.addr], srcw := src, left := false }

/-- The work words of one exit group of a gang leave. -/
def State.gangRelease (s : State) (p slot grp : Nat) : State :=
  match tget? (s.part p).launches slot with
  | none => s
  | some l =>
    (l.gangOut.filter (fun m => m.1 = grp)).foldl (fun s m => match (s.ctx m.2).resv with
      | some r => if r.part = p && r.slot = slot then s.sendWork m.2 r else s
      | none => s) s

end Sys2Proof.Machine
end

