-- ==== Sys2Proof/Machine/DispatchOps.lean ====
section
/-! DEFINITION. The dispatcher (R95 to R107, R117, R264, R486, R488): headers, the launch area, placement of groups, completion,
the end of a launch from outside. -/

namespace Sys2Proof.Machine

/-! ### The launch area (R105, R106, R488) -/

/-- Read doublewords through a partition's translation, or none where any of them faults. -/
def State.partRead (s : State) (p : Nat) (va : Word) (n : Nat) : Option (List Word) :=
  (List.range n).mapM (fun i => (s.partPlace p false (va + word (8 * i))).map (fun pl => word (s.readNat pl.key 8)))

/-- The hub queue is refilled from the head of the overflow ring, in order, as the ring holds the header (R106). Where the translation
does not allow the read it is logged as a fault of the ring, and the hub goes on with the header as it accepted it (R488; log 64). -/
def State.refillQueue (s : State) (p : Nat) : State :=
  let q := s.part p
  match q.ov with
  | [] => s
  | h :: hs =>
    if 64 ≤ q.hubq.length then s
    else
      let n := max 1 (bits q.lqcfg 15 0)
      let va := q.area + 0x1000 + word (64 * (q.ovHead % n))
      let (ws, s) := match s.partRead p va 8 with
        | some ws => (ws, s)
        | none => (h.words, s.elog 21 h.slot 0xFFF va 0)
      let s := s.setPart p { q with hubq := q.hubq ++ [{ h with words := ws }], ov := hs, ovHead := (q.ovHead + 1) % n }
      (s.poke (.residentSlotCopy p)).poke (.hubQueueRefill p)

/-- A free resident slot of a partition. -/
def Part.freeSlot (q : Part) : Option Nat := (List.range 64).find? (fun i => !thas q.launches i)

/-- The head header of the hub queue goes to a free resident slot (R105). A launch whose copy faults, or whose header is
malformed, dispatches nothing (R95, R488). -/
def State.slotCopy (s : State) (p : Nat) : State :=
  let q := s.part p
  match q.hubq, q.freeSlot with
  | h :: hs, some i =>
    let va := q.area + word (64 * i)
    let (s, force) := match s.partWrite p va h.words with
      | some t => (t, if malformed h.words h.core.isNone then some 4 else none)
      | none => (s.elog 21 h.slot 0xFFF va 1, some 5)
    let l : Launch := { hdr := h, force := force, seq := h.seq }
    let s := s.setPart p { s.part p with hubq := hs, launches := tput (s.part p).launches i l }
    let s := if force.isSome then s.poke (.launchCompletion p i) else s.poke (.groupDispatch p)
    let s := s.poke (.hubQueueRefill p)
    if hs.isEmpty then s else s.poke (.residentSlotCopy p)
  | _, _ => s

/-! ### Placement (R93, R98, R100) -/

/-- What a trial of placements supposes: an empty partition; contexts and banks taken by groups placed before; contexts
counted as free with what their firings hold; a core counted as in service. -/
structure Trial where
  empty : Bool := false
  taken : List Nat := []
  banks : List (Nat × Nat) := []
  freed : List Nat := []
  served : Option Nat := none

/-- Whether a context is on the free list. -/
def Ctx.isFree (c : Ctx) : Bool := c.st = .free && c.firing.isNone && c.resv.isNone

/-- The banks that reservations of a core hold. -/
def State.resvBanks (s : State) (L : Nat) : Nat :=
  (List.range 4).foldl (fun m c => match (s.ctx (4 * L + c)).resv with | some r => m ||| r.banks | none => m) 0

/-- Whether a bank is available to a claim for an actor: free, or retained for it (R93). -/
def State.bankAvail (s : State) (L b actor : Nat) : Bool :=
  let k := s.bank L b
  k.own.isNone && !(s.resvBanks L).testBit b && (match k.retain with | some (a, _) => a = actor | none => true)

/-- Whether a bank is available in a trial: a firing that gives way gives its banks too. -/
def State.bankOpen (s : State) (t : Trial) (L b actor : Nat) : Bool :=
  t.empty || s.bankAvail L b actor ||
  t.freed.any (fun h => h / 4 = L && (s.ctx h).firing.any (fun f => (s.bank L b).own = some f.fid))

/-- The contexts of a core that a launch may take in a trial, lowest first (R78). -/
def State.openCtxs (s : State) (t : Trial) (L : Nat) (rtc : Bool) : List Nat :=
  ((List.range (if rtc then 4 else 3)).map (fun c => 4 * L + c)).filter (fun h =>
    !t.taken.contains h && (t.empty || t.freed.contains h || (s.ctx h).isFree))

/-- Whether a core can take `need` firings of a launch. -/
def State.coreTakes (s : State) (t : Trial) (L need : Nat) (ws : List Word) : Bool :=
  let m := hdrBanks ws
  s.present L && (t.empty || (s.core L).test = .none || t.served = some L) &&
  need ≤ (s.openCtxs t L (hdrFlag ws 0)).length &&
  (m = 0 || (need ≤ 1 && !t.banks.any (fun q => q.1 = L && q.2 &&& m != 0) &&
    (List.range 10).all (fun b => !m.testBit b || s.bankOpen t L b (hdrActor ws))))

/-- The firings of a group of size `n` that core place `c` holds. -/
def placeNeed (n c : Nat) : Nat := (n - c + 15) / 16

/-- The context of each member of a group placed in sorus `m`. -/
def State.memberCtxs (s : State) (t : Trial) (m n : Nat) (ws : List Word) : List Nat :=
  (List.range n).map (fun j => (s.openCtxs t (16 * m + j % 16) (hdrFlag ws 0)).getD (j / 16) 0)

/-- The sori of a partition that take new groups. -/
def State.openSori (s : State) (p : Nat) : List Nat :=
  (List.range 160).filter (fun n => (s.sorus n).pvalid && (s.sorus n).part = p && !(s.sorus n).leaving)

/-- A trial after a group has been placed. -/
def Trial.use (t : Trial) (hs : List Nat) (ws : List Word) : Trial :=
  { t with taken := t.taken ++ hs, banks := t.banks ++ hs.map (fun h => (h / 4, hdrBanks ws)) }

/-- The place of a group, its sorus and the contexts of its members: the first that leaves a trial which is allowed (R98, R100, R102). -/
def State.findPlace (s : State) (ok : Trial → Trial → Bool) (t : Trial) (p : Nat) (ws : List Word) : Option (Nat × List Nat) :=
  let n := hdrSize ws
  if n = 1 then
    ((s.openSori p).flatMap (fun m => (List.range 16).map (fun c => 16 * m + c))).findSome? (fun L =>
      if s.coreTakes t L 1 ws then
        ((s.openCtxs t L (hdrFlag ws 0)).find? (fun h => ok t (t.use [h] ws))).map (fun h => (L / 16, [h]))
      else none)
  else
    ((s.openSori p).find? (fun m => !s.withdrawn m &&
      (List.range (min n 16)).all (fun c => s.coreTakes t (16 * m + c) (placeNeed n c) ws) &&
      ok t (t.use (s.memberCtxs t m n ws) ws))).map
      (fun m => (m, s.memberCtxs t m n ws))

/-- The places of `n` more groups of a launch, each on what the groups before leave, or none. -/
def State.placeMany (s : State) (ok : Trial → Trial → Bool) (p : Nat) (ws : List Word) :
    Nat → Trial → Option (List (Nat × List Nat) × Trial)
  | 0, t => some ([], t)
  | n + 1, t =>
    match s.findPlace ok t p ws with
    | none => none
    | some (m, hs) =>
      match s.placeMany ok p ws n (t.use hs ws) with
      | none => none
      | some (l, t) => some ((m, hs) :: l, t)

/-! ### The dispatcher's choice (R99, R102) -/

/-- The groups of a launch not yet dispatched. -/
def Launch.left (l : Launch) : Nat := hdrGroups l.hdr.words - l.next

/-- Whether a launch has groups to dispatch. -/
def Launch.pending (l : Launch) : Bool := l.force.isNone && 0 < l.left

/-- Whether one launch goes before another: by PRIO, then by arrival. -/
def Launch.beats (a b : Launch) : Bool :=
  hdrPrio b.hdr.words < hdrPrio a.hdr.words || (hdrPrio a.hdr.words = hdrPrio b.hdr.words && a.seq < b.seq)

/-- The launch that a dispatcher works on. -/
def State.headLaunch (s : State) (p : Nat) : Option (Nat × Launch) :=
  ((s.part p).launches.filter (fun q => q.2.pending)).foldl (fun best q =>
    match best with
    | none => some q
    | some b => if q.2.beats b.2 then some q else best) none

/-- Whether a COR launch fits its partition, were it empty (R102). -/
def State.fits (s : State) (p : Nat) (ws : List Word) : Bool := (s.placeMany (fun _ _ => true) p ws (hdrGroups ws) { empty := true }).isSome

/-- How many of `n` groups of a launch can be placed one after the other, and the trial they leave. -/
def State.placeCount (s : State) (p : Nat) (ws : List Word) : Nat → Trial → Nat × Trial
  | 0, t => (0, t)
  | n + 1, t =>
    match s.findPlace (fun _ _ => true) t p ws with
    | none => (0, t)
    | some (_, hs) =>
      let r := s.placeCount p ws n (t.use hs ws)
      (r.1 + 1, r.2)

/-- The groups for which a COR launch keeps capacity until it completes (R102): those not resident, dispatched or not. -/
def Launch.kept (l : Launch) : Nat := hdrGroups l.hdr.words - l.groups.length

/-- The COR launches of a partition that hold their capacity, but for one slot. -/
def State.corLaunches (s : State) (p slot : Nat) : List Launch :=
  ((s.part p).launches.filter (fun q => q.1 != slot && q.2.admitted)).map (·.2)

/-- The contexts that ended members of their resident groups have left. -/
def State.corHeld (s : State) (p slot : Nat) : List Nat :=
  (s.corLaunches p slot).flatMap (fun l => l.groups.flatMap (fun g =>
    (((List.range g.hs.length).zip g.hs).filter (fun q => g.ended.contains q.1)).map (·.2)))

/-- Whether a context still holds what it held as a COR launch was admitted: a firing, or the reservation of one. -/
def State.heldStill (s : State) (q : Nat × Nat × Word) : Bool :=
  let c := s.ctx q.1
  match c.firing with
  | some f => if q.2.1 = 0 then f.wid = q.2.2 else f.fid = q.2.1
  | none => q.2.1 = 0 && c.resv.any (fun r => r.wid = q.2.2)

/-- What the contexts of a partition hold as a COR launch is admitted. -/
def State.heldNow (s : State) (p : Nat) : List (Nat × Nat × Word) :=
  s.ctxs.filterMap (fun q => match q.2.firing, q.2.resv with
    | some f, _ => if f.part = p then some (q.1, f.fid, f.wid) else none
    | none, some r => if r.part = p then some (q.1, 0, r.wid) else none
    | none, none => none)

/-- How many of the groups for which those launches keep capacity have room in a trial, now or once what was there before they were
admitted has left: what frees a context then belongs to the capacity (R102). -/
def State.corRoom (s : State) (p slot : Nat) (t : Trial) : Nat :=
  ((s.corLaunches p slot).foldl (fun (a : Nat × Trial) l =>
    let r := s.placeCount p l.hdr.words l.kept { a.2 with freed := a.2.freed ++ (l.before.filter s.heldStill).map (·.1) }
    (a.1 + r.1, r.2)) (0, t)).1

/-- Whether the capacity that the other COR launches keep is still there once contexts have been taken, from one trial to another (R102). -/
def State.capacityKept (s : State) (p slot : Nat) (t u : Trial) : Bool :=
  (s.corLaunches p slot).isEmpty || s.corRoom p slot t ≤ s.corRoom p slot u

/-- Whether a core may give a context to a firing of another launch `slot`, or of none where that is 64, with some banks (R102). -/
def State.corLets (s : State) (slot h mask : Nat) : Bool :=
  match s.partOf (h / 4) with
  | none => true
  | some p => !(s.corHeld p slot).contains h && s.capacityKept p slot {} { taken := [h], banks := [(h / 4, mask)] }

/-- How many groups the next dispatch step places: all of a gang (R103). -/
def Launch.step (l : Launch) : Nat := if hdrFlag l.hdr.words 1 then l.left else 1

/-- The contexts that were freed for a launch count as free for it. -/
def Launch.trial (l : Launch) : Trial := { freed := l.keep }

/-- The places of the next dispatch step of a launch, or none: where a place would take what a COR launch keeps, the next one (R100, R102). -/
def State.nextPlaces (s : State) (p slot : Nat) (l : Launch) (t0 : Trial) : Option (List (Nat × List Nat)) :=
  let t0 := { t0 with taken := t0.taken ++ s.corHeld p slot }
  (s.placeMany (s.capacityKept p slot) p l.hdr.words l.step t0).map (·.1)

/-! ### A dispatch step -/

/-- Context `h` is reserved for a firing. -/
def State.reserveCtx (s : State) (h : Nat) (r : Resv) : State := 
  s.setCtx h { st := .reserved, resv := some r, floor := (s.ctx h).floor }

/-- One group's contexts are reserved, and the launch's detection timer starts again (R438). -/
def State.reserveGroup (s : State) (p slot : Nat) (m : Nat) (hs : List Nat) : State :=
  match tget? (s.part p).launches slot with
  | none => s
  | some l =>
    let ws := l.hdr.words
    let gid := hdrGid ws l.next
    let addr := (s.part p).area + word (64 * slot)
    let s := s.setLaunch (64 * p + slot) { l with
      next := l.next + 1, groups := l.groups ++ [(Group.mk gid m hs [] [] [])], dlDue := none, dlLeft := none }
    let s := ((List.range hs.length).zip hs).foldl (fun s q => s.reserveCtx q.2
      { part := p, slot := slot, addr := addr, wid := hdrWid ws gid q.1, gid := gid, idx := q.1, banks := hdrBanks ws }) s
    s.dlStart (64 * p + slot)

/-- Contexts kept for a launch that it did not take are free again. -/
def State.dropKeep (s : State) (p slot : Nat) : State :=
  match tget? (s.part p).launches slot with
  | none => s
  | some l =>
    let s := s.setLaunch (64 * p + slot) { l with keep := [], relief := false }
    l.keep.foldl (fun s h => if (s.ctx h).st = .reserved && (s.ctx h).resv.isNone then
        (s.setCtx h { floor := (s.ctx h).floor }).poke (.selection (h / 4)) else s) s

/-- The work words of contexts leave, or with a gang those of each exit group at its time (R100, R103, R75). -/
def State.sendGroups (s : State) (p slot : Nat) (gang : Bool) (places : List (Nat × List Nat)) : State :=
  match tget? (s.part p).launches slot with
  | none => s
  | some l =>
    let s := s.setLaunch (64 * p + slot) { l with tstart := some (l.tstart.getD s.gtime) }
    if !gang then
      (places.flatMap (·.2)).foldl (fun s h => match (s.ctx h).resv with | some r => s.sendWork h r | none => s) s
    else
      let sori := places.map (·.1)
      let out := places.flatMap (fun q => q.2.map (fun h => (s.exitGroup sori q.1, h)))
      let l := (tget? (s.part p).launches slot).getD l
      let s := s.setLaunch (64 * p + slot) { l with gangOut := out }
      let grps := (out.map (·.1)).foldl insertNew []
      let s := (grps.filter (fun g => g != 0)).foldl (fun s g =>
        s.after (g * bits s.hub.mpwrcfg 41 32) (.exitGroupRelease p slot g true)) s
      s.gangRelease p slot 0

/-! ### Saved firings that come back (R99, R111, R436) -/

/-- The core of a waiter of higher priority on a ticket that a saved firing holds (R436). -/
def State.waiterCore (s : State) (v : Saved) : Option Nat :=
  (s.ctxs.find? (fun q => match q.2.wait, q.2.firing with
    | .ticket d _, some f =>
      q.2.st = .waiting && f.part = v.firing.part && v.firing.prio < f.prio && s.ticketHolder (q.1 / 64) d = some v.firing.fid
    | _, _ => false)).map (fun q => q.1 / 4)

/-- Whether a core has the banks and row groups of a saved firing available. -/
def State.resumeRoom (s : State) (L : Nat) (v : Saved) : Bool :=
  let actor := hdrActor (s.hdrOf v.firing)
  (List.range 10).all (fun b => !v.firing.banks.testBit b || s.bankAvail L b actor) &&
  v.groups.all (fun g => !thas (s.core L).rowOwn g)

/-- Whether a core has the live banks of a saved firing available (R111). -/
def State.liveRoom (s : State) (L : Nat) (v : Saved) : Bool :=
  let actor := hdrActor (s.hdrOf v.firing)
  (List.range 10).all (fun b => !v.banks.testBit b || s.bankAvail L b actor)

/-- The core to which a saved firing returns: the one it left when its group is larger than 1; a single one goes to the core of a waiter
on its ticket, else to the lowest that has a free context and its live banks (R111, R436). -/
def State.returnCore (s : State) (v : Saved) : Option Nat :=
  if 1 < hdrSize (s.hdrOf v.firing) then some v.core
  else match s.waiterCore v with
    | some L => some L
    | none =>
      ((s.openSori v.firing.part).flatMap (fun m => (List.range 16).map (fun c => 16 * m + c))).find? (fun L =>
        s.present L && (s.core L).test = .none && !(s.openCtxs {} L false).isEmpty && s.liveRoom L v)

/-- A saved firing is returned to the resume queue of core `L`. -/
def State.returnTo (s : State) (v : Saved) (L : Nat) : State :=
  let k := s.core L
  ((s.setSaved v.firing.part { v with placed := true, core := L }).setCore L { k with resume := k.resume ++ [v.id] }).poke (.selection L)

/-- A saved firing is returned to a core's resume queue, where it can be. -/
def State.returnSaved (s : State) (v : Saved) : State :=
  match s.returnCore v with
  | none => s
  | some L => s.returnTo v L

/-- The saved firings of a partition that the dispatcher has not returned. -/
def State.unreturned (s : State) (p : Nat) : List Saved := (s.part p).saved.filter (fun v => !v.placed)

/-- Whether a saved firing comes back before new groups of a launch (R99). -/
def Saved.first (v : Saved) (p slot : Nat) (l : Launch) : Bool :=
  v.firing.key = some (64 * p + slot) || hdrPrio l.hdr.words ≤ v.firing.rank

/-! ### Giving way (R104, R439) -/

/-- Whether the firing of a context may be pre-empted now. -/
def State.canYield (s : State) (h : Nat) : Bool :=
  let c := s.ctx h
  (c.st = .running || c.st = .waiting || c.st = .draining) && c.firing.any (fun f => !s.unpreemptible f)

/-- The contexts of a group that hold firings of it. -/
def State.groupCtxs (s : State) (k : Nat) (gid : Word) : List Nat :=
  (s.ctxs.filter (fun q => q.2.firing.any (fun f => f.key = some k && f.gid = gid) ||
    q.2.resv.any (fun r => 64 * r.part + r.slot = k && r.gid = gid))).map (·.1)

/-- Whether a whole group may be pre-empted: every firing of it that a context holds. -/
def State.groupYields (s : State) (k : Nat) (g : Group) : Bool :=
  let hs := s.groupCtxs k g.gid
  !hs.isEmpty && hs.all s.canYield

/-- Whether the dispatcher has already asked a context to give way, or it is being saved. -/
def State.yielding (s : State) (h : Nat) : Bool := (s.aux h).preqs.contains .dispatcher || (s.ctx h).st = .saving

/-- The contexts of a partition that give way already. -/
def State.yieldingIn (s : State) (p : Nat) : List Nat :=
  (s.ctxs.filter (fun q => q.2.firing.any (fun f => f.part = p) && s.yielding q.1)).map (·.1)

/-- The fewest groups of a list, from its head, whose contexts let a step be placed; none where all of them do not. -/
def State.enough (s : State) (ok : List Nat → Bool) : List (List Nat) → List Nat → Option (List Nat)
  | [], _ => none
  | g :: gs, acc => if ok (acc ++ g) then some (acc ++ g) else s.enough ok gs (acc ++ g)

/-- The dispatcher asks enough of the groups to give way; where all of them are not enough, none, or with `all` every one. -/
def State.askYield (s : State) (p slot : Nat) (l : Launch) (groups : List (List Nat)) (all : Bool) : State :=
  let base := s.yieldingIn p
  let ok (hs : List Nat) : Bool := (s.nextPlaces p slot l { freed := l.keep ++ base ++ hs }).isSome
  if ok [] then s
  else match s.enough ok groups [] with
    | none => if all then groups.flatten.foldl (fun s h => s.poke (.preemptionRequest h .dispatcher)) s else s
    | some hs => hs.foldl (fun s h => s.poke (.preemptionRequest h .dispatcher)) s

/-- The priority of a group in the choices of R104: a holder counts as its waiter (R436). -/
def State.groupPrio (s : State) (k : Nat) (g : Group) (own : Nat) : Nat :=
  (s.groupCtxs k g.gid).foldl (fun m h => match (s.ctx h).firing with
    | some f => max m f.rank
    | none => m) own

/-- A group that may be asked to give way: its priority, its identifier, its launch's arrival, its contexts. -/
structure Yielder where
  prio : Nat
  gid : Nat
  seq : Nat
  hs : List Nat

/-- The order of R104: lowest priority, then highest group identifier, then latest launch. -/
def Yielder.before (a b : Yielder) : Bool :=
  a.prio < b.prio || (a.prio = b.prio && (b.gid < a.gid || (a.gid = b.gid && b.seq < a.seq)))

/-- A group put in its place in that order. -/
def insertYielder (a : Yielder) : List Yielder → List Yielder
  | [] => [a]
  | b :: bs => if a.before b then a :: b :: bs else b :: insertYielder a bs

/-- The groups of lower priority that may be pre-empted, in the order of R104. -/
def State.lowerGroups (s : State) (p slot prio : Nat) : List (List Nat) :=
  let cands := (s.part p).launches.flatMap (fun q =>
    let ws := q.2.hdr.words
    if q.1 = slot || q.2.force.isSome || hdrFlag ws 0 || hdrFlag ws 2 || hdrFlag ws 3 || hdrFlag ws 4 then []
    else q.2.groups.filterMap (fun g =>
      let k := 64 * p + q.1
      let pr := s.groupPrio k g (hdrPrio ws)
      let hs := s.groupCtxs k g.gid
      if pr < prio && s.groupYields k g && !hs.any s.yielding then
        some ({ prio := pr, gid := g.gid.toNat, seq := q.2.seq, hs := hs } : Yielder) else none))
  (cands.foldl (fun l a => insertYielder a l) []).map (·.hs)

/-- The resident groups of a launch that may be pre-empted, highest group identifier first (R439). -/
def State.ownGroups (s : State) (p slot : Nat) (l : Launch) : List (List Nat) :=
  let cands := l.groups.filterMap (fun g =>
    let hs := s.groupCtxs (64 * p + slot) g.gid
    if s.groupYields (64 * p + slot) g && !hs.any s.yielding then
      some ({ prio := 0, gid := g.gid.toNat, seq := 0, hs := hs } : Yielder) else none)
  (cands.foldl (fun l a => insertYielder a l) []).map (·.hs)

/-- The auto-abort test of R264 for the head group that could not be placed (R486). -/
def State.autoAbort (s : State) (p slot : Nat) (l : Launch) : State :=
  s.flight.scans.foldl (fun s q =>
    let k := q.2
    match k.autoAb with
    | none => s
    | some ab =>
      if (k.state = 1 || k.state = 2) && s.partOf k.core = some p && ab ≤ hdrPrio l.hdr.words &&
          (s.nextPlaces p slot l { freed := l.keep, served := some k.core }).isSome then s.scanStop q.1 else s) s

/-! ### The dispatcher's turn -/

/-- The head launch's next step is placed. The saved firings of the launch are returned before its work words leave (R439): one for which
no core is open to that of which it was saved (log 87). -/
def State.dispatchStep (s : State) (p slot : Nat) (l : Launch) (places : List (Nat × List Nat)) : State :=
  let s := places.foldl (fun s q => s.reserveGroup p slot q.1 q.2) s
  let s := s.dropKeep p slot
  let s := (s.unreturned p).foldl (fun s v => if v.firing.key = some (64 * p + slot) then s.returnTo v ((s.returnCore v).getD v.core) else s) s
  (s.sendGroups p slot (hdrFlag l.hdr.words 1) places).poke (.groupDispatch p)

/-- Whether a firing of the partition is giving way, or has just been asked to. -/
def State.yieldsDue (s : State) (p : Nat) : Bool :=
  !(s.yieldingIn p).isEmpty || s.agenda.any (fun e => match e with
    | .preemptionRequest h .dispatcher => (s.ctx h).firing.any (fun f => f.part = p)
    | _ => false)

/-- The head launch's next step cannot be placed (R104, R264); saved firings of lower priority come back once no firing of the
partition is giving way, and with them a relief that did not suffice ends. -/
def State.dispatchBlocked (s : State) (p slot : Nat) (l : Launch) : State :=
  let s := s.autoAbort p slot l
  let s := if l.relief then s else s.askYield p slot l (s.lowerGroups p slot (hdrPrio l.hdr.words)) false
  if s.yieldsDue p then s else (s.unreturned p).foldl (fun s v => s.returnSaved v) (s.dropKeep p slot)

/-- The cores of a partition with something to select look at it again: the capacity that a COR launch keeps may let them (R102, R118). -/
def State.pokeCores (s : State) (p : Nat) : State :=
  s.cores.foldl (fun s q =>
    if s.partOf q.1 = some p && (!q.2.resume.isEmpty || q.2.chans.any (fun c => !c.2.fifo.isEmpty || !c.2.restore.isEmpty)) then
      s.poke (.selection q.1) else s) s

/-- The dispatcher of a partition works on its head group (R99). A partition without a sorus keeps its launches until it holds one
(R392). -/
def State.dispatch (s : State) (p : Nat) : State :=
  let s := if (s.part p).launches.any (fun q => q.2.admitted) then s.pokeCores p else s
  if !s.sori.any (fun x => x.2.pvalid && x.2.part = p) then s
  else match s.headLaunch p with
  | none => (s.unreturned p).foldl (fun s v => s.returnSaved v) s
  | some (slot, l) =>
    if hdrFlag l.hdr.words 2 && !l.admitted && !s.fits p l.hdr.words then
      ((s.setLaunch (64 * p + slot) { l with force := some 3 }).poke (.launchCompletion p slot)).poke (.groupDispatch p)
    else
      let l := if hdrFlag l.hdr.words 2 && !l.admitted then { l with admitted := true, before := s.heldNow p } else l
      let s := if hdrFlag l.hdr.words 2 then s.setLaunch (64 * p + slot) l else s
      let s := if l.relief then s else
        (s.unreturned p).foldl (fun s v => if v.first p slot l then s.returnSaved v else s) s
      if !l.relief && (s.unreturned p).any (fun v => v.first p slot l) then s.autoAbort p slot l
      else match s.nextPlaces p slot l l.trial with
        | some places => s.dispatchStep p slot l places
        | none => s.dispatchBlocked p slot l

/-! ### The end of a launch from outside (R396, R439) -/

/-- The fields of a firing of a launch that its reservation gives. -/
def State.workFiring (s : State) (h fid : Nat) (r : Resv) : Firing :=
  let ws := ((tget? (s.part r.part).launches r.slot).map (·.hdr.words)).getD []
  let slot := ((tget? (s.part r.part).launches r.slot).map (·.hdr.slot)).getD 0
  { fid := fid, chan := 0, rtc := hdrFlag ws 0, level := .u, prio := hdrPrio ws, part := r.part, slot := slot
    key := some (64 * r.part + r.slot), wid := r.wid, gid := r.gid, idx := r.idx, vrid := 0, serial := 0, trigger := []
    src := 0, banks := hdrBanks ws, spill := hdrSpill ws
    order := if hdrFlag ws 4 then some (r.wid.toNat, hdrOdom ws) else none
    owner := none, retired := 0, redel := 0, born := fid, inject := false, startAt := s.gtime, startCyc := s.cycles (h / 4) }

/-- The words of channel 0 without the work words of a reservation. -/
def dropWork (r : Resv) : List (Word × Word) → List (Word × Word)
  | a :: b :: l => if a.1 = r.wid && b.1 = r.addr then l else a :: b :: dropWork r l
  | l => l

/-- A reservation is given up: its work word is lost with it, and its firing counts as killed. -/
def State.unreserve (s : State) (h : Nat) : State :=
  match (s.ctx h).resv with
  | none => s
  | some r =>
    let L := h / 4
    let k := s.core L
    let q := tget {} k.chans 0
    let s := s.setCore L { k with chans := tput k.chans 0 { q with fifo := dropWork r q.fifo } }
    let s := { s with flight := { s.flight with msgs := s.flight.msgs.filter (fun m =>
      !(m.2.sender = 20480 && m.2.core = L && m.2.ch = 0 && m.2.words = [r.wid, r.addr])) } }
    let f := s.workFiring h 0 r
    (((s.setCtx h { floor := (s.ctx h).floor }).launchEnd L f false).dlStart (64 * r.part + r.slot)).pokeEnd L r.part f

/-- A saved firing is killed: its record and its save block go. -/
def State.killSaved (s : State) (p : Nat) (v : Saved) : State :=
  let q := s.part p
  let s := s.setPart p { q with saved := q.saved.filter (fun w => w.id != v.id), blocks := q.blocks.filter (fun b => b != v.block) }
  let k := s.core v.core
  let s := s.setCore v.core { k with resume := k.resume.filter (fun n => n != v.id) }
  let s := s.orphanCopies v.firing.fid
  let f := { v.firing with startCyc := s.cycles v.core }
  let s := s.launchEnd v.core f false
  (match f.key with | some k => s.dlStart k | none => s).pokeEnd v.core p f

/-- Every firing of a launch is killed without redelivery, the reserved and the saved ones included. -/
def State.killLaunch (s : State) (k : Nat) : State :=
  let p := k / 64
  let s := s.dropKeep p (k % 64)
  let s := (s.ctxs.map (·.1)).foldl (fun s h =>
    if (s.ctx h).firing.any (fun f => f.key = some k) then s.kill h false
    else if (s.ctx h).resv.any (fun r => 64 * r.part + r.slot = k) then s.unreserve h
    else s) s
  (s.part p).saved.foldl (fun s v => if v.firing.key = some k then s.killSaved p v else s) s

/-! ### Completion (R117, R406, R488) -/

/-- The status of a launch that has ended. -/
def Launch.status (l : Launch) : Nat :=
  match l.force with
  | some c => c
  | none => if l.faults = 0 && !l.killed && !l.gangLost && l.halted = hdrAll l.hdr.words then 0 else 1

/-- Whether every firing of a launch has ended and none is to come. -/
def Launch.isOver (l : Launch) : Bool :=
  (if l.next = 0 then l.ended = 0 else l.ended = l.next * hdrSize l.hdr.words) && (l.force.isSome || hdrGroups l.hdr.words ≤ l.next)

/-- The address of a header's completion record. -/
def hdrCompl (ws : List Word) : Word := word (bits (hdrWord ws 3) 47 6 * 64)

/-- The completion record is written, DONE last; a fault writes nothing and is logged. -/
def State.writeRecord (s : State) (p : Nat) (l : Launch) (status : Nat) : State :=
  let ws := l.hdr.words
  let tend := if l.ended = 0 then s.gtime else l.tend
  let va := hdrCompl ws
  let rec' := [word (l.faults * 2 ^ 32 + status), word l.halted, word (l.tstart.getD tend), word tend, word l.cycles,
    word (s.tenantOf l.hdr.slot), 0, 1]
  if va = 0 then s
  else match s.partWrite p va rec' with
    | some t => t
    | none => s.elog 21 l.hdr.slot 0xFFF va 3

/-- Doubleword `i` of a function's MSI-X table: every vector is masked at reset, as PCIe has it (log 4). -/
def Slot.msixWord (q : Slot) (i : Nat) : Word := tget (if i % 2 = 1 then word (2 ^ 32) else 0) q.msix i

/-- The MSI-X vector of a slot's function is raised; a masked one sets its pending bit (log 4). -/
def State.raiseMsix (s : State) (t v : Nat) : State :=
  let q := s.slot t
  if bit (q.msixWord (2 * v + 1)) 32 then s.setSlot t { q with pba := q.pba ||| word (2 ^ v) } else s.emit (.msix t v)

/-- The signal of a completed launch. -/
def State.signal (s : State) (l : Launch) (status : Nat) : State :=
  let ws := l.hdr.words
  let v := hdrSigvec ws
  if hdrSigkind ws = 1 then (if v < 64 && !l.silent then s.raiseMsix l.hdr.slot v else s)
  else if hdrSigkind ws = 2 then
    match l.hdr.core with
    | some L =>
      let src := word (s.modId * 2 ^ 48 + s.tenantOf l.hdr.slot * 2 ^ 16 + v % 16 * 2 ^ 12 + 0xFFF)
      if v % 16 < 2 then s
      else s.postMessage { sender := 20480, core := L, ch := v % 16, words := [hdrCompl ws, word (l.faults * 2 ^ 32 + status)]
                           srcw := src, left := false }
    | none => s
  else s

/-- A launch completes: its record, its signal, its slot (R117). -/
def State.complete (s : State) (p slot : Nat) : State :=
  match tget? (s.part p).launches slot with
  | none => s
  | some l =>
    if !l.isOver then s
    else
      let s := s.dropKeep p slot
      let st := l.status
      let s := (s.writeRecord p l st).signal l st
      let q := s.part p
      let s := ((s.setPart p { q with launches := tdel q.launches slot }).poke (.residentSlotCopy p)).poke (.groupDispatch p)
      if l.admitted then s.pokeCores p else s

/-! ### A sorus passes (R107, R397) -/

/-- A sorus that is marked leaving passes when it holds no group; single firings saved for its cores are returned elsewhere. -/
def State.passSorus (s : State) (n : Nat) : State :=
  let x := s.sorus n
  let p := x.part
  if !x.leaving || (x.pvalid && s.sorusHolds n) then s
  else
    let back (v : Saved) : Bool := v.placed && v.core / 16 = n
    let s := if !x.pvalid then s else
      let q := s.part p
      let ids := (q.saved.filter back).map (·.id)
      let s := s.setPart p { q with saved := q.saved.map (fun v => if back v then { v with placed := false } else v) }
      (List.range 16).foldl (fun s c =>
        let k := s.core (16 * n + c)
        if k.resume.isEmpty then s
        else s.setCore (16 * n + c) { k with resume := k.resume.filter (fun i => !ids.contains i) }) s
    let same : Bool := x.pvalid && x.nvalid && s.slotOf p = s.slotOf x.next
    let s := s.setSorus n { s.sorus n with leaving := false, nvalid := false, pvalid := x.nvalid, part := x.next, next := 0 }
    let s := if same then s else s.tenantChanged n
    (s.poke (.groupDispatch p)).poke (.groupDispatch x.next)

end Sys2Proof.Machine
end

