-- ==== Sys2Proof/Machine/SelectOps.lean ====
section
/-! DEFINITION. Selection and the start of a firing (R84 to R93, R358, R433, R436), saving and restoring (R109 to R112). -/

namespace Sys2Proof.Machine

/-! ### Candidates (R84 to R87) -/

/-- Channel `n` of a core. -/
def CoreSt.chan (k : CoreSt) (n : Nat) : Chan := tget {} k.chans n

/-- The words of a channel that the next firing takes, the restored ones ahead of the FIFO's, with the redeliveries and the time of
the first restored trigger among them (R84, R433); none where there are too few. -/
def Chan.head (q : Chan) (rate : Nat) : Option (List (Word × Word) × Nat × Option Nat) :=
  let ws := q.restore.flatMap (·.words) ++ q.fifo
  if rate ≤ ws.length then some (ws.take rate, (q.restore.head?.map (·.redel)).getD 0, q.restore.head?.map (·.born)) else none

/-- Restored triggers without their first `n` words, and the words still to take. -/
def dropRestored : Nat → List Restored → List Restored × Nat
  | n, [] => ([], n)
  | n, r :: rs =>
    if n < r.words.length then ({ r with words := r.words.drop n } :: rs, 0) else dropRestored (n - r.words.length) rs

/-- A channel after its next trigger has been taken. -/
def Chan.take (q : Chan) (rate : Nat) : Chan :=
  let (rs, n) := dropRestored rate q.restore
  { q with restore := rs, fifo := q.fifo.drop n }

/-- The reserved context to which the head work word of channel 0 belongs. -/
def State.workCtx (s : State) (L : Nat) : Option (Nat × Resv) :=
  match ((s.core L).chan 0).fifo with
  | a :: b :: _ =>
    ((List.range 4).map (fun c => 4 * L + c)).findSome? (fun h =>
      match (s.ctx h).resv with
      | some r => if r.wid = a.1 && r.addr = b.1 && (s.ctx h).st = .reserved then some (h, r) else none
      | none => none)
  | _ => none

/-- A free context that a firing of a class may take: context 3 first for run-to-completion ones. -/
def State.freeFor (s : State) (L : Nat) (rtc : Bool) : Option Nat :=
  ((if rtc then [3, 2, 1, 0] else [0, 1, 2]).map (fun c => 4 * L + c)).find? (fun h => (s.ctx h).isFree)

/-- A free context that the capacity of COR launches leaves to a firing of a channel (R102). -/
def State.chanFor (s : State) (L : Nat) (rtc : Bool) : Option Nat :=
  ((if rtc then [3, 2, 1, 0] else [0, 1, 2]).map (fun c => 4 * L + c)).find? (fun h => (s.ctx h).isFree && s.corLets 64 h 0)

/-- The same for a saved firing that comes back. -/
def State.resumeFor (s : State) (L : Nat) (v : Saved) : Option Nat :=
  let slot := match v.firing.key with | some k => k % 64 | none => 64
  ([0, 1, 2].map (fun c => 4 * L + c)).find? (fun h => (s.ctx h).isFree && s.corLets slot h v.firing.banks)

/-- What a core may select. -/
inductive Cand
  | owner (id : Nat)
  | resume (v : Saved)
  | chan (n : Nat)

/-- Whether the owner handler may serve a request now: the result cache has room for the results of those that run (R363). -/
def State.cacheRoom (s : State) (L : Nat) (r : ReqCopy) : Bool :=
  let n := L / 16
  let runs := (s.ctxs.filter (fun q => q.1 / 64 = n && q.2.firing.any (fun f => f.owner.isSome))).length
  !r.nonIdem || r.hit.isSome || (s.sorus n).cache.length + runs < 2048

/-- The lines whose requests the owner handler of a core serves now (R382). -/
def State.servedLines (s : State) (L : Nat) : List Nat :=
  (List.range 4).filterMap (fun c =>
    ((s.ctx (4 * L + c)).firing.bind (·.owner)).bind (fun id => (tget? s.flight.rcopies id).map (fun r => r.key / 64)))

/-- The request that the owner handler of a core would serve next, at priority 7 (R358): the first to have arrived whose line no handler
holds (R382), once the result cache has room for it. -/
def State.ownerCand (s : State) (L : Nat) : Option (Nat × Nat × Cand) :=
  let held := s.servedLines L
  if (s.freeFor L true).isNone then none
  else match (s.core L).owners.find? (fun id => (tget? s.flight.rcopies id).any (fun r => !held.contains (r.key / 64))) with
    | some id => if (tget? s.flight.rcopies id).any (s.cacheRoom L) then some (7, 0, .owner id) else none
    | none => none

/-- The saved firings in a core's resume queue that it can take, with their priorities. -/
def State.resumeCands (s : State) (L : Nat) : List (Nat × Nat × Cand) :=
  if (s.freeFor L false).isNone then []
  else (s.core L).resume.filterMap (fun id =>
    (s.parts.findSome? (fun p => p.2.saved.find? (fun v => v.id = id))).bind (fun v =>
      if s.resumeRoom L v && (s.resumeFor L v).isSome then some (v.firing.rank, 1, .resume v) else none))

/-- The runnable channels of a core that can take a context, with their priorities, in the order LAST + 1, LAST + 2, …. -/
def State.chanCands (s : State) (L : Nat) (absent : Bool) : List (Nat × Nat × Cand) :=
  let k := s.core L
  ((List.range 16).map (fun i => (k.last + 1 + i) % 16)).filterMap (fun n =>
    let e := k.entry n
    if bit e 61 then none
    else if n = 0 then
      (s.workCtx L).map (fun q =>
        (hdrPrio (((tget? (s.part q.2.part).launches q.2.slot).map (·.hdr.words)).getD []), 2, .chan 0))
    else if absent || n = 1 || !bit e 63 || ((k.chan n).head (bits e 57 52)).isNone || (s.chanFor L (bit e 62)).isNone then none
    else some (bits e 60 58, 2, .chan n))

/-- The candidate that wins: the highest priority, then requests before resumes before channels, then the first (R86, R358). -/
def winner : List (Nat × Nat × Cand) → Option Cand
  | [] => none
  | c :: cs => some (cs.foldl (fun (b : Nat × Nat × Cand) x =>
      if b.1 < x.1 || (b.1 = x.1 && x.2.1 < b.2.1) then x else b) c).2.2

/-! ### The start of a firing (R88, R93) -/

/-- The banks of a mask are claimed: a free one with every byte zero, one retained for the actor with its contents (R92, R93). -/
def State.claimBanks (s : State) (L mask fid actor : Nat) : State :=
  (List.range 10).foldl (fun s b =>
    if !mask.testBit b then s
    else
      let kept : Bool := match (s.bank L b).retain with | some (a, _) => a = actor | none => false
      let s := if kept then s else s.wipeBank L b
      s.setBank L b { powered := true, own := some fid }) s

/-- The identity of a requester, drawn from its slot's counter (R361). -/
def State.drawVrid (s : State) (t : Nat) : Nat × State :=
  let q := s.slot t
  (q.vrid, s.setSlot t { q with vrid := (q.vrid + 1) % 2 ^ 32 })

/-- The registers of a firing at its start (R88). -/
def startRegs (a0 a1 : Word) : Regs := (((({} : Regs).setX 2 0xFF0200100000).setX 10 a0).setX 11 a1)

/-- A firing is placed in a context, which enters Starting; its core fetches from committed code (R244). The trace switch and the
running capture counters are the context's and go on, from 0 (R256, R257). -/
def State.placeFiring (s : State) (h : Nat) (f : Firing) (entry : Word) : State :=
  let L := h / 4
  let w (i : Nat) : Word := ((f.trigger[i]?).map (·.1)).getD 0
  let c : Ctx :=
    { st := .starting, priv := f.level, pc := entry, regs := startRegs (w 0) (w 1), firing := some f, floor := (s.ctx h).floor }
  let a := s.aux h
  let s := (s.setCtx h { c with young := c.fresh }).setAux h
    { drain := a.drain, dbgsel := a.dbgsel, dbgridx := a.dbgridx, infidx := a.infidx, capidx := a.capidx, instret := a.instret,
      trace := a.trace, capOn := a.capOn }
  let s := s.setCore L { s.core L with icache := [] }
  (s.trace h 2 (word (f.chan * 2 ^ 48 + bits entry 47 0))).poke (.startingComplete h)

/-- An armed injection kills a firing that the core selects from the channel (R463). -/
def State.injectKill (s : State) (L ch t : Nat) : Bool × State :=
  if s.finjHits L 2 ch (s.tenantOf t) then (true, s.finjDone L) else (false, s)

/-- A work word is taken: the firing of its reservation starts in the reserved context. -/
def State.startWork (s : State) (L h : Nat) (r : Resv) : State :=
  let k := s.core L
  let q := k.chan 0
  let trig := q.fifo.take 2
  let s := s.setCore L { k with last := 0, chans := tput k.chans 0 { q with fifo := q.fifo.drop 2 } }
  let (fid, s) := s.newId
  let f := s.workFiring h fid r
  let (vrid, s) := s.drawVrid f.slot
  let (inj, s) := s.injectKill L 0 f.slot
  let ws := s.hdrOf f
  let f := { f with vrid := vrid, trigger := trig, src := ((trig.head?).map (·.2)).getD 0, inject := inj }
  let s := s.claimBanks L f.banks fid (hdrActor ws)
  let s := s.placeFiring h f (word (bits (hdrWord ws 0) 47 2 * 4))
  ((s.dlReset f).capEvent h 10 2).pokeChannel L 0

/-- A channel fires: RATE words are taken, and the actor of its entry starts in a free context (R86, R88). -/
def State.startChan (s : State) (L n : Nat) : State :=
  let k := s.core L
  let e := k.entry n
  let rate := bits e 57 52
  match (k.chan n).head rate, s.chanFor L (bit e 62) with
  | some (trig, redel, born), some h =>
    let s := s.setCore L { k with last := n, chans := tput k.chans n ((k.chan n).take rate) }
    let p := (s.sorus (L / 16)).part
    let t := s.slotOf p
    let (fid, s) := s.newId
    let (vrid, s) := s.drawVrid t
    let (inj, s) := s.injectKill L n t
    let f : Firing := { fid := fid, chan := n, rtc := bit e 62, level := if bit e 50 then .m else if bit e 51 then .s else .u
                        prio := bits e 60 58, part := p, slot := t, key := none, wid := 0, gid := 0, idx := 0, vrid := vrid
                        serial := 0, trigger := trig, src := ((trig.head?).map (·.2)).getD 0, banks := 0, spill := 0
                        order := none, owner := none, retired := 0, redel := redel, born := born.getD fid, inject := inj
                        startAt := s.gtime, startCyc := s.cycles L }
    let s := s.placeFiring h f (word (bits e 47 2 * 4))
    ((s.capEvent h 10 trig.length).pokeChannel L n).poke (.selection L)
  | _, _ => s

/-- The owner handler takes a request (R358): a run-to-completion firing of fixed code. A copy that the result cache had an answer for is
answered now that the earlier requests of its line have taken effect (R382). The firing is no firing of a channel's entry, and LAST
stays as it is (R86; DESIGN CHOICE, unsafe: the spec does not say whether its start counts as one of channel 1; log 97). -/
def State.startOwner (s : State) (L id : Nat) : State :=
  match tget? s.flight.rcopies id, s.freeFor L true with
  | some r, some h =>
    let k := s.core L
    let s := s.setCore L { k with owners := k.owners.filter (fun n => n != id) }
    match r.hit with
    | some (code, v, ver) => (s.ownerReply id r code v ver).poke (.selection L)
    | none =>
    let p := (s.sorus (L / 16)).part
    let (fid, s) := s.newId
    let inj := s.finjHits L 2 1 r.tenant
    let s := if inj then s.finjDone L else s
    let born := if r.first = 0 then fid else r.first
    let s := { s with flight := { s.flight with rcopies := tput s.flight.rcopies id { r with first := born } } }
    let f : Firing := { fid := fid, chan := 1, rtc := true, level := .m, prio := 7, part := p, slot := 0, key := none
                        wid := 0, gid := 0, idx := 0, vrid := 0, serial := 0, trigger := [], src := 0, banks := 0, spill := 0
                        order := none, owner := some id, retired := 0, redel := r.redel, born := born, inject := inj
                        startAt := s.gtime, startCyc := s.cycles L }
    (s.placeFiring h f 0).poke (.selection L)
  | _, _ => s

/-! ### Saving (R110, R459) -/

/-- Bytes that a save block holds. -/
def Saved.bytes (v : Saved) : Nat :=
  512 + 8 * v.regs.x.length + 256 * v.regs.v.length + 64 * v.regs.p.length + 512 * v.regs.a.length + 8 * v.firing.trigger.length +
    0x8000 * ((List.range 10).filter (fun b => v.banks.testBit b)).length + 4096 * v.groups.length

/-- The address of a save block. -/
def State.blockVa (s : State) (p b : Nat) : Word := word (bits (s.part p).svcfg 63 20 * 2 ^ 20 + b * 2 ^ 19)

/-- The first page of a block's bytes that the partition's translation does not allow. -/
def State.blockFault (s : State) (p b n : Nat) (store : Bool) : Option Word :=
  ((List.range ((n + 65535) / 65536)).map (fun i => s.blockVa p b + word (65536 * i))).find? (fun va => (s.partPlace p store va).isNone)

/-- The bytes of a save block are written; how the device lays them out is open (log 8). -/
def State.fillBlock (s : State) (p : Nat) (va : Word) : Nat → State
  | 0 => s
  | n + 1 =>
    let (w, s) := s.freeWord
    let s := match s.partPlace p true va with | some pl => s.writeNat pl.key 8 w.toNat | none => s
    s.fillBlock p (va + 8) n

/-- The part of a firing's state that its safe-point entry marks live (R108, R110). -/
def liveRegs (g : Regs) (e : SafeEnt) : Regs :=
  { x := g.x.filter (fun r => e.xlive.testBit r.1), v := g.v.filter (fun r => e.vlive.testBit r.1)
    p := g.p.filter (fun r => e.plive.testBit r.1), a := g.a.filter (fun r => e.alive.testBit r.1) }

/-- What remains of a wait: the cycles of a WAIT.C that remained as Saving began; a WAITC is evaluated afresh (R57, R253, R343). -/
def State.waitLeft (s : State) (h : Nat) : WaitFor :=
  match (s.ctx h).wait with
  | .cycles n => .cycles ((s.aux h).left.getD (n - s.cycles (h / 4)))
  | .counts _ _ _ _ => .none
  | w => w

/-- The record of a firing that is saved (R110). -/
def State.savedRecord (s : State) (h id block : Nat) (f : Firing) (e : SafeEnt) : Saved :=
  let L := h / 4
  let c := s.ctx h
  let a := s.aux h
  let live := f.banks &&& e.blive
  let groups := ((s.core L).rowOwn.filter (fun p => p.2 = f.fid)).map (·.1)
  let inBank (k : Nat) : Bool := spadKey L 0 ≤ k && k < spadKey L 0x50000 && live.testBit ((k - spadKey L 0) / 0x8000)
  let inRows (k : Nat) : Bool := accKey L 0 ≤ k && k < accKey L 65536 && groups.contains ((k - accKey L 0) / 4096)
  { id := id, firing := { f with startCyc := 0 }, core := L, ctx := h % 4, priv := c.priv
    pc := match c.wait with | .counts _ _ _ _ => c.pc - 4 | _ => c.pc
    regs := liveRegs c.regs e, shadow := c.shadow, pend := c.pend, wait := s.waitLeft h, banks := live
    fmts := (s.core L).fmt.filter (fun p => live.testBit p.1)
    kept := (s.mem.filter (fun p => inBank p.1)).map (fun p => (p.1 - spadKey L 0, p.2))
    groups := groups, rows := (s.mem.filter (fun p => inRows p.1)).map (fun p => (p.1 - accKey L 0, p.2))
    aux := { a with fetch := [], drain := (a.drain.filter (fun d => d.1 < 8)).map (fun d => (d.1, { d.2 with stop := none })), faults := [], preqs := [], fence := none, drainFrom := 0, left := none, inq := [] }
    pendEi := c.sys.pendEi
    copies := (s.flight.copies.filter (fun p => p.2.fid = f.fid && !p.2.discard)).map (·.1)
    block := block, placed := false, floor := c.floor }

/-- The unfinished copies of a firing park with their progress (R110, R449). -/
def State.parkCopies (s : State) (L fid : Nat) : State :=
  let mine (c : Copy) : Bool := c.fid = fid && !c.discard
  let ids := (s.flight.copies.filter (fun p => mine p.2)).map (·.1)
  let s := { s with flight := { s.flight with copies := s.flight.copies.map (fun (p : Nat × Copy) =>
    if mine p.2 then (p.1, { p.2.restart with parked := true }) else p) } }
  let k := s.core L
  let s := s.setCore L { k with copyq := k.copyq.filter (fun n => !ids.contains n) }
  if (s.core L).copyq.isEmpty then s else s.poke (.copyHeadCheck L)

/-- The parked copies of a firing rejoin the queue at their first unwritten sector (R449). -/
def State.rejoinCopies (s : State) (h fid : Nat) : State :=
  let L := h / 4
  s.flight.copies.foldl (fun s p =>
    if p.2.fid = fid && p.2.parked then
      let k := s.core L
      ((s.setCopy { p.2 with parked := false, fault := false, h := h }).setCore L { k with copyq := insertNew k.copyq p.1 }).poke
        (.copyHeadCheck L)
    else s) s

/-- The firing of a context whose save has failed runs on, with its copies and ports, and the requests receive a code (R488): the cycles
that remained of a WAIT.C count on, and a WAITC looks at its counts again. -/
def State.saveFails (s : State) (h code : Nat) : State :=
  let c := s.ctx h
  let w := match c.wait, (s.aux h).left with | .cycles _, some n => .cycles (s.cycles (h / 4) + n) | w, _ => w
  let s := (s.setCtx h { c with wait := w, st := if c.wait = .none then .running else .waiting }).preqsDone h code
  let s := s.setAux h { s.aux h with left := none }
  match c.firing with
  | some f => ((s.rejoinCopies h f.fid).restartPorts h).countsWake h
  | none => s

/-- The follow-ons of a firing's parked copies, which its save does not wait for (R336, R449). -/
def State.parkedTiles (s : State) (fid : Nat) : List Nat :=
  s.flight.copies.filterMap (fun p => if p.2.fid = fid && p.2.parked then p.2.follow.map (·.id) else none)

/-- Whether a save must still wait: for the context's matrix operations, for committed write transfers, for a forwarding entry
when requests are outstanding (R110, R459). It waits for no parked transfer (R449). -/
def State.saveWaits (s : State) (h : Nat) (f : Firing) : Bool :=
  (s.aux h).tiles.any (fun i => !(s.parkedTiles f.fid).contains i) ||
  (s.aux h).drain.any (fun d => d.1 < 8 && !d.2.queue.isEmpty && d.2.stop.isNone) ||
  (s.flight.reqs.any (fun q => q.2.fid = f.fid) && !(s.core (h / 4)).fwd.contains f.fid && 32 ≤ (s.core (h / 4)).fwd.length)

/-- What follows once a firing has been saved and its context is Free: the dispatcher first, which a relief serves (R439). -/
def State.afterSave (s : State) (h : Nat) (f : Firing) : State :=
  let L := h / 4
  let s := match f.key, s.launchOf f with
    | some k, some l => if l.relief then (s.setCtx h { st := .reserved, floor := (s.ctx h).floor }).setLaunch k { l with keep := l.keep ++ [h] } else s
    | _, _ => s
  let s := (((s.settleKeep (L / 16)).ticketLifts f.fid).poke (.groupDispatch f.part)).poke (.selection L)
  let s := if (s.core L).test = .draining then s.poke (.scanDrainEnd L) else s
  let s := if (s.sorus (L / 16)).leaving then s.poke (.sorusPass (L / 16)) else s
  match f.key with
  | some k =>
    let s := match s.launchOf f with | some l => s.setLaunch k { l with dlDue := none, dlLeft := none } | none => s
    s.dlStart k
  | none => s

/-- The save block is written and the context becomes Free (R110). -/
def State.saveFiring (s : State) (h : Nat) : State :=
  let L := h / 4
  match (s.ctx h).firing, s.safeAt h with
  | some f, some (some e) =>
    match s.poolFree f.part with
    | none => s.saveFails h 3
    | some b =>
      let (id, s) := s.newId
      let v := s.savedRecord h id b f e
      match s.blockFault f.part b v.bytes true with
      | some va => (s.elog 21 f.slot 0xFFF va 2).saveFails h 3
      | none =>
        let s := s.fillBlock f.part (s.blockVa f.part b) ((v.bytes + 7) / 8)
        let s := if (s.aux h).capOn = 0 then s else s.trace h 5 (word (2 ^ 63 + s.localOf L (s.aux h).saveAt % 2 ^ 63))
        let s := if s.flight.reqs.any (fun q => q.2.fid = f.fid) then
            s.setCore L { s.core L with fwd := insertNew (s.core L).fwd f.fid } else s
        let s := (s.releaseBanks L f.fid 0 0).releaseRows L f.fid
        let q := s.part f.part
        let s := s.setPart f.part { q with saved := q.saved ++ [v], blocks := q.blocks ++ [b] }
        let s := s.preqsDone h 0
        let s := match f.key, s.launchOf f with
          | some k, some l => s.setLaunch k { l with cycles := l.cycles + (s.cycles L - f.startCyc) }
          | _, _ => s
        (s.freeCtx h).afterSave h f
  | some _, _ => s.saveFails h 2
  | none, _ => s

/-- SAVE_COMPLETE: the save ends, or waits. -/
def State.saveNow (s : State) (h : Nat) : State :=
  let c := s.ctx h
  match c.firing with
  | none => s
  | some f => if c.st != .saving || s.saveWaits h f || (s.sx (h / 64)).halted || s.paused (h / 64) then s else s.saveFiring h

/-- A context enters Saving: the cycles that remain of its WAIT.C stop counting (R57, R253), its unfinished copies park, and engine page
faults that have not been delivered are dropped (R110, R449). -/
def State.enterSaving (s : State) (h : Nat) : State :=
  let c := s.ctx h
  let left := match c.wait with | .cycles n => some (n - s.cycles (h / 4)) | _ => none
  let s := (s.setCtx h { c with st := .saving }).setAux h { s.aux h with saveAt := s.gtime, left := left, faults := [] }
  (match c.firing with | some f => s.parkCopies (h / 4) f.fid | none => s).poke (.saveComplete h)

/-- A context that drains reaches a listed address, or one that waits stands at a listed WAIT entry: with its chunks committed it
enters Saving (R109): not while its sorus is halted (R422) or its clock paused (R49), nor before the admission that it awaits (R312). -/
def State.reachSafe (s : State) (h : Nat) : State :=
  let c := s.ctx h
  match c.firing with
  | none => s
  | some f =>
    if (s.aux h).preqs.isEmpty || (s.aux h).fence.isSome || s.quiet (h / 64) || s.awaitsAdm h then s
    else if c.st = .saving then s.poke (.saveComplete h)
    else if c.priv != f.level then s
    else if c.st = .draining then
      match s.safeAt h with
      | some (some _) => if c.clean then s.enterSaving h else s.closeChunk h
      | some none => s
      | none => s.refuseDrain h 2
    else if c.st = .waiting && c.clean then
      match s.safeAt h with
      | some (some e) => if e.wait then s.enterSaving h else s
      | some none => s
      | none => s.preqsDone h 2
    else s

/-! ### Restoring (R111, R447, R459) -/

/-- The heavy follow-ons of some copies that have been admitted. -/
def State.admittedOf (s : State) (ids : List Nat) : Nat :=
  (s.flight.copies.filter (fun p => ids.contains p.1 && p.2.follow.any (fun t => t.kind.heavy && t.admitted))).length

/-- Admitted bursts that go with a firing to another sorus count there (R73). -/
def State.moveBursts (s : State) (a b n : Nat) : State :=
  if a = b || n = 0 then s
  else
    let s := s.setSorus a { s.sorus a with admitted := (s.sorus a).admitted - n }
    s.setSorus b { s.sorus b with admitted := (s.sorus b).admitted + n }

/-- A saved firing is selected: its state is loaded into a free context, which enters Restoring. -/
def State.startResume (s : State) (L : Nat) (v : Saved) : State :=
  match s.resumeFor L v with
  | none => s
  | some h =>
    let p := v.firing.part
    let k := s.core L
    let s := s.setCore L { k with resume := k.resume.filter (fun n => n != v.id), icache := [] }
    let q := s.part p
    let s := s.setPart p { q with saved := q.saved.filter (fun w => w.id != v.id) }
    let f := { v.firing with startCyc := s.cycles L }
    let s := s.claimBanks L f.banks f.fid 0x10000
    let k := s.core L
    let s := s.setCore L { k with fmt := v.fmts.foldl (fun t (p : Nat × Word) => tput t p.1 p.2) k.fmt
                                  rowOwn := v.groups.foldl (fun t g => tput t g f.fid) k.rowOwn }
    let s := { s with mem := v.kept.foldl (fun m (p : Host.Cell) => tset 0 m (spadKey L p.1) p.2) s.mem }
    let s := v.groups.foldl (fun s g => s.clearRange (accKey L (g * 4096)) 4096) s
    let s := { s with mem := v.rows.foldl (fun m (p : Host.Cell) => tset 0 m (accKey L p.1) p.2) s.mem }
    let c : Ctx := { st := .restoring, wait := v.wait, priv := v.priv, pc := v.pc, regs := v.regs, shadow := v.shadow, pend := v.pend
                     firing := some f, sys := { pendEi := v.pendEi }, floor := max (s.ctx h).floor v.floor }
    let a := s.aux h
    let s := (s.setCtx h { c with young := c.fresh }).setAux h
      { v.aux with drain := v.aux.drain.foldl (fun t d => tput t d.1 d.2) a.drain, dbgsel := a.dbgsel, dbgridx := a.dbgridx, infidx := a.infidx, capidx := a.capidx,
                   instret := a.instret, trace := a.trace, block := some v.block, blockLen := v.bytes }
    let s := { s with flight := { s.flight with
      reqs := s.flight.reqs.map (fun (r : Nat × Req) => if r.2.fid = f.fid then (r.1, { r.2 with core := L }) else r)
      copies := s.flight.copies.map (fun (r : Nat × Copy) =>
        if v.copies.contains r.1 then (r.1, { r.2 with h := h, follow := r.2.follow.map (fun (t : Tile) => { t with h := h }) }) else r) } }
    let s := s.moveBursts (v.core / 16) (L / 16) (s.admittedOf v.copies)
    (s.poke (.restoreComplete h)).poke (.selection L)

/-- The save block of a context that is being restored is free again. -/
def State.freeBlock (s : State) (h p : Nat) : State :=
  match (s.aux h).block with
  | none => s
  | some b =>
    let q := s.part p
    (s.setPart p { q with blocks := q.blocks.filter (fun n => n != b) }).setAux h { s.aux h with block := none }

/-- The transfers that a restored firing's write ports still hold go on (R449; log 89). -/
def State.resumePorts (s : State) (h : Nat) : State :=
  ((s.aux h).drain.filter (fun d => d.1 < 8)).foldl (fun s d => s.poke (.streamWriteTransferDone h d.1)) s

/-- RESTORE_COMPLETE: the firing is Running, or Waiting as it was saved; a block that cannot be read kills it (R488). -/
def State.restoreNow (s : State) (h : Nat) : State :=
  let c := s.ctx h
  match c.firing, (s.aux h).block with
  | some f, some b =>
    if c.st != .restoring || (s.sx (h / 64)).halted || s.paused (h / 64) then s
    else match s.blockFault f.part b (s.aux h).blockLen false with
      | some va => (((s.countFault f).elog 21 f.slot 0xFFF va 4).freeBlock h f.part).kill h false
      | none =>
        let s := s.freeBlock h f.part
        let run := s.runSt h
        let w := match c.wait with | .cycles n => .cycles (s.cycles (h / 4) + n) | w => w
        let s := s.setCtx h { s.ctx h with
          st := if c.wait = .none then run else .waiting, wait := w, firing := some { f with startCyc := s.cycles (h / 4) } }
        let s := s.trace h 2 (word (f.chan * 2 ^ 48 + bits c.pc 47 0))
        let s := if (s.aux h).capOn = 0 then s else s.trace h 6 (word (2 ^ 63 + s.localTime (h / 4) % 2 ^ 63))
        let s := if (s.aux h).trace then s.traceSync (h / 4) 4 else s
        let s := ((s.rejoinCopies h f.fid).resumePorts h).pokeYield h
        if c.wait = .none then s else s.waitCommit h
  | _, _ => s

/-! ### Selection (R86) -/

/-- The context that the holder's core asks to give way when no free context is left for the holder's resume (R436): of lower
priority, the lowest first and of those the latest started, none that waits on the same dispenser and none of a COR launch (R102). -/
def State.yieldFor (s : State) (L p d : Nat) : Option Nat :=
  ((List.range 4).map (fun c => 4 * L + c)).foldl (fun (o : Option Nat) h =>
    let pr (g : Nat) : Nat := ((s.ctx g).firing.map (·.rank)).getD 0
    let at' (g : Nat) : Nat := ((s.ctx g).firing.map (·.fid)).getD 0
    let cor : Bool := (s.ctx h).firing.any (fun f => hdrFlag (s.hdrOf f) 2)
    let ok : Bool := s.canYield h && !cor && pr h < p && (match (s.ctx h).wait with | .ticket e _ => e != d | _ => true)
    if !ok then o
    else match o with
      | none => some h
      | some g => if pr h < pr g || (pr h = pr g && at' g < at' h) then some h else some g) none

/-- A saved ticket holder whose resume finds no free context asks for one (R436). -/
def State.ticketAsk (s : State) (L : Nat) : State :=
  if (s.freeFor L false).isSome || (List.range 4).any (fun c => !(s.aux (4 * L + c)).preqs.isEmpty) then s
  else s.ctxs.foldl (fun s q =>
    match q.2.wait, q.2.firing with
    | .ticket d _, some f =>
      match s.ticketHolder (q.1 / 64) d with
      | some fid =>
        match s.savedOf fid with
        | some (_, v) =>
          if q.1 / 4 = L && q.2.st = .waiting && v.firing.prio < f.prio && (s.core L).resume.contains v.id then
            match s.yieldFor L f.prio d with
            | some h => s.poke (.preemptionRequest h .ticket)
            | none => s
          else s
        | none => s
      | none => s
    | _, _ => s) s

/-- Whether a core selects nothing now: it is in test, halted, paused (R262, R412, R49). -/
def State.noSelect (s : State) (L : Nat) : Bool :=
  (s.core L).test != .none || (s.sx (L / 16)).halted || s.paused (L / 16)

/-- A core selects (R86): an absent core only work words reserved before its removal (R267). -/
def State.select (s : State) (L : Nat) : State :=
  if s.noSelect L then s
  else
    let here := s.present L
    let cs := (if here then (s.ownerCand L).toList ++ s.resumeCands L else []) ++ s.chanCands L (!here)
    match winner cs with
    | none => s.ticketAsk L
    | some (.owner id) => s.startOwner L id
    | some (.resume v) => s.startResume L v
    | some (.chan n) =>
      if n = 0 then (match s.workCtx L with | some (h, r) => (s.startWork L h r).poke (.selection L) | none => s)
      else s.startChan L n

end Sys2Proof.Machine
end

