-- ==== Sys2Proof/Machine/EvDispatch.lean ====
section
/-! DEFINITION. Happenings of firings and launches (R86 to R117, R439). -/

namespace Sys2Proof.Machine

/-- SELECTION (R86). -/
def execSelection (s : State) : Out :=
  match s.now with
  | some (.selection L) => .next (s.taken.select L)
  | _ => .next s

/-- STARTING_COMPLETE (R88). -/
def execStartingComplete (s : State) : Out :=
  match s.now with
  | some (.startingComplete h) =>
    .next (if (s.ctx h).st = .starting && !(s.sx (h / 64)).halted && !s.paused (h / 64) then
        (s.taken.setCtx h { s.ctx h with st := s.runSt h }).pokeYield h else s.taken)
  | _ => .next s

/-- BANK_WAKE_COMPLETE (R93). -/
def execBankWakeComplete (s : State) : Out :=
  match s.now with
  | some (.bankWakeComplete L b) =>
    .next (if s.paused (L / 16) then s.taken.after 1 (.bankWakeComplete L b)
      else if (s.bank L b).waking then
        (s.taken.wipeBank L b).setBank L b { s.bank L b with powered := true, waking := false } else s.taken)
  | _ => .next s

/-- Whether something else than the end of a retention is due now. -/
def State.otherDue (s : State) : Bool := s.agenda.any (fun e => match e with | .retentionExpiry _ _ _ => false | _ => true)

/-- RETENTION_EXPIRY (R92): the retention that began then is still unclaimed. A claim due in the same cycle goes first (R116). Where it comes
about in a pause of the clock it takes effect when that ends (R49, R468). -/
def execRetentionExpiry (s : State) : Out :=
  match s.now with
  | some (.retentionExpiry L b since) =>
    .next (if s.paused (L / 16) then s.taken.after 1 (.retentionExpiry L b since)
      else if s.otherDue then s.taken.poke (.retentionExpiry L b since)
      else if (s.bank L b).retain.any (fun r => r.2 = since) then
        let t := (s.taken.bankDown L b).poke (.selection L)
        match s.partOf L with | some p => t.poke (.groupDispatch p) | none => t
      else s.taken)
  | _ => .next s

/-- GROUP_DISPATCH (R99, R100). -/
def execGroupDispatch (s : State) : Out :=
  match s.now with
  | some (.groupDispatch p) => .next (s.taken.dispatch p)
  | _ => .next s

/-- LAUNCH_HEADER_ARRIVAL (R106). -/
def execLaunchHeaderArrival (s : State) : Out :=
  match s.now with
  | some (.launchHeaderArrival p ws src) => .next (s.taken.headerArrive p ws src)
  | _ => .next s

/-- HUB_QUEUE_REFILL (R106). -/
def execHubQueueRefill (s : State) : Out :=
  match s.now with
  | some (.hubQueueRefill p) => .next (s.taken.refillQueue p)
  | _ => .next s

/-- RESIDENT_SLOT_COPY (R105). -/
def execResidentSlotCopy (s : State) : Out :=
  match s.now with
  | some (.residentSlotCopy p) => .next (s.taken.slotCopy p)
  | _ => .next s

/-- SORUS_PASS (R107). -/
def execSorusPass (s : State) : Out :=
  match s.now with
  | some (.sorusPass n) => .next (s.taken.passSorus n)
  | _ => .next s

/-- PREEMPTION_REQUEST (R109). -/
def execPreemptionRequest (s : State) : Out :=
  match s.now with
  | some (.preemptionRequest h who) =>
    .next (if s.paused (h / 64) then s.taken.after 1 (.preemptionRequest h who) else s.taken.preempt h who)
  | _ => .next s

/-- SAFE_POINT (R109, R112). -/
def execSafePoint (s : State) : Out :=
  match s.now with
  | some (.safePoint h) => .next (s.taken.reachSafe h)
  | _ => .next s

/-- SAVE_COMPLETE (R110). -/
def execSaveComplete (s : State) : Out :=
  match s.now with
  | some (.saveComplete h) => .next (s.taken.saveNow h)
  | _ => .next s

/-- RESTORE_COMPLETE (R111). -/
def execRestoreComplete (s : State) : Out :=
  match s.now with
  | some (.restoreComplete h) => .next (s.taken.restoreNow h)
  | _ => .next s

/-- LAUNCH_COMPLETION (R117). -/
def execLaunchCompletion (s : State) : Out :=
  match s.now with
  | some (.launchCompletion p slot) => .next (s.taken.complete p slot)
  | _ => .next s

end Sys2Proof.Machine
end

