-- ==== Sys2Proof/Machine/EvEngine.lean ====
section
/-! DEFINITION. Happenings of the engines and of synchronisation: tile operations, copies, streams, barriers, exchanges, logs,
croziers (R302, R335, R336, R326, R327, R369 to R372, R297, R366, R379). -/

namespace Sys2Proof.Machine

/-- TILE_OPERATION_COMPLETE (R302, R320): the head of the matrix queue runs, if it may, and the next one follows. One that ran as its
sorus halted completes (R412). -/
def execTileOperationComplete (s : State) : Out :=
  match s.now with
  | some (.tileOperationComplete L) =>
    match (s.core L).matq.head? with
    | some t => .next (if t.ready && !s.stuck (L / 16) && (t.running || !(s.sx (L / 16)).halted) then s.taken.tileDone L t true 0 else s.taken)
    | none => .next s.taken
  | _ => .next s

/-- COPY_HEAD_CHECK (R335). A copy that a fault had parked as its firing ended, ends with FAULT (R446). -/
def execCopyHeadCheck (s : State) : Out :=
  match s.now with
  | some (.copyHeadCheck L) =>
    match s.copyHead L with
    | none => .next s.taken
    | some c =>
      if s.still (L / 16) then .next s.taken
      else if c.fault then .next (s.taken.copyEnd c 7)
      else if c.checked then .next (s.taken.poke (.copySectorWritten L))
      else
        let c := s.sampled c
        .next (if s.copyCode c = 0 then (s.taken.setCopy { c with checked := true }).poke (.copySectorWritten L)
          else s.taken.copyEnd c (s.copyCode c))
  | _ => .next s

/-- COPY_SECTOR_WRITTEN (R336, R445). A halt freezes the copy within the sector (R412). -/
def execCopySectorWritten (s : State) : Out :=
  match s.now with
  | some (.copySectorWritten L) =>
    match s.copyHead L with
    | none => .next s.taken
    | some c => .next (if !c.checked || c.parked || s.stuck (L / 16) || s.copyAwaits c then s.taken
      else if (s.sx (L / 16)).halted then s.taken.copyFreeze c
      else s.taken.copySector { c with frozen := false })
  | _ => .next s

/-- STREAM_FETCH_RETURN (R326, R445). -/
def execStreamFetchReturn (s : State) : Out :=
  match s.now with
  | some (.streamFetchReturn h q) => .next (s.taken.fetchReturn h q)
  | _ => .next s

/-- STREAM_WRITE_TRANSFER_DONE (R327, R445). -/
def execStreamWriteTransferDone (s : State) : Out :=
  match s.now with
  | some (.streamWriteTransferDone h q) => .next (s.taken.transferDone h q)
  | _ => .next s

/-- BARRIER_UPDATE (R369): the unit of a sorus applies updates in their order of arrival. -/
def execBarrierUpdate (s : State) : Out :=
  match s.now with
  | some (.barrierUpdate n) =>
    match (s.sorus n).barq with
    | [] => .next s.taken
    | u :: us =>
      if s.still n then .next s.taken
      else if s.gtime < u.at' + 3 then .next (s.taken.after (u.at' + 3 - s.gtime) (.barrierUpdate n))
      else
        let t := s.taken.setSorus n { s.sorus n with barq := us }
        let t := if us.isEmpty then t else t.poke (.barrierUpdate n)
        .next (t.barUpdate u.upd)
  | _ => .next s

/-- EXCHANGE_COMPLETE (R297). -/
def execExchangeComplete (s : State) : Out :=
  match s.now with
  | some (.exchangeComplete p slot gid set) => .next (s.taken.xchgComplete p slot gid set)
  | _ => .next s

/-- GROUP_BARRIER_COMPLETE (R371). -/
def execGroupBarrierComplete (s : State) : Out :=
  match s.now with
  | some (.groupBarrierComplete p slot gid) => .next (s.taken.gbarComplete p slot gid)
  | _ => .next s

/-- LAUNCH_BARRIER_COMPLETE (R372, R75). -/
def execLaunchBarrierComplete (s : State) : Out :=
  match s.now with
  | some (.launchBarrierComplete p slot n) => .next (s.taken.lbarComplete p slot n)
  | _ => .next s

/-- LOG_MERGE_DONE (R366). -/
def execLogMergeDone (s : State) : Out :=
  match s.now with
  | some (.logMergeDone p) => .next (s.taken.mergeDone p)
  | _ => .next s

/-- CROZIER_CONTRIBUTION (R379). -/
def execCrozierContribution (s : State) : Out :=
  match s.now with
  | some (.crozierContribution k) => .next (s.taken.crzContribution k)
  | _ => .next s

/-- PROMISE_EXPIRY (R450). -/
def execPromiseExpiry (s : State) : Out :=
  match s.now with
  | some (.promiseExpiry _ cid) => .next (s.taken.copyLate cid)
  | _ => .next s

/-- SYNC_PERIOD (R418): every traced core of a sorus, but where a setpoint boundary falls together with it (R422). -/
def execSyncPeriod (s : State) : Out :=
  match s.now with
  | some (.syncPeriod n) => .next (if (s.sx n).syncAt.any (fun t => t ≤ s.localTime (16 * n) && s.localTime (16 * n) < t + 1000) then s.taken else (List.range 16).foldl (fun t c => t.traceSync (16 * n + c) 1) s.taken)
  | _ => .next s

end Sys2Proof.Machine
end

