-- ==== Sys2Proof/Machine/EvFabric.lean ====
section
/-! DEFINITION. Happenings of the fabric (R401 to R407, R473, R476, R482). -/

namespace Sys2Proof.Machine

/-- DATAGRAM_ARRIVAL (R401). -/
def execDatagramArrival (s : State) : Out :=
  match s.now with
  | some (.datagramArrival port dg) => .next (s.taken.datagramIn port dg)
  | _ => .next s

/-- EXPORT_REQUEST (R402). -/
def execExportRequest (s : State) : Out :=
  match s.now with
  | some (.exportRequest w rq) => .next (s.taken.exportDo w rq)
  | _ => .next s

/-- REVOKE (R403). -/
def execRevoke (s : State) : Out :=
  match s.now with
  | some (.revoke w) => .next (s.taken.revokeNow w)
  | _ => .next s

/-- REVOKE_DRAIN_END (R403). -/
def execRevokeDrainEnd (s : State) : Out :=
  match s.now with
  | some (.revokeDrainEnd w) => .next (s.taken.revokeDone w)
  | _ => .next s

/-- BUCKET_REFILL (R405). -/
def execBucketRefill (s : State) : Out :=
  match s.now with
  | some (.bucketRefill) => .next (s.taken.refillAll)
  | _ => .next s

/-- HEAD_REQUEST_RELEASE (R405). -/
def execHeadRequestRelease (s : State) : Out :=
  match s.now with
  | some (.headRequestRelease t) => .next (s.taken.releaseHead t)
  | _ => .next s

/-- DEBTSTALL_TIMER (R476). -/
def execDebtstallTimer (s : State) : Out :=
  match s.now with
  | some (.debtstallTimer t since) => .next (s.taken.debtStall t since)
  | _ => .next s

/-- CHECKPOINT_GO (R407, R482). -/
def execCheckpointGo (s : State) : Out :=
  match s.now with
  | some (.checkpointGo v) => .next (s.taken.writeCkcfg v)
  | _ => .next s

/-- CHECKPOINT_UNIT_ACK (R407). -/
def execCheckpointUnitAck (s : State) : Out :=
  match s.now with
  | some (.checkpointUnitAck unit status) => .next (s.taken.ckAck unit status)
  | _ => .next s

/-- CHECKPOINT_RESEND (R482). -/
def execCheckpointResend (s : State) : Out :=
  match s.now with
  | some (.checkpointResend unit) => .next (s.taken.ckResend unit)
  | _ => .next s

/-- PSTAT_READ (R473). -/
def execPstatRead (s : State) : Out :=
  match s.now with
  | some (.pstatRead n) => .next (if n < 16 then (s.taken.emit (.data (s.hubRead (.pstat n 1)))).clearPstat n else s.taken)
  | _ => .next s

end Sys2Proof.Machine
end

