-- ==== Sys2Proof/Machine/DeadlockOps.lean ====
section
/-! DEFINITION. What happens when a launch's detection timer fires (R438 to R440). -/

namespace Sys2Proof.Machine

/-- Every firing of a launch is killed and it completes with DEADLOCK (R439); no fault is counted. -/
def State.deadlock (s : State) (p slot : Nat) (l : Launch) : State :=
  let k := 64 * p + slot
  let s := s.elog 7 l.hdr.slot 0xFFF ((s.part p).area + word (64 * slot)) 0
  ((s.setLaunch k { l with force := some 2 }).killLaunch k).poke (.launchCompletion p slot)

/-- Groups of the launch give way until its next group can be placed, all that may where even all do not make room for it (R439). -/
def State.relieve (s : State) (p slot : Nat) (l : Launch) : State :=
  let l := { l with relief := true }
  ((s.setLaunch (64 * p + slot) l).askYield p slot l (s.ownGroups p slot l) true).poke (.groupDispatch p)

/-- Whether a wait is one that only the launch's own firings can end (R440). -/
def WaitFor.own : WaitFor → Bool
  | .gbar => true
  | .lbar _ => true
  | .xchg => true
  | _ => false

/-- One firing that detection finds stuck is killed, with one fault (R440). -/
def State.stuckKill (s : State) (slot L : Nat) (addr : Word) (f : Firing) (kill : State → State) : State :=
  kill ((s.countFault f).elog 7 slot L addr 0)

/-- The firings of a launch with nothing left to dispatch that can never go on are killed (R440); those in BARWAIT and
TKTWAIT are left. -/
def State.stuckKills (s : State) (p slot : Nat) (l : Launch) : State :=
  let k := 64 * p + slot
  let addr := (s.part p).area + word (64 * slot)
  let hs := (s.launchHarts k).filter (fun h => (s.ctx h).wait.own || s.crzStalled k h)
  let vs := (s.part p).saved.filter (fun v => v.firing.key = some k && v.wait.own)
  let s := hs.foldl (fun s h => match (s.ctx h).firing with
    | some f => s.stuckKill l.hdr.slot (h / 4) addr f (fun s => s.kill h false)
    | none => s) s
  vs.foldl (fun s v => s.stuckKill l.hdr.slot v.core addr v.firing (fun s => s.killSaved p v)) s

/-- Whether a firing of a launch is on a core whose clock is paused. -/
def State.launchPaused (s : State) (k : Nat) : Bool := (s.launchHarts k).any (fun h => s.paused (h / 64))

/-- The timer that was to fire at `due` fires, if every firing still waits (R438); where the launch goes on, it starts again. A COR launch
is not relieved and is not ended for want of room (R439). While clocks are paused it takes no effect (R468). -/
def State.detect (s : State) (p slot due : Nat) : State :=
  match tget? (s.part p).launches slot with
  | none => s
  | some l =>
    if l.dlDue != some due || s.gtime < due then s
    else if s.allStuck (64 * p + slot) && s.launchPaused (64 * p + slot) then s.after 10 (.detectionTimerExpiry p slot due)
    else
      let l := { l with dlDue := none, dlLeft := none }
      let s := s.setLaunch (64 * p + slot) l
      if !s.allStuck (64 * p + slot) then s
      else if l.pending then
        if (s.nextPlaces p slot l l.trial).isSome || hdrFlag l.hdr.words 2 then s.dlStart (64 * p + slot)
        else if hdrFlag l.hdr.words 3 || !l.groups.any (fun g => s.groupYields (64 * p + slot) g) then s.deadlock p slot l
        else (s.relieve p slot l).dlStart (64 * p + slot)
      else (s.stuckKills p slot l).dlStart (64 * p + slot)

end Sys2Proof.Machine
end

