-- ==== Sys2Proof/Machine/FaultOps.lean ====
section
/-! DEFINITION. Traps and interrupts as happenings (R427 to R430, R446, R450), uncorrectable errors (R452, R453, R461). -/

namespace Sys2Proof.Machine

/-! ### Entries between instructions -/

/-- Whether a context could issue as far as its own state goes. -/
def Ctx.issues (c : Ctx) : Bool := (c.st = .running || c.st = .draining) && c.trapReq.isNone && !c.young.ended

/-- Whether the error interrupt of a context can be taken (R428, R429). -/
def State.eiDue (s : State) (h : Nat) : Bool :=
  let c := s.ctx h
  let toS := bit (s.core (h / 4)).mideleg 9 && c.priv != .m
  c.issues && c.firing.any (fun f => !f.rtc && f.order.isNone) && c.sys.pendEi && c.sys.ei &&
  (if toS then c.priv = .u || (c.priv = .s && bit c.sys.status 1)
   else c.priv != .m || bit c.sys.status 3)

/-- Whether a context is Running at its firing's own level, where engine page faults and COPYLATE are taken (R446, R450). -/
def State.ownLevel (s : State) (h : Nat) : Bool :=
  let c := s.ctx h
  c.issues && c.st = .running && c.firing.any (fun f => f.level = c.priv)

/-- Something is taken between instructions at a bound that the device inserts: at once when nothing is uncommitted, else the
chunk closes and it is looked at again (R428). -/
def State.between (s : State) (h : Nat) (take : State → State) : State :=
  if (s.ctx h).clean then take s else s.closeChunk h

/-- EI is taken (R428, R453): its pending bit clears. -/
def State.takeEi (s : State) (h : Nat) : State :=
  let c := s.ctx h
  (s.setCtx h { c with sys := { c.sys with pendEi := false } }).takeTrap h true 9 (s.aux h).eiVal

/-- INTERRUPT_ENTRY. -/
def State.interruptNow (s : State) (h : Nat) : State :=
  if s.eiDue h then s.between h (fun s => s.takeEi h) else s

/-- A parked transfer is ended rather than delivered (R446): a copy with FAULT, a port drops what it has not moved. -/
def State.endTransfer (s : State) (h : Nat) (e : EngFault) : State :=
  if !e.port then
    match tget? s.flight.copies e.who with
    | some c => if c.parked then s.copyEnd c 7 else s
    | none => s
  else
    let a := s.aux h
    if e.store then
      ((s.setAux h { a with drain := a.drain.map (fun (d : Nat × Drain) =>
        if d.1 = e.who && d.2.stop.isSome then (d.1, d.2.cut) else d) }).countsWake h).poke (.streamWriteTransferDone h e.who)
    else
      (s.setAux h { a with fetch := a.fetch.map (fun (f : Nat × Fetch) =>
        if f.1 = e.who && f.2.stop.isSome then (f.1, { f.2 with dead := true }) else f) }).countsWake h

/-- The first engine page fault of a context is taken, or its transfer ended where no handler stands. -/
def State.takeEngine (s : State) (h : Nat) : State :=
  let a := s.aux h
  match a.faults with
  | [] => s
  | e :: es =>
    let s := s.setAux h { a with faults := es }
    if s.endsInstead h e.store then (s.faultInstead h).endTransfer h e else s.takeTrap h false (if e.store then 15 else 13) e.va

/-- ENGINE_PAGE_FAULT: a fault that ends its transfer needs no bound. -/
def State.engineNow (s : State) (h : Nat) : State :=
  match (s.aux h).faults with
  | [] => s
  | e :: _ =>
    if !s.ownLevel h then s
    else if s.endsInstead h e.store then s.takeEngine h
    else s.between h (fun s => s.takeEngine h)

/-- Whether COPYLATE is dropped: the firing is run-to-completion or an ordered task, or no handler stands (R450). -/
def State.lateDrops (s : State) (h : Nat) : Bool :=
  (s.ctx h).firing.any (fun f => f.rtc || f.order.isSome) ||
  bits (if s.trapToM h false 30 then (s.core (h / 4)).mtvec else (s.core (h / 4)).stvec) 1 0 = 0

/-- COPYLATE is taken, or dropped. -/
def State.takeLate (s : State) (h : Nat) : State :=
  let a := s.aux h
  match a.lates with
  | [] => s
  | v :: vs =>
    let s := s.setAux h { a with lates := vs }
    if s.lateDrops h then s else s.takeTrap h false 30 v

/-- TRAP_ENTRY (R427): the trap that waited for the chunk before it, or a COPYLATE. -/
def State.trapNow (s : State) (h : Nat) (r : TrapReq) : State :=
  let c := s.ctx h
  let task : Bool := c.older.isNone && s.taskReady h
  if c.trapReq = some r then (if c.clean || task then s.takeTrap h r.int r.cause r.val else s)
  else if !r.int && r.cause = 30 && s.ownLevel h && (s.aux h).lates.head? = some r.val then
    if s.lateDrops h then s.takeLate h else s.between h (fun s => s.takeLate h)
  else s

/-! ### Uncorrectable errors (R452) -/

/-- An error reaches a firing: one fault and one entry UNCORR with the EI kind (R452, R480). -/
def State.errReaches (s : State) (fid L kind : Nat) (addr : Word) : State :=
  match s.firingOf fid with
  | some f => (s.countFault f).elog 2 f.slot L (word (addr.toNat % 2 ^ 60)) (word kind)
  | none => s.elog 2 0 L (word (addr.toNat % 2 ^ 60)) (word kind)

/-- The same with EI set pending (R453). -/
def State.errEi (s : State) (fid L kind : Nat) (addr : Word) : State := (s.errReaches fid L kind addr).setEi fid kind addr

/-- A word that context `h` read: its firing is killed for a hardware cause. -/
def State.errLoad (s : State) (h : Nat) (va : Word) : State :=
  match (s.ctx h).firing with
  | none => s
  | some f => (s.elog 2 f.slot (h / 4) (word (va.toNat % 2 ^ 60)) 0).killByHardware h 5

/-- The bytes of an aligned word that a drain did not write are written 0. -/
def State.zeroRest (s : State) (key : Nat) (o : Chunk) : State :=
  (List.range 8).foldl (fun s i =>
    if o.wbuf.any (fun p => p.1 = key / 8 * 8 + i) then s else s.writeNat (key / 8 * 8 + i) 1 0) s

/-- A partial word that the drain of context `h` merges: the drain completes with the word's other bytes 0. It reaches the firing before the
chunk commits, which may end it. -/
def State.errDrain (s : State) (h key : Nat) (va : Word) : State :=
  match (s.ctx h).older, (s.ctx h).firing with
  | some o, some f =>
    let n := ((List.range 8).filter (fun i => o.wbuf.any (fun p => p.1 = key / 8 * 8 + i))).length
    let s' := s.errEi f.fid (h / 4) 1 va
    let t := if o.csn.isSome then s'.drainDone h else s'.localDone h
    if n = 0 || n = 8 || (t.ctx h).older = some o then s else t.zeroRest key o
  | _, _ => s

/-- Whether the sector under way of a copy reads the word at an address of its source. -/
def Copy.reads (c : Copy) (a : Nat) : Bool :=
  ((c.pieces c.done).flatMap (fun p => c.span false p :: c.scaleSpans false p)).any (fun r => a / 8 * 8 < r.1 + r.2 && r.1 < a / 8 * 8 + 8)

/-- A source word, at an address as the copy gives it, of the copy at the head of a core's queue: the copy ends with ABORT (R452, R453;
log 106). -/
def State.errCopy (s : State) (L a : Nat) : State :=
  match s.copyHead L with
  | some c =>
    if c.checked && !c.parked && c.made.isNone && c.reads a then
      (s.copyEnd c 6).errEi c.fid L 2 (if c.sp false = 3 then 0 else word a)
    else s
  | none => s

/-- An operand or lane of the tile operation that runs: it writes nothing and reports ABORT. -/
def State.errTile (s : State) (L off : Nat) : State :=
  match (s.core L).matq.head? with
  | some t => if t.ready then (s.tileDone L t false 2).errEi t.fid L 3 (word off) else s
  | none => s

/-- A chunk of the owner handler without the datum that it would have written. -/
def Chunk.dry (k : Chunk) : Chunk := if k.csn.isSome then { k with wbuf := [] } else { k with wbuf := [], lines := [], wset := [] }

/-- The datum of a request at its owner: the result will be an abort, and a handler whose chunk has not committed writes nothing. -/
def State.errDatum (s : State) (id : Nat) : State :=
  match tget? s.flight.rcopies id with
  | some r =>
    let s := { s with flight := { s.flight with rcopies := tput s.flight.rcopies id { r with abort := true } } }
    match s.ctxs.find? (fun p => p.2.firing.any (fun f => f.owner = some id)) with
    | some (h, c) => (s.setCtx h { c with young := c.young.dry, older := c.older.map Chunk.dry }).poke (.localCommit h)
    | none => s
  | none => s

/-- A contribution to a combine: its members receive ABORT. -/
def State.errCrozier (s : State) (k tag : Nat) : State :=
  match (s.combinesOf k).find? (fun c => c.tag = tag && c.code.isNone) with
  | none => s
  | some c =>
    let c' := { c with code := some 2 }
    let s := s.setCombines k ((s.combinesOf k).map (fun x => if x.tag = c.tag && x.sends.head? = c.sends.head? then c' else x))
    let s := c.sends.foldl (fun s x => s.errReaches x.2.2.2.2 x.1 0 (word x.2.2.2.1)) s
    (s.crzCollect k c').poke (.crozierContribution k)

/-- An entry of a log that is being merged: dropped and counted (R366). -/
def State.errLogEntry (s : State) (p slice idx : Nat) : State :=
  let q := s.part p
  match q.merges with
  | m :: ms =>
    match m.closed with
    | some g =>
      match (g.ents.filter (fun e => e.slice = slice))[idx]? with
      | some e =>
        let g := { g with ents := g.ents.erase e, dropped := g.dropped + 1 }
        (s.setPart p { q with merges := { m with closed := some g } :: ms }).errReaches m.fid 0xFFF 0 e.va
      | none => s
    | none => s
  | [] => s

/-- An entry of a result cache: it is discarded, and the epoch advances (R461). -/
def State.errCache (s : State) (n i : Nat) : State :=
  let x := s.sorus n
  if i < x.cache.length then
    (s.setSorus n { x with epoch := nextEpoch x.epoch, epochAt := s.gtime, cache := x.cache.eraseIdx i }).elog 2 0 0xFFF 0 0
  else s

/-- UNCORRECTABLE_ERROR. A corrected error is only logged (R452, R480 CORR). -/
def State.errorAt (s : State) : ErrSite → State
  | .corrected L pa => s.elog 1 0 L (word pa) 0
  | .load h va => s.errLoad h va
  | .drain h key va => s.errDrain h key va
  | .copySource L a => s.errCopy L a
  | .tile L off => s.errTile L off
  | .datum id => s.errDatum id
  | .crozier k tag => s.errCrozier k tag
  | .logEntry p slice idx => s.errLogEntry p slice idx
  | .cacheEntry n i => s.errCache n i
  | .cacheRange n => if n < 160 then (s.advanceEpoch n).elog 2 0 0xFFF 0 0 else s

end Sys2Proof.Machine
end

