-- ==== Sys2Proof/Machine/EvFault.lean ====
section
/-! DEFINITION. Happenings of traps, deadlock detection, soft errors and fault injection (R427, R428, R438, R446, R452, R463). -/

namespace Sys2Proof.Machine

/-- TRAP_ENTRY (R427, R450). -/
def execTrapEntry (s : State) : Out :=
  match s.now with
  | some (.trapEntry h int cause val) => .next (if s.paused (h / 64) then s.taken.after 1 (.trapEntry h int cause val)
      else s.taken.trapNow h { int := int, cause := cause, val := val })
  | _ => .next s

/-- INTERRUPT_ENTRY (R428, R453). -/
def execInterruptEntry (s : State) : Out :=
  match s.now with
  | some (.interruptEntry h) => .next (if s.paused (h / 64) then s.taken.after 1 (.interruptEntry h) else s.taken.interruptNow h)
  | _ => .next s

/-- ENGINE_PAGE_FAULT (R446). -/
def execEnginePageFault (s : State) : Out :=
  match s.now with
  | some (.enginePageFault h) => .next (if s.paused (h / 64) then s.taken.after 1 (.enginePageFault h) else s.taken.engineNow h)
  | _ => .next s

/-- DETECTION_TIMER_EXPIRY (R438 to R440). -/
def execDetectionTimerExpiry (s : State) : Out :=
  match s.now with
  | some (.detectionTimerExpiry p slot due) => .next (s.taken.detect p slot due)
  | _ => .next s

/-- UNCORRECTABLE_ERROR (R452). -/
def execUncorrectableError (s : State) : Out :=
  match s.now with
  | some (.uncorrectableError site) => .next (s.taken.errorAt site)
  | _ => .next s

/-- FINJ_WRITE (R463). -/
def execFinjWrite (s : State) : Out :=
  match s.now with
  | some (.finjWrite L fromM v) => .next (s.taken.writeFinj L fromM v)
  | _ => .next s

/-- FINJ_READ (R463). -/
def execFinjRead (s : State) : Out :=
  match s.now with
  | some (.finjRead L) => .next ((s.taken.emit (.data (s.core L).finj)).clearFinj L)
  | _ => .next s

end Sys2Proof.Machine
end

