-- ==== Sys2Proof/Machine/HostOps.lean ====
section
/-! DEFINITION. The host link: CXL.mem accesses (R389), launch windows (R391 to R393), the management BAR (R237), MSI-X tables,
the function-level reset of a virtual function (R396), the partition controller (R397 to R399). -/

namespace Sys2Proof.Machine

/-! ### CXL.mem (R389) -/

/-- Whether a line is one of device memory. -/
def State.deviceLine (s : State) (line : Nat) : Bool := line * 64 + 64 ≤ s.capacity

/-- Whether a grant of a write to a line must wait: the line is pending, or an active reservation delays it (R143). -/
def State.lineHeld (s : State) (line : Nat) : Bool :=
  s.thallus.pending.any (fun p => p.1 = line) ||
  s.thallus.resvs.any (fun v => v.active && sigMeets [line] v.lines && (slicesOf v.lines).contains (sliceOf line))

/-- A host write of one line: granted as a chunk that holds it, and broadcast. -/
def State.hostWrite (s : State) (line : Nat) (data : BitVec 512) : State :=
  if !s.deviceLine line then s
  else if s.lineHeld line then s.after 10 (.hostCxlMemWrite line data)
  else
    let t := (s.deviceCommit [line] none none).stamp [line] (s.thallus.csn + 1)
    t.writeNat (devKey (line * 64)) 64 data.toNat

/-- A host read of one line: committed data, of which the host may hold a copy from here on. -/
def State.hostRead (s : State) (line : Nat) : State :=
  if !s.deviceLine line then s
  else
    let v := BitVec.ofNat 512 (s.readNat (devKey (line * 64)) 64)
    ({ s with thallus := { s.thallus with hostHeld := insertNew s.thallus.hostHeld line } }).emit (.line v)

/-! ### Launch windows (R391 to R393) -/

/-- The partition that window `k` of a slot feeds (R392). -/
def State.windowPart (s : State) (t k : Nat) : Option Nat :=
  (List.range 64).find? (fun p => s.slotOf p = t && bits (s.part p).partcfg 5 4 = k)

/-- The offset of an address of a function's windows in its BAR: slot 0 has them in the management BAR (R391). -/
def windowOff (t o : Nat) : Nat := if t = 0 then 0x180000 + o else o

/-- The words of a header that arrives; one that no write brought is open (log 8). -/
def State.windowHeader (s : State) (w : Tab Word) : List Word × State :=
  (List.range 8).foldl (fun (a : List Word × State) i =>
    match tget? w i with
    | some v => (a.1 ++ [v], a.2)
    | none =>
      let (v, u) := a.2.freeWord
      (a.1 ++ [v], u)) ([], s)

/-- A host write to launch window `k` of slot `t` from word `first` on: a whole header, or one of its words; the header
arrives with its last word. -/
def State.windowWrite (s : State) (t k first : Nat) (ws : List Word) (posted : Bool) : State :=
  let off := windowOff t (0x100 * k + 8 * first)
  if !(t < 16 && k < 4 && ((first = 0 && ws.length = 8) || (first < 8 && ws.length = 1))) then s.hostRefuse t off posted
  else
    let q := s.slot t
    match s.windowPart t k with
    | none => s.hostRefuse t off posted
    | some p =>
      if !bit q.tencfg 63 || !s.hub.ready || s.hub.stopped || q.flr then s.hostRefuse t off posted
      else
        let w := (List.range ws.length).foldl (fun w i => tput w (first + i) (ws.getD i 0)) (tget [] q.windows k)
        if first + ws.length != 8 then s.setSlot t { q with windows := tput q.windows k w }
        else
          let s := s.setSlot t { q with windows := tdel q.windows k }
          let (hdr, s) := s.windowHeader w
          s.poke (.launchHeaderArrival p hdr (.window t off posted))

/-! ### MSI-X (R391) -/

/-- A write of doubleword `i` of a function's MSI-X table; a vector that is unmasked while pending is sent (log 4). -/
def State.msixWrite (s : State) (t i : Nat) (v : Word) : State :=
  let q := s.slot t
  let n := i / 2
  let s := s.setSlot t { q with msix := tput q.msix i v }
  if i % 2 = 1 && !bit v 32 && bit q.pba n then
    (s.setSlot t { s.slot t with pba := setBits q.pba n 1 0 }).emit (.msix t n)
  else s

/-- A write to the windows and tables of a function (R391) at offset `o` of them. -/
def State.functionWrite (s : State) (t o : Nat) (v : Word) (posted : Bool) : State :=
  if o < 0x400 && o % 0x100 < 0x40 then s.windowWrite t (o / 0x100) (o % 0x100 / 8) [v] posted
  else if 0x2000 ≤ o && o < 0x2400 then s.msixWrite t ((o - 0x2000) / 8) v
  else if o = 0x3000 then s
  else s.hostRefuse t (windowOff t o) posted

/-! ### The management BAR (R237) -/

/-- DLCFG (R437). -/
def State.writeDlcfg (s : State) (v : Word) : State :=
  { s with hub := { s.hub with dltime := max 1 (min 1000000 (bits v 19 0)) } }

/-- A write of a debug or trace register on the path of the BAR (R409). -/
def State.barDebug (s : State) (n c : Nat) (v : Word) : State :=
  let x := s.sx n
  if c = 0x7A3 then s.writeDbgrdat (64 * n + bits x.dbgsel 5 0) x.dbgridx v else s.debugPut n none c v

/-- A write through the hub window: before READY, or to an address that is no register, it is refused. -/
def State.windowHubWrite (s : State) (off : Nat) (v : Word) (posted : Bool) : State :=
  match hubReg (off % 0x1000000) with
  | some r => if s.hub.ready then s.hubWrite r v else s.hostRefuse 0 off posted
  | none => s.hostRefuse 0 off posted

/-- A write of the physical function to an aligned doubleword of its management BAR. -/
def State.barWrite (s : State) (off : Nat) (v : Word) (posted : Bool) : State :=
  if off = 0 then s
  else if off = 8 then s.writeMboot (bit v 0)
  else if off = 0x10 then s.writeDlcfg v
  else if off = 0x18 then { s with hub := { s.hub with elogTail := bits v 15 8 } }
  else if 0x8000 ≤ off && off < 0xA000 then s
  else if off = 0x10008 then s
  else if 0x10000 ≤ off && off < 0x110000 then s.writeNat (imageKey (off - 0x10000)) 8 v.toNat
  else if 0x180000 ≤ off && off < 0x190000 then s.functionWrite 0 (off - 0x180000) v posted
  else if 0x200000 ≤ off && off < 0x20A000 && (csrRow (0x7A0 + off % 0x100 / 8)).isSome then
    s.barDebug ((off - 0x200000) / 0x100) (0x7A0 + off % 0x100 / 8) v
  else if 0x1000000 ≤ off && off < 0x2000000 then s.windowHubWrite off v posted
  else s.hostRefuse 0 off posted

/-- Where an offset of a function's BAR0 lies in its windows and tables (R391); those of slot 0 stand in the management BAR. -/
def tableOff (fn off : Nat) : Nat := if fn = 0 then off - 0x180000 else off

/-- Whether an access names an aligned 4-byte part of a function's MSI-X table or pending bits, which PCIe lets the host read and write so
(R391). -/
def msixPart (fn off n : Nat) : Bool :=
  let o := tableOff fn off
  n = 4 && off % 4 = 0 && fn < 16 && (fn != 0 || 0x180000 ≤ off) && ((0x2000 ≤ o && o < 0x2400) || (0x3000 ≤ o && o < 0x3008))

/-- A write of 4 bytes to a function's MSI-X table, the other half of the doubleword kept, or to its read-only pending bits. -/
def State.msixHalf (s : State) (fn off : Nat) (v : Word) : State :=
  let o := tableOff fn off
  if 0x2400 ≤ o then s
  else
    let i := (o - 0x2000) / 8
    s.msixWrite fn i (setBits ((s.slot fn).msixWord i) (8 * (o % 8)) 32 (bits v 31 0))

/-- A host write of an aligned doubleword to a function's BAR0, or of 4 bytes to its MSI-X table. -/
def State.hostBarWrite (s : State) (fn off n : Nat) (v : Word) (posted : Bool) : State :=
  if msixPart fn off n then s.msixHalf fn off v
  else if n != 8 || off % 8 != 0 || 16 ≤ fn then s.hostRefuse fn off posted
  else if fn = 0 then s.barWrite off v posted
  else s.functionWrite fn off v posted

/-- Whether a function's windows and tables list an offset for reading or for a write other than of a launch window (R391). -/
def functionLists (o : Nat) : Bool :=
  (o < 0x400 && o % 0x100 = 0x40) || (0x2000 ≤ o && o < 0x2400) || (0x3000 ≤ o && o < 0x3008)

/-- Whether a BAR lists an offset so that some access to it is allowed other than a write of a launch window. -/
def barLists (fn off : Nat) : Bool :=
  if fn != 0 then functionLists off
  else off < 0x20 || (0x8000 ≤ off && off < 0xA000) || (0x10000 ≤ off && off < 0x110000) ||
    (0x180000 ≤ off && off < 0x190000 && functionLists (off - 0x180000)) ||
    (0x200000 ≤ off && off < 0x20A000 && (csrRow (0x7A0 + off % 0x100 / 8)).isSome) || (0x1000000 ≤ off && off < 0x2000000)

/-- A host access that R393 turns away. -/
def State.hostInvalid (s : State) (fn off n : Nat) (posted : Bool) : State :=
  if msixPart fn off n || (n = 8 && off % 8 = 0 && barLists fn off) then s else s.hostRefuse fn off posted

/-! ### What the host reads (R237, R391, R479, R480) -/

/-- `ELOGPTR` (R479). -/
def Hub.elogPtr (g : Hub) : Word := word (g.elogLost * 2 ^ 48 + g.elogTail * 2 ^ 8 + g.elogHead)

/-- Doubleword `i` of the module error log (R480). An entry never written reads 0 (log 15). -/
def Hub.elogWord (g : Hub) (i : Nat) : Word :=
  match tget? g.elog (i / 4) with
  | none => 0
  | some e =>
    if i % 4 = 0 then word e.time
    else if i % 4 = 1 then word (e.kind * 2 ^ 56 + e.tslot * 2 ^ 52 + e.count * 2 ^ 32 + e.core)
    else if i % 4 = 2 then e.addr
    else e.detail

/-- A read of the windows and tables of a function at offset `o` of them; none is an error response. -/
def State.functionRead (s : State) (t o : Nat) : Option Word :=
  if o < 0x400 && o % 0x100 = 0x40 then
    some (match s.windowPart t (o / 0x100) with | some p => (s.part p).lqstat | none => 0)
  else if 0x2000 ≤ o && o < 0x2400 then some ((s.slot t).msixWord ((o - 0x2000) / 8))
  else if o = 0x3000 then some (s.slot t).pba
  else none

/-- A read of an aligned doubleword of a debug or trace register of sorus `n` on the path of the BAR (R409). What the cores held before a
failure of the supply is lost: it reads as a free value (R469; log 8). -/
def State.barDebugRead (s : State) (n c : Nat) : Word :=
  if s.hub.coreLost then Config.freeWord (s.fresh + 65536 * n + c)
  else if c = 0x7A3 then s.dbgrdat n (s.sx n).dbgsel (s.sx n).dbgridx else s.debugGet n none c

/-- What the host reads at an aligned doubleword of a function's BAR0; none is an error response (R393). A read that clears
is the happening PSTAT_READ beside it. -/
def State.hostBarRead (s : State) (fn off n : Nat) : Option Word :=
  if msixPart fn off n then
    (s.functionRead fn (tableOff fn off / 8 * 8)).map (fun w => word (bits w (8 * (off % 8) + 31) (8 * (off % 8))))
  else if n != 8 || off % 8 != 0 || 16 ≤ fn then none
  else if fn != 0 then s.functionRead fn off
  else if off = 0 then some s.mstat
  else if off = 8 then some s.mboot
  else if off = 0x10 then some (word s.hub.dltime)
  else if off = 0x18 then some s.hub.elogPtr
  else if 0x8000 ≤ off && off < 0xA000 then some (s.hub.elogWord ((off - 0x8000) / 8))
  else if 0x10000 ≤ off && off < 0x110000 then some (word (s.readNat (imageKey (off - 0x10000)) 8))
  else if 0x180000 ≤ off && off < 0x190000 then s.functionRead 0 (off - 0x180000)
  else if 0x200000 ≤ off && off < 0x20A000 && (csrRow (0x7A0 + off % 0x100 / 8)).isSome then
    some (s.barDebugRead ((off - 0x200000) / 0x100) (0x7A0 + off % 0x100 / 8))
  else if 0x1000000 ≤ off && off < 0x2000000 then
    some (match hubReg (off % 0x1000000) with | some r => s.hubRead r | none => 0)
  else none

/-! ### Function-level reset of a virtual function (R396) -/

/-- Launches that no resident slot holds yet complete with ABORTED: their records are written, no MSI-X follows. -/
def State.abortQueued (s : State) (p : Nat) : State :=
  let q := s.part p
  let hs := q.hubq ++ q.ov
  let s := s.setPart p { q with hubq := [], ov := [], ovHead := 0 }
  hs.foldl (fun s h =>
    let l : Launch := { hdr := h, silent := true }
    (s.writeRecord p l 5).signal l 5) s

/-- The log records a kill by a function-level reset as one of another hardware cause (R431, R480; log 84). -/
def State.flrEntry (s : State) (L : Nat) (f : Firing) (pc : Word) : State := s.elog 5 f.slot L pc (word f.redel)

/-- The firings of a launch are entered in the log, the saved ones included. -/
def State.flrEntries (s : State) (k : Nat) : State :=
  let s := s.ctxs.foldl (fun s q => match q.2.firing with
    | some f => if f.key = some k then s.flrEntry (q.1 / 4) f q.2.pc else s
    | none => s) s
  (s.part (k / 64)).saved.foldl (fun s v => if v.firing.key = some k then s.flrEntry v.core v.firing v.pc else s) s

/-- The resident launches of a partition complete with ABORTED; their firings are killed. -/
def State.abortResident (s : State) (p : Nat) : State :=
  (s.part p).launches.foldl (fun s q =>
    let k := 64 * p + q.1
    (((s.setLaunch k { q.2 with force := some 5, silent := true }).flrEntries k).killLaunch k).poke (.launchCompletion p q.1)) s

/-- The other firings of a slot are killed. -/
def State.killSlot (s : State) (t : Nat) : State :=
  (s.ctxs.map (·.1)).foldl (fun s h => match (s.ctx h).firing with
    | some f => if f.slot = t && f.owner.isNone then (s.flrEntry (h / 4) f (s.ctx h).pc).kill h false else s
    | none => s) s

/-- The copies of a slot are cancelled. -/
def State.cancelSlot (s : State) (t : Nat) : State :=
  s.flight.copies.foldl (fun s p => if p.2.slot = t then s.cancelCopy p.2 else s) s

/-- Every export window of a slot is revoked (R403). -/
def State.revokeSlot (s : State) (t : Nat) : State :=
  (s.fabric.expw1.filter (fun p => bits p.2 27 24 = t)).foldl (fun s p => s.revokeWindow p.1) s

/-- The reset of virtual function `t` begins. -/
def State.flrBegin (s : State) (t : Nat) : State :=
  if t = 0 || 16 ≤ t then s
  else
    let s := s.setSlot t { s.slot t with flr := true, windows := [] }
    let s := s.cancelSlot t
    let s := (s.partsOf t).foldl (fun s p => (s.abortQueued p).abortResident p) s
    ((s.killSlot t).revokeSlot t).after 100000000 (.vfResetEnd t)

/-- It ends once the launches it aborted have completed: the windows accept writes again. -/
def State.flrEnd (s : State) (t : Nat) : State :=
  if !(s.slot t).flr then s
  else if (s.partsOf t).any (fun p => (s.part p).launches.any (fun l => l.2.silent)) then s.after 1000 (.vfResetEnd t)
  else s.setSlot t { s.slot t with flr := false }

/-! ### The partition controller (R398, R399) -/

/-- The partition that the controller sizes for a slot: its lowest with AUTO 1 (R397). -/
def State.autoPart (s : State) (t : Nat) : Option Nat :=
  (List.range 64).find? (fun p => s.slotOf p = t && bit (s.part p).partcfg 7)

/-- The sori of a partition. -/
def State.soriOf (s : State) (p : Nat) : List Nat :=
  (List.range 160).filter (fun n => (s.sorus n).pvalid && (s.sorus n).part = p)

/-- TARGET of a slot. -/
def Slot.target (q : Slot) : Nat := bits q.tsvc 63 40

/-- The slots that take part. -/
def State.sized (s : State) : List Nat :=
  (List.range 16).filter (fun t => bit (s.slot t).tencfg 63 && 0 < (s.slot t).target && (s.autoPart t).isSome)

/-- Whether the achieved ratio of slot `a` lies below that of `b`. -/
def State.ratioLt (s : State) (a b : Nat) : Bool :=
  (s.slot a).achieved * (s.slot b).target < (s.slot b).achieved * (s.slot a).target

/-- The first slot of a list that no other comes before. -/
def firstBest (better : Nat → Nat → Bool) : List Nat → Option Nat
  | [] => none
  | t :: ts => some (ts.foldl (fun b u => if better u b then u else b) t)

/-- The slot that receives. -/
def State.needy (s : State) : Option Nat :=
  firstBest (fun a b => s.ratioLt a b) (s.sized.filter (fun t => (s.slot t).achieved < (s.slot t).target))

/-- The slot that gives. -/
def State.donor (s : State) : Option Nat :=
  firstBest (fun a b => s.ratioLt b a) (s.sized.filter (fun t =>
    (s.slot t).target < (s.slot t).achieved &&
    (s.autoPart t).any (fun p => bits (s.slot t).tsvc 39 32 < (s.soriOf p).length)))

/-- The sorus that moves. -/
def State.movable (s : State) : Option Nat :=
  match (List.range 160).find? (fun n => !(s.sorus n).pvalid && !(s.sorus n).leaving) with
  | some n => some n
  | none => s.donor.bind (fun t => (s.autoPart t).bind (fun p => ((s.soriOf p).filter (fun n => !(s.sorus n).leaving)).getLast?))

/-- At each millisecond ACHIEVED takes the count of the last whole one, and the controller marks at most one sorus. -/
def State.controllerStep (s : State) : State :=
  let s := (List.range 16).foldl (fun s t =>
    let q := s.slot t
    if q.achieved = q.groupsNow && q.groupsNow = 0 then s
    else s.setSlot t { q with achieved := min (2 ^ 24 - 1) q.groupsNow, groupsNow := 0 }) s
  match s.needy.bind (fun t => s.autoPart t), s.movable with
  | some p, some n => s.writeSpart n (word (0x80 + p))
  | _, _ => s

end Sys2Proof.Machine
end

