-- ==== Sys2Proof/Machine/EvHost.lean ====
section
/-! DEFINITION. Happenings of the host link, of hub registers and of the partition controller (R61, R64, R130, R235, R237, R389 to R399). -/

namespace Sys2Proof.Machine

/-- HCDATA_WRITE (R235). -/
def execHcdataWrite (s : State) : Out :=
  match s.now with
  | some (.hcdataWrite a v) => .next (match hubReg a with | some r => s.taken.hubWrite r v | none => s.taken)
  | _ => .next s

/-- HUB_WINDOW_WRITE (R237). -/
def execHubWindowWrite (s : State) : Out :=
  match s.now with
  | some (.hubWindowWrite fn off n v posted) => .next (s.taken.hostBarWrite fn off n v posted)
  | _ => .next s

/-- PTROOT_WRITE (R130). -/
def execPtrootWrite (s : State) : Out :=
  match s.now with
  | some (.ptrootWrite p v) => .next (if p < 64 then s.taken.putPtroot p v else s.taken)
  | _ => .next s

/-- TLBINV_WRITE (R130). -/
def execTlbinvWrite (s : State) : Out :=
  match s.now with
  | some (.tlbinvWrite p v) => .next (if p < 64 then s.taken.putTlbinv p v else s.taken)
  | _ => .next s

/-- BOOSTLVL_WRITE (R61). -/
def execBoostlvlWrite (s : State) : Out :=
  match s.now with
  | some (.boostlvlWrite h v) => .next (s.taken.writeBoost h v)
  | _ => .next s

/-- PPOOL_WRITE (R64). -/
def execPpoolWrite (s : State) : Out :=
  match s.now with
  | some (.ppoolWrite t v) => .next (if t < 16 then s.taken.hubWrite (.ppool t) v else s.taken)
  | _ => .next s

/-- HOST_CXL_MEM_WRITE (R389). -/
def execHostCxlMemWrite (s : State) : Out :=
  match s.now with
  | some (.hostCxlMemWrite line data) => .next (s.taken.hostWrite line data)
  | _ => .next s

/-- HOST_CXL_MEM_READ (R389). -/
def execHostCxlMemRead (s : State) : Out :=
  match s.now with
  | some (.hostCxlMemRead line) => .next (s.taken.hostRead line)
  | _ => .next s

/-- LAUNCH_WINDOW_WRITE (R392). -/
def execLaunchWindowWrite (s : State) : Out :=
  match s.now with
  | some (.launchWindowWrite t k first ws posted) => .next (s.taken.windowWrite t k first ws posted)
  | _ => .next s

/-- HOST_BAR_INVALID_ACCESS (R393). -/
def execHostBarInvalidAccess (s : State) : Out :=
  match s.now with
  | some (.hostBarInvalidAccess fn off n posted) => .next (s.taken.hostInvalid fn off n posted)
  | _ => .next s

/-- VF_FUNCTION_LEVEL_RESET (R396). -/
def execVfFunctionLevelReset (s : State) : Out :=
  match s.now with
  | some (.vfFunctionLevelReset t) => .next (s.taken.flrBegin t)
  | _ => .next s

/-- VF_RESET_END (R396). -/
def execVfResetEnd (s : State) : Out :=
  match s.now with
  | some (.vfResetEnd t) => .next (s.taken.flrEnd t)
  | _ => .next s

/-- SPART_WRITE (R397, R408). -/
def execSpartWrite (s : State) : Out :=
  match s.now with
  | some (.spartWrite n v) => .next (if n < 160 then s.taken.writeSpart n v else s.taken)
  | _ => .next s

/-- PARTITION_CONTROLLER_STEP (R399). -/
def execPartitionControllerStep (s : State) : Out :=
  match s.now with
  | some (.partitionControllerStep) => .next (s.taken.controllerStep)
  | _ => .next s

end Sys2Proof.Machine
end

