-- ==== Sys2Proof/Machine/EvPower.lean ====
section
/-! DEFINITION. Happenings of clocks, waits and power (R47 to R75). -/

namespace Sys2Proof.Machine

/-- REGULATOR_SLEW_END (R47). -/
def execRegulatorSlewEnd (s : State) : Out :=
  match s.now with
  | some (.regulatorSlewEnd n) => .next (s.taken.slewEnd n)
  | _ => .next s

/-- TRATIO_WINDOW_END (R55): the window that ends now is the one read from 40 ns on. What it counted stands in the histories of
the clocks, from which a read computes it (`State.tratio`), so that its end changes nothing. -/
def execTratioWindowEnd (s : State) : Out :=
  match s.now with
  | some .tratioWindowEnd => .next s.taken
  | _ => .next s

/-- WAIT_C_EXPIRY (R56): the clock of the core has run the cycles. -/
def execWaitCExpiry (s : State) : Out :=
  match s.now with
  | some (.waitCExpiry h) =>
    .next (match (s.ctx h).wait with
      | .cycles n => if (s.ctx h).st = .waiting && (s.ctx h).waitOk && n ≤ s.cycles (h / 4) then s.taken.wakeHere h else s.taken
      | _ => s.taken)
  | _ => .next s

/-- WAIT_T_EXPIRY (R56): in the first cycle of the core's clock in which its copy of the time has reached the target. -/
def execWaitTExpiry (s : State) : Out :=
  match s.now with
  | some (.waitTExpiry h) =>
    .next (match (s.ctx h).wait with
      | .time t => if (s.ctx h).st = .waiting && (s.ctx h).waitOk && t ≤ s.localTime (h / 4) && !s.paused (h / 64) then s.taken.wakeHere h else s.taken
      | _ => s.taken)
  | _ => .next s

/-- BOOST_REQUEST_SAMPLE (R63, R64). -/
def execBoostRequestSample (s : State) : Out :=
  match s.now with
  | some .boostRequestSample => .next s.taken.sampleAll
  | _ => .next s

/-- PERMIT_BOUNDARY (R60, R66). -/
def execPermitBoundary (s : State) : Out :=
  match s.now with
  | some .permitBoundary => .next s.taken.permitAll
  | _ => .next s

/-- CONTROLLER_STEP (R71, R73, R74). -/
def execControllerStep (s : State) : Out :=
  match s.now with
  | some .controllerStep => .next s.taken.controlAll
  | _ => .next s

/-- ADMISSION_REQUEST (R73): at once, when nothing waits before it and the test holds; else it stays queued. -/
def execAdmissionRequest (s : State) : Out :=
  match s.now with
  | some (.admissionRequest h) => .next (s.taken.admitFresh (h / 64) (s.sorus (h / 64)).admq.length)
  | _ => .next s

/-- BALLAST_LIMIT (R74): the episode that has lasted 2 µs stops. -/
def execBallastLimit (s : State) : Out :=
  match s.now with
  | some (.ballastLimit n) =>
    .next (if s.gtime < (s.sorus n).ballastAt + 2000 then s.taken else s.taken.setSorus n { s.sorus n with ballast := false })
  | _ => .next s

/-- EXIT_GROUP_RELEASE (R75): one exit group of a launch barrier resumes, or of a gang receives its work words. -/
def execExitGroupRelease (s : State) : Out :=
  match s.now with
  | some (.exitGroupRelease p slot grp gang) =>
    .next (if gang then s.taken.gangRelease p slot grp else s.taken.lbarRelease p slot grp)
  | _ => .next s

end Sys2Proof.Machine
end

