-- ==== Sys2Proof/Machine/EvRemote.lean ====
section
/-! DEFINITION. Happenings of messages and remote atomics (R83, R349, R350, R359, R363, R456 to R460). -/

namespace Sys2Proof.Machine

/-- OWNER_REQUEST_ARRIVAL (R363). -/
def execOwnerRequestArrival (s : State) : Out :=
  match s.now with
  | some (.ownerRequestArrival id) => .next (s.taken.ownerArrive id)
  | _ => .next s

/-- REPLY_ARRIVAL (R359). -/
def execReplyArrival (s : State) : Out :=
  match s.now with
  | some (.replyArrival id) => .next (s.taken.replyCome id)
  | _ => .next s

/-- RESULT_CACHE_RETIREMENT (R363). -/
def execResultCacheRetirement (s : State) : Out :=
  match s.now with
  | some (.resultCacheRetirement n) => .next (s.taken.retireCache n)
  | _ => .next s

/-- RETRANSMISSION (R457). -/
def execRetransmission (s : State) : Out :=
  match s.now with
  | some (.retransmission rid) => .next (s.taken.resend rid)
  | _ => .next s

/-- REQUEST_LAST_DEADLINE (R457, R460). -/
def execRequestLastDeadline (s : State) : Out :=
  match s.now with
  | some (.requestLastDeadline rid) => .next (s.taken.lastDeadline rid)
  | _ => .next s

/-- SERIAL_WRAP_RELEASE (R458). -/
def execSerialWrapRelease (s : State) : Out :=
  match s.now with
  | some (.serialWrapRelease rid) => .next (s.taken.wrapRelease rid)
  | _ => .next s

/-- MESSAGE_ARRIVAL (R349, R478). -/
def execMessageArrival (s : State) : Out :=
  match s.now with
  | some (.messageArrival id) => .next (s.taken.arriveMsg id)
  | _ => .next s

/-- MESSAGE_SEND_RELEASE (R350). -/
def execMessageSendRelease (s : State) : Out :=
  match s.now with
  | some (.messageSendRelease id) => .next (s.taken.releaseMsg id)
  | _ => .next s

/-- POST_GO (R83). -/
def execPostGo (s : State) : Out :=
  match s.now with
  | some (.postGo L v) => .next (if L < 2560 then s.taken.hubWrite (.chpost L 2) v else s.taken)
  | _ => .next s

/-- HTE_HUB_WRITE (R83). -/
def execHteHubWrite (s : State) : Out :=
  match s.now with
  | some (.hteHubWrite L n v) => .next (if L < 2560 && n < 16 then s.taken.hubWrite (.hte L n) v else s.taken)
  | _ => .next s

end Sys2Proof.Machine
end

