-- ==== Sys2Proof/Machine/EvScan.lean ====
section
/-! DEFINITION. Happenings of scan tests and of the core map (R262 to R267). -/

namespace Sys2Proof.Machine

/-- The pattern starts when the four contexts of the core are Free (R262). -/
def State.drainEnd (s : State) (L : Nat) : State :=
  match s.scanOn L with
  | none => s
  | some (sid, k) =>
    if k.state != 1 || !(List.range 4).all (fun c => (s.ctx (4 * L + c)).st = .free) then s
    else
      let s := { s with flight := { s.flight with scans := tput s.flight.scans sid { k with state := 2, since := s.gtime } } }
      (s.setCore L { s.core L with test := .running }).after 200000 (.scanPatternEnd L sid)

/-- SCAN_DRAIN_END (R262). -/
def execScanDrainEnd (s : State) : Out :=
  match s.now with
  | some (.scanDrainEnd L) => .next (s.taken.drainEnd L)
  | _ => .next s

/-- SCAN_DRAIN_TIMEOUT (R262). -/
def execScanDrainTimeout (s : State) : Out :=
  match s.now with
  | some (.scanDrainTimeout _ sid) =>
    .next (if (tget? s.flight.scans sid).any (fun k => k.state = 1) then s.taken.scanFinish sid 5 0 else s.taken)
  | _ => .next s

/-- SCAN_PATTERN_END (R262, R263). -/
def execScanPatternEnd (s : State) : Out :=
  match s.now with
  | some (.scanPatternEnd L sid) => .next (s.taken.patternEnd L sid)
  | _ => .next s

/-- RETURN_TO_SERVICE (R264): the core is in test and no scan holds it. -/
def execReturnToService (s : State) : Out :=
  match s.now with
  | some (.returnToService L) =>
    .next (if (s.core L).test != .none && (s.scanOn L).isNone then (s.taken.coreEndPhase L).serve L else s.taken)
  | _ => .next s

/-- LCMAP_ABSENT_SET (R265, R267). -/
def execLcmapAbsentSet (s : State) : Out :=
  match s.now with
  | some (.lcmapAbsentSet L) => .next (s.taken.mapRemove L)
  | _ => .next s

/-- LCMAP_ABSENT_CLEAR (R265, R266). -/
def execLcmapAbsentClear (s : State) : Out :=
  match s.now with
  | some (.lcmapAbsentClear L) => .next (s.taken.mapAdd L)
  | _ => .next s

end Sys2Proof.Machine
end

