-- ==== Sys2Proof/Machine/RegUse.lean ====
section
/-! DEFINITION. The scalar registers that an instruction reads or writes: one that awaits an answer holds the instruction
back (R134, R333, R359). -/

namespace Sys2Proof.Machine

/-- The scalar registers of an instruction. A happening has none. -/
def regsUsed : Instr → List Reg
  | .lb rd rs _ => [rd, rs]
  | .lh rd rs _ => [rd, rs]
  | .lw rd rs _ => [rd, rs]
  | .ld rd rs _ => [rd, rs]
  | .lbu rd rs _ => [rd, rs]
  | .lhu rd rs _ => [rd, rs]
  | .lwu rd rs _ => [rd, rs]
  | .sb rt rs _ => [rt, rs]
  | .sh rt rs _ => [rt, rs]
  | .sw rt rs _ => [rt, rs]
  | .sd rt rs _ => [rt, rs]
  | .beq rs rt _ => [rs, rt]
  | .bne rs rt _ => [rs, rt]
  | .blt rs rt _ => [rs, rt]
  | .bge rs rt _ => [rs, rt]
  | .bltu rs rt _ => [rs, rt]
  | .bgeu rs rt _ => [rs, rt]
  | .jalr rd rs _ => [rd, rs]
  | .jal rd _ => [rd]
  | .lui rd _ => [rd]
  | .auipc rd _ => [rd]
  | .addi rd rs _ => [rd, rs]
  | .slti rd rs _ => [rd, rs]
  | .sltiu rd rs _ => [rd, rs]
  | .xori rd rs _ => [rd, rs]
  | .ori rd rs _ => [rd, rs]
  | .andi rd rs _ => [rd, rs]
  | .slli rd rs _ => [rd, rs]
  | .srli rd rs _ => [rd, rs]
  | .srai rd rs _ => [rd, rs]
  | .addiw rd rs _ => [rd, rs]
  | .slliw rd rs _ => [rd, rs]
  | .srliw rd rs _ => [rd, rs]
  | .sraiw rd rs _ => [rd, rs]
  | .add rd rs rt => [rd, rs, rt]
  | .sll rd rs rt => [rd, rs, rt]
  | .slt rd rs rt => [rd, rs, rt]
  | .sltu rd rs rt => [rd, rs, rt]
  | .xor rd rs rt => [rd, rs, rt]
  | .srl rd rs rt => [rd, rs, rt]
  | .or rd rs rt => [rd, rs, rt]
  | .and rd rs rt => [rd, rs, rt]
  | .sub rd rs rt => [rd, rs, rt]
  | .sra rd rs rt => [rd, rs, rt]
  | .mul rd rs rt => [rd, rs, rt]
  | .mulh rd rs rt => [rd, rs, rt]
  | .mulhsu rd rs rt => [rd, rs, rt]
  | .mulhu rd rs rt => [rd, rs, rt]
  | .div rd rs rt => [rd, rs, rt]
  | .divu rd rs rt => [rd, rs, rt]
  | .rem rd rs rt => [rd, rs, rt]
  | .remu rd rs rt => [rd, rs, rt]
  | .addw rd rs rt => [rd, rs, rt]
  | .sllw rd rs rt => [rd, rs, rt]
  | .srlw rd rs rt => [rd, rs, rt]
  | .subw rd rs rt => [rd, rs, rt]
  | .sraw rd rs rt => [rd, rs, rt]
  | .mulw rd rs rt => [rd, rs, rt]
  | .divw rd rs rt => [rd, rs, rt]
  | .divuw rd rs rt => [rd, rs, rt]
  | .remw rd rs rt => [rd, rs, rt]
  | .remuw rd rs rt => [rd, rs, rt]
  | .fence _ _ _ _ _ => []
  | .ecall => []
  | .ebreak => []
  | .csrrw rd _ rs => [rd, rs]
  | .csrrs rd _ rs => [rd, rs]
  | .csrrc rd _ rs => [rd, rs]
  | .csrrwi rd _ _ => [rd]
  | .csrrsi rd _ _ => [rd]
  | .csrrci rd _ _ => [rd]
  | .vadd _ _ _ _ _ => []
  | .vsub _ _ _ _ _ => []
  | .vmul _ _ _ _ _ => []
  | .vsel _ _ _ _ _ => []
  | .vsadd _ _ _ _ _ => []
  | .vssub _ _ _ _ _ => []
  | .vmin _ _ _ _ _ => []
  | .vmax _ _ _ _ _ => []
  | .vminu _ _ _ _ _ => []
  | .vmaxu _ _ _ _ _ => []
  | .vand _ _ _ _ _ => []
  | .vor _ _ _ _ _ => []
  | .vxor _ _ _ _ _ => []
  | .vsll _ _ _ _ _ => []
  | .vsrl _ _ _ _ _ => []
  | .vsra _ _ _ _ _ => []
  | .vfadd _ _ _ _ _ => []
  | .vfsub _ _ _ _ _ => []
  | .vfmul _ _ _ _ _ => []
  | .vfma _ _ _ _ _ => []
  | .vfmin _ _ _ _ _ => []
  | .vfmax _ _ _ _ _ => []
  | .vfdiv _ _ _ _ _ => []
  | .vfexp2 _ _ _ _ => []
  | .vflog2 _ _ _ _ => []
  | .vfrcp _ _ _ _ => []
  | .vfrsqrt _ _ _ _ => []
  | .vfsqrt _ _ _ _ => []
  | .vftanh _ _ _ _ => []
  | .vfsig _ _ _ _ => []
  | .vferf _ _ _ _ => []
  | .vcmpeq _ _ _ _ _ => []
  | .vcmplt _ _ _ _ _ => []
  | .vcmple _ _ _ _ _ => []
  | .vcmpltu _ _ _ _ _ => []
  | .vfcmpeq _ _ _ _ _ => []
  | .vfcmplt _ _ _ _ _ => []
  | .vfcmple _ _ _ _ _ => []
  | .vfcmpun _ _ _ _ _ => []
  | .vmacc _ _ _ _ => []
  | .vdot2 _ _ _ _ => []
  | .vdot4 _ _ _ _ => []
  | .vnarrow _ _ _ _ => []
  | .accz _ => []
  | .accst _ xb => [xb]
  | .accld _ xb => [xb]
  | .vxchg _ _ => []
  | .vld _ _ xb => [xb]
  | .vst _ _ xb => [xb]
  | .vlds _ _ xb xs => [xb, xs]
  | .vsts _ _ xb xs => [xb, xs]
  | .vldx _ _ xb _ => [xb]
  | .vstx _ _ xb _ => [xb]
  | .vldf _ _ _ xb => [xb]
  | .pand _ _ _ => []
  | .por _ _ _ => []
  | .pxor _ _ _ => []
  | .pandn _ _ _ => []
  | .pnot _ _ => []
  | .pcnt xd _ => [xd]
  | .pfirst xd _ => [xd]
  | .plt _ xs => [xs]
  | .vredsum _ xd _ => [xd]
  | .vredmax _ xd _ => [xd]
  | .vredmin _ xd _ => [xd]
  | .vfredsum _ xd _ => [xd]
  | .vfredmax _ xd _ => [xd]
  | .vfredmin _ xd _ => [xd]
  | .vslideup _ _ xn => [xn]
  | .vslidedn _ _ xn => [xn]
  | .vperm _ _ _ => []
  | .vbcast _ _ xs => [xs]
  | .vget xd _ xi => [xd, xi]
  | .vset _ xv xi => [xv, xi]
  | .vcvt _ _ _ _ _ _ => []
  | .mma _ xc xa xb => [xc, xa, xb]
  | .mmav _ xc xa xb => [xc, xa, xb]
  | .mmat _ xc xa xb => [xc, xa, xb]
  | .aclr xs => [xs]
  | .anarrow _ _ _ xm xg => [xm, xg]
  | .ald xg xm => [xg, xm]
  | .ast xg xm => [xg, xm]
  | .amovv _ xg => [xg]
  | .amova xg _ => [xg]
  | .unfcfg xs => [xs]
  | .qbind _ xs => [xs]
  | .qunbind _ => []
  | .qld _ _ => []
  | .qst _ _ => []
  | .qldx xd _ => [xd]
  | .qstx _ xs => [xs]
  | .qpos xd _ => [xd]
  | .qflush _ => []
  | .cpyGo xd xp => [xd, xp]
  | .cpyGoM xd xp xr => [xd, xp, xr]
  | .cpyCancel _ => []
  | .cpyProg xd xn => [xd, xn]
  | .waitc _ _ _ _ => []
  | .ascale xg xs => [xg, xs]
  | .send _ _ xt xw0 xw1 => [xt, xw0, xw1]
  | .sendv _ _ xt xn _ => [xt, xn]
  | .reply xw0 xw1 => [xw0, xw1]
  | .msgrd xd => [xd]
  | .msgsrc xd => [xd]
  | .chon _ => []
  | .choff _ => []
  | .rmadd _ xd xv xa => [xd, xv, xa]
  | .rmand _ xd xv xa => [xd, xv, xa]
  | .rmor _ xd xv xa => [xd, xv, xa]
  | .rmxor _ xd xv xa => [xd, xv, xa]
  | .rmmin _ xd xv xa => [xd, xv, xa]
  | .rmmax _ xd xv xa => [xd, xv, xa]
  | .rmminu _ xd xv xa => [xd, xv, xa]
  | .rmmaxu _ xd xv xa => [xd, xv, xa]
  | .rmswap _ xd xv xa => [xd, xv, xa]
  | .rmcas _ xd xv xa => [xd, xv, xa]
  | .rmaddI32 _ xd xv xa => [xd, xv, xa]
  | .rmandI32 _ xd xv xa => [xd, xv, xa]
  | .rmorI32 _ xd xv xa => [xd, xv, xa]
  | .rmxorI32 _ xd xv xa => [xd, xv, xa]
  | .rmminI32 _ xd xv xa => [xd, xv, xa]
  | .rmmaxI32 _ xd xv xa => [xd, xv, xa]
  | .rmminuI32 _ xd xv xa => [xd, xv, xa]
  | .rmmaxuI32 _ xd xv xa => [xd, xv, xa]
  | .rmswapI32 _ xd xv xa => [xd, xv, xa]
  | .rmcasI32 _ xd xv xa => [xd, xv, xa]
  | .rmfadd _ xd xv xa => [xd, xv, xa]
  | .rmfmin _ xd xv xa => [xd, xv, xa]
  | .rmfmax _ xd xv xa => [xd, xv, xa]
  | .logapp xa xv => [xa, xv]
  | .logmrg xd xa => [xd, xa]
  | .tktget xd xa => [xd, xa]
  | .tktwait xa xv => [xa, xv]
  | .tktadv xa => [xa]
  | .bararr xa xv => [xa, xv]
  | .barwait xd xa => [xd, xa]
  | .gbar xd => [xd]
  | .lbar xd xa => [xd, xa]
  | .chunkend => []
  | .otdecl xd xa xv => [xd, xa, xv]
  | .launch xd xa => [xd, xa]
  | .fenceX _ _ => []
  | .crzsendAdd xa xo => [xa, xo]
  | .crzsendMax xa xo => [xa, xo]
  | .crzsendMin xa xo => [xa, xo]
  | .crzsendAnd xa xo => [xa, xo]
  | .crzsendOr xa xo => [xa, xo]
  | .crzsendXor xa xo => [xa, xo]
  | .crzsendBadd xa xo => [xa, xo]
  | .crzrecv xd xa => [xd, xa]
  | .halt => []
  | .haltR xm xn => [xm, xn]
  | .waitC xs => [xs]
  | .waitT xs => [xs]
  | .waitTr xs => [xs]
  | .breq _ _ => []
  | .eretS => []
  | .eretM => []
  | .tron => []
  | .troff => []
  | .trmark xs => [xs]
  | .capon _ => []
  | .capoff _ => []
  | .caprd xd _ => [xd]
  | .scanrun xd xs => [xd, xs]
  | .scanstat xd => [xd]
  | .scanabort => []
  | .maprd xd xs => [xd, xs]
  | .maprm xs => [xs]
  | .mapadd xs => [xs]
  | .preq xd xs => [xd, xs]
  | .fundamentalReset => []
  | .pfFunctionLevelReset => []
  | .secondaryBusReset => []
  | .bringupPhaseEnd => []
  | .configRequest => []
  | .mbootGo => []
  | .imageCheck => []
  | .rawRailChange => []
  | .regulatorSlewEnd => []
  | .tratioWindowEnd => []
  | .waitCExpiry => []
  | .waitTExpiry => []
  | .boostRequestSample => []
  | .permitBoundary => []
  | .controllerStep => []
  | .admissionRequest => []
  | .ballastLimit => []
  | .exitGroupRelease => []
  | .selection => []
  | .startingComplete => []
  | .bankWakeComplete => []
  | .retentionExpiry => []
  | .groupDispatch => []
  | .launchHeaderArrival => []
  | .hubQueueRefill => []
  | .residentSlotCopy => []
  | .sorusPass => []
  | .preemptionRequest => []
  | .safePoint => []
  | .saveComplete => []
  | .restoreComplete => []
  | .launchCompletion => []
  | .grant => []
  | .broadcastArrival => []
  | .drainComplete => []
  | .localCommit => []
  | .reservationTimeout => []
  | .loadDataReturn => []
  | .tileOperationComplete => []
  | .copyHeadCheck => []
  | .copySectorWritten => []
  | .streamFetchReturn => []
  | .streamWriteTransferDone => []
  | .barrierUpdate => []
  | .exchangeComplete => []
  | .groupBarrierComplete => []
  | .launchBarrierComplete => []
  | .logMergeDone => []
  | .crozierContribution => []
  | .ownerRequestArrival => []
  | .replyArrival => []
  | .resultCacheRetirement => []
  | .retransmission => []
  | .serialWrapRelease => []
  | .messageArrival => []
  | .messageSendRelease => []
  | .postGo => []
  | .hteHubWrite => []
  | .scanDrainEnd => []
  | .scanDrainTimeout => []
  | .scanPatternEnd => []
  | .lcmapAbsentSet => []
  | .lcmapAbsentClear => []
  | .hcdataWrite => []
  | .hubWindowWrite => []
  | .ptrootWrite => []
  | .tlbinvWrite => []
  | .boostlvlWrite => []
  | .ppoolWrite => []
  | .hostCxlMemWrite => []
  | .hostCxlMemRead => []
  | .launchWindowWrite => []
  | .hostBarInvalidAccess => []
  | .vfFunctionLevelReset => []
  | .vfResetEnd => []
  | .spartWrite => []
  | .partitionControllerStep => []
  | .datagramArrival => []
  | .exportRequest => []
  | .revoke => []
  | .revokeDrainEnd => []
  | .bucketRefill => []
  | .headRequestRelease => []
  | .checkpointGo => []
  | .checkpointUnitAck => []
  | .checkpointResend => []
  | .debugHalt => []
  | .debugResume => []
  | .debugStep => []
  | .dbgrdatWrite => []
  | .syncPeriod => []
  | .routerGridPeriod => []
  | .trapEntry => []
  | .interruptEntry => []
  | .detectionTimerExpiry => []
  | .enginePageFault => []
  | .promiseExpiry => []
  | .uncorrectableError => []
  | .finjWrite => []
  | .finjRead => []
  | .railSample => []
  | .timeBeacon => []
  | .beaconLoss => []
  | .linkLaneFailure => []
  | .linkRetrainEnd => []
  | .portLaneFailure => []
  | .portRetrainEnd => []
  | .pstatRead => []
  | .debtstallTimer => []
  | .requestLastDeadline => []
  | .returnToService => []
  | .hostLaneFailure => []

/-- Whether an instruction reads or writes one of some registers, given by number. -/
def usesAny (i : Instr) (rs : List Nat) : Bool := (regsUsed i).any (fun r => rs.contains r.toNat)

end Sys2Proof.Machine
end

