-- ==== Sys2Proof/Machine/Issue.lean ====
section
/-! DEFINITION. What happens before an instruction executes: fetch and decoding (R244, R231, R441), the interrupts and
faults taken between instructions (R428, R446, R450), the safe point of a draining context (R109), the limits on
instructions (R89, R109), the registers that await an answer (R134, R359), the stall of FENCE.X (R376). -/

namespace Sys2Proof.Machine

/-- Whether every operation of an access class that a context's firing issued has completed (R148, R376). Class 0 is
satisfied by the fence's commit. -/
def State.classDone (s : State) (h : Nat) (cls : Nat) : Bool :=
  match (s.ctx h).firing with
  | none => true
  | some f =>
    if cls = 1 then !s.flight.copies.any (fun p => p.2.fid = f.fid)
    else if cls = 2 then (s.aux h).tiles.isEmpty
    else if cls = 3 then
      (s.aux h).storesOut = 0 && (s.aux h).fetch.all (fun p => p.2.flying = 0)
    else if cls = 4 then
      !s.flight.combines.any (fun k => k.2.any (fun c =>
        c.waits.any (fun w => w.1 = f.fid) || (c.code.isNone && c.sends.any (fun d => d.2.2.2.2 = f.fid))))
    else true

/-- The word that context `h` fetches at its pc, or the cause of the fault it meets (R244). A word that the instruction
cache holds is returned as it was when it was taken (log 12). -/
def State.fetch (s : State) (h : Nat) : Except Nat (BitVec 32) :=
  match s.resolve h .fetch (s.ctx h).pc with
  | .error c => .error c
  | .ok p =>
    match tget? (s.core (h / 4)).icache p.key with
    | some w => .ok w
    | none => .ok (BitVec.ofNat 32 (s.readNat p.key 4))

/-- Instructions of the firing that have retired, the uncommitted ones included. -/
def Ctx.retiredNow (c : Ctx) : Nat :=
  (match c.firing with | some f => f.retired | none => 0) + (match c.older with | some o => o.n | none => 0) + c.young.n

/-- The registers that await an answer to a request of the executing chunk itself. -/
def Ctx.ownPend (c : Ctx) : List Nat :=
  (c.pend.filter (fun p => !c.young.ck.pend.any (fun q => q.id = p.id))).map (·.reg)

/-- What issuing comes to: an instruction to execute, or the state when none does. -/
inductive Pre
  | go (i : Instr)
  | done (s : State)

/-- The instruction at the pc stalls on some answers (R440): the detection timer of its launch looks at it once. -/
def State.stallFor (s : State) (ids : List Nat) : State :=
  let a := s.aux s.cur
  let v := some (s.hart.pc, ids)
  if a.stallOn = v then s
  else
    let s := s.setAux s.cur { a with stallOn := v }
    match s.hart.firing with
    | some f => (match f.key with | some k => (s.dlReset f).dlStart k | none => s)
    | none => s

/-- The decoded instruction, held back where it uses a register that awaits an answer. -/
def State.preExec (s : State) (i : Instr) : Pre :=
  let c := s.hart
  if usesAny i (c.pend.map (·.reg)) then
    if usesAny i c.ownPend then .done s.boundBefore
    else .done (s.stallFor ((c.pend.filter (fun p => usesAny i [p.reg])).map (·.id))).giveUp
  else .go i

/-- Fetch and decode. -/
def State.preFetch (s : State) : Pre :=
  match s.fetch s.cur with
  | .error c => .done (s.raiseAt c s.hart.pc)
  | .ok w =>
    match decodeWord w with
    | .error _ => .done (s.raise 2 (word w.toNat))
    | .ok i => s.preExec i

/-- The limits on instructions: RTCLIMIT in place of the 257th of a run-to-completion firing (R431), DRAINOVR at the 513th of
a draining one (R109). -/
def State.preLimit (s : State) (f : Firing) : Pre :=
  let c := s.hart
  if f.rtc && 256 ≤ c.retiredNow then .done (s.raiseAt 27 c.pc)
  else if c.st = .draining && c.priv = f.level && 512 ≤ (s.aux s.cur).drainFrom then .done (s.raiseAt 28 c.pc)
  else s.preFetch

/-- A draining context at its firing's own level looks for a safe point (R109, R430). -/
def State.preDrain (s : State) (f : Firing) : Pre :=
  let c := s.hart
  if c.st = .draining && c.priv = f.level then
    match s.safeAt s.cur with
    | none => .done (s.refuseDrain s.cur 2)
    | some (some _) => .done ((s.poke (.safePoint s.cur)).giveUp)
    | some none => s.preLimit f
  else s.preLimit f

/-- What is taken between instructions: EI, then an engine page fault, then COPYLATE. -/
def State.preTake (s : State) (f : Firing) : Pre :=
  let a := s.aux s.cur
  if s.eiDue s.cur then .done ((s.poke (.interruptEntry s.cur)).giveUp)
  else if s.ownLevel s.cur && !a.faults.isEmpty then .done ((s.poke (.enginePageFault s.cur)).giveUp)
  else if s.ownLevel s.cur && !a.lates.isEmpty then .done ((s.poke (.trapEntry s.cur false 30 (a.lates.headD 0))).giveUp)
  else s.preDrain f

/-- The stall of FENCE.X ends: ports fetch on, and a pre-emption request that came during it takes effect (R148, R376). -/
def State.fenceEnd (s : State) (h : Nat) : State :=
  let s := s.setAux h { s.aux h with fence := none }
  let s := (List.range 8).foldl (fun s q => s.fetchGo h q) s
  if (s.ctx h).st = .running then s.setCtx h { s.ctx h with st := s.runSt h } else s

/-- The context whose turn it is issues: an injected kill strikes before the first instruction (R463), the owner handler runs
its fixed code (R358), FENCE.X holds the next instruction back (R376), and so does a datagram that waits for tokens (R405). -/
def State.preIssue (s : State) : Pre :=
  let c := s.hart
  match c.firing with
  | none => .done s.giveUp
  | some f =>
    if !s.runnable s.cur || c.sync || c.trapReq.isSome || c.young.ended then .done s.giveUp
    else if f.inject then .done (((s.setHart { c with firing := some { f with inject := false } }).spend).kill s.cur true)
    else match f.owner with
    | some id => .done (s.spend.ownerRun s.cur id)
    | none =>
      match (s.aux s.cur).fence with
      | some (a, _) => if s.classDone s.cur a then .done (s.fenceEnd s.cur) else .done s.giveUp
      | none => if s.sendStalls f then .done s.giveUp else s.preTake f

end Sys2Proof.Machine
end

