-- ==== Sys2Proof/Machine/LoadStore.lean ====
section
/-! DEFINITION. The base loads and stores (R242). -/

namespace Sys2Proof.Machine

/-- A load of `w` bytes whose value is extended by `ext`. A load to x0 performs its access and discards the value. -/
def State.loadTo (s : State) (rd rs : Reg) (imm : BitVec 12) (w : Nat) (ext : Nat → Word) : Out :=
  finish s (do
    let (v, t) ← s.load1 w (s.x rs + sext12 imm)
    .ok ((t.setX rd (ext v)).step4))

/-- A store of the low `w` bytes of xreg(t). -/
def State.storeFrom (s : State) (rt rs : Reg) (imm : BitVec 12) (w : Nat) : Out :=
  finish s (do
    let t ← s.stores w [s.x rs + sext12 imm] [(s.x rt).toNat]
    .ok t.step4)

/-- LB (R242). -/
def execLb (rd rs : Reg) (imm : BitVec 12) (s : State) : Out := s.loadTo rd rs imm 1 (sextNat 8)
/-- LH (R242). -/
def execLh (rd rs : Reg) (imm : BitVec 12) (s : State) : Out := s.loadTo rd rs imm 2 (sextNat 16)
/-- LW (R242). -/
def execLw (rd rs : Reg) (imm : BitVec 12) (s : State) : Out := s.loadTo rd rs imm 4 (sextNat 32)
/-- LD (R242). -/
def execLd (rd rs : Reg) (imm : BitVec 12) (s : State) : Out := s.loadTo rd rs imm 8 word
/-- LBU (R242). -/
def execLbu (rd rs : Reg) (imm : BitVec 12) (s : State) : Out := s.loadTo rd rs imm 1 word
/-- LHU (R242). -/
def execLhu (rd rs : Reg) (imm : BitVec 12) (s : State) : Out := s.loadTo rd rs imm 2 word
/-- LWU (R242). -/
def execLwu (rd rs : Reg) (imm : BitVec 12) (s : State) : Out := s.loadTo rd rs imm 4 word
/-- SB (R242). -/
def execSb (rt rs : Reg) (imm : BitVec 12) (s : State) : Out := s.storeFrom rt rs imm 1
/-- SH (R242). -/
def execSh (rt rs : Reg) (imm : BitVec 12) (s : State) : Out := s.storeFrom rt rs imm 2
/-- SW (R242). -/
def execSw (rt rs : Reg) (imm : BitVec 12) (s : State) : Out := s.storeFrom rt rs imm 4
/-- SD (R242). -/
def execSd (rt rs : Reg) (imm : BitVec 12) (s : State) : Out := s.storeFrom rt rs imm 8

end Sys2Proof.Machine
end

