-- ==== Sys2Proof/Machine/Message.lean ====
section
/-! DEFINITION. Messages and channels: SEND, SENDV, REPLY, MSGRD, MSGSRC, CHON, CHOFF (R346 to R354). -/

namespace Sys2Proof.Machine

/-- Whether a target word and a channel are legal at issue (R348). -/
def targetOk (t : Word) (ch : Nat) : Bool := bits t 46 20 = 0 && bits t 15 12 = 0 && bits t 11 0 ≤ 2559 && 2 ≤ ch

/-- The source word of a message of the current context (R353). Its RCH is 0 where the message has no reply channel, whatever its target
word holds (DEDUCED, unsafe; log 113). -/
def State.sourceWord (s : State) (c : Bool) (rch ch : Nat) : Word :=
  word (s.modId * 2 ^ 48 + (s.cur % 4) * 2 ^ 44 + (if c then rch else 0) * 2 ^ 40 + flag c * 2 ^ 39 +
    s.tenantOf s.mySlot * 2 ^ 16 + ch * 2 ^ 12 + s.lcore)

/-- A message is held for the commit (R346). In a pre-emptible firing the send ends its chunk (R134). -/
def State.sendMessage (s : State) (c : Bool) (t : Word) (ch : Nat) (ws : List Word) : State :=
  let u := (s.hold (.message t ch ws (s.sourceWord c (bits t 19 16) ch) false)).note 5 0 (bits t 11 0) (bits t 11 0)
  if s.isRtc then u.step4 else u.stepEnd

/-- SEND (R346). -/
def execSend (c : Bool) (ch : BitVec 4) (xt xw0 xw1 : Reg) (s : State) : Out :=
  finish s (do
    require (targetOk (s.x xt) ch.toNat) 2 (.send c ch xt xw0 xw1)
    .ok (s.sendMessage c (s.x xt) ch.toNat [s.x xw0, s.x xw1]))

/-- SENDV (R346). -/
def execSendv (c : Bool) (ch : BitVec 4) (xt xn vb : Reg) (s : State) : Out :=
  finish s (do
    let k := (s.x xn).toNat
    require (targetOk (s.x xt) ch.toNat && 1 ≤ k && k ≤ 32) 2 (.sendv c ch xt xn vb)
    .ok (s.sendMessage c (s.x xt) ch.toNat ((List.range k).map (fun i => word (elem (s.v vb) 64 i)))))

/-- REPLY (R351): two words to channel RCH of the core and module of the triggering message; no chunk bound. -/
def execReply (xw0 xw1 : Reg) (s : State) : Out :=
  finish s (do
    let src := (s.hart.firing.map (·.src)).getD 0
    let rch := bits src 43 40
    require (s.hart.firing.any (fun f => f.chan != 0) && bit src 39 && 2 ≤ rch) 6 (.reply xw0 xw1)
    let t := word (bits src 63 47 * 2 ^ 47 + bits src 11 0)
    let u := (s.hold (.message t rch [s.x xw0, s.x xw1] (s.sourceWord false 0 rch) true)).note 5 0 (bits src 11 0) (bits src 11 0)
    .ok u.step4)

/-- MSGRD (R352): the next word of the message buffer, from word 2 on. -/
def execMsgrd (xd : Reg) (s : State) : Out :=
  let c := s.hart
  match (((c.firing.map (·.trigger)).getD []).map (·.1))[2 + c.shadow.msgPos]? with
  | some w =>
    let t := s.setX xd w
    .next ((t.setHart { t.hart with shadow := { t.hart.shadow with msgPos := c.shadow.msgPos + 1 } }).step4)
  | none => s.putX xd 0

/-- MSGSRC (R353). -/
def execMsgsrc (xd : Reg) (s : State) : Out := s.putX xd ((s.hart.firing.map (·.src)).getD 0)

/-- CHON (R354). -/
def execChon (ch : BitVec 4) (s : State) : Out := .next ((s.hold (.chmask ch.toNat true s.hart.priv)).stepSync)
/-- CHOFF (R354). -/
def execChoff (ch : BitVec 4) (s : State) : Out := .next ((s.hold (.chmask ch.toNat false s.hart.priv)).stepSync)

end Sys2Proof.Machine
end

