-- ==== Sys2Proof/Machine/Scalar.lean ====
section
/-! DEFINITION. The base integer instructions: arithmetic, multiplication and division, branches and jumps, FENCE, ECALL
and EBREAK (R238 to R246). -/

namespace Sys2Proof.Machine

/-- trunc(a, 32) of a W form. -/
def lowW (a : Word) : BitVec 32 := a.truncate 32
/-- sext(result, 64) of a W form. -/
def extW (a : BitVec 32) : Word := a.signExtend 64

/-- Signed division of R240 at any width. -/
def divS {n : Nat} (a b : BitVec n) : BitVec n := if b = 0 then BitVec.allOnes n else a.sdiv b
/-- Unsigned division of R240. -/
def divU {n : Nat} (a b : BitVec n) : BitVec n := if b = 0 then BitVec.allOnes n else a / b
/-- Signed remainder of R240. -/
def remS {n : Nat} (a b : BitVec n) : BitVec n := if b = 0 then a else a - b * a.sdiv b
/-- Unsigned remainder of R240. -/
def remU {n : Nat} (a b : BitVec n) : BitVec n := if b = 0 then a else a % b

/-- Bits [127:64] of a product of two 128-bit extensions (R239). -/
def highProduct (a b : BitVec 128) : Word := (a * b).extractLsb' 64 64

/-- ADDI (R239). -/
def execAddi (rd rs : Reg) (imm : BitVec 12) (s : State) : Out := s.putX rd (s.x rs + sext12 imm)
/-- SLTI (R239). -/
def execSlti (rd rs : Reg) (imm : BitVec 12) (s : State) : Out := s.putX rd (truth (lessS (s.x rs) (sext12 imm)))
/-- SLTIU (R239). -/
def execSltiu (rd rs : Reg) (imm : BitVec 12) (s : State) : Out := s.putX rd (truth (lessU (s.x rs) (sext12 imm)))
/-- XORI (R239). -/
def execXori (rd rs : Reg) (imm : BitVec 12) (s : State) : Out := s.putX rd (s.x rs ^^^ sext12 imm)
/-- ORI (R239). -/
def execOri (rd rs : Reg) (imm : BitVec 12) (s : State) : Out := s.putX rd (s.x rs ||| sext12 imm)
/-- ANDI (R239). -/
def execAndi (rd rs : Reg) (imm : BitVec 12) (s : State) : Out := s.putX rd (s.x rs &&& sext12 imm)
/-- ADDIW (R239). -/
def execAddiw (rd rs : Reg) (imm : BitVec 12) (s : State) : Out := s.putX rd (extW (lowW (s.x rs) + lowW (sext12 imm)))
/-- SLLI (R239). -/
def execSlli (rd rs : Reg) (sh : BitVec 6) (s : State) : Out := s.putX rd (s.x rs <<< sh.toNat)
/-- SRLI (R239). -/
def execSrli (rd rs : Reg) (sh : BitVec 6) (s : State) : Out := s.putX rd (s.x rs >>> sh.toNat)
/-- SRAI (R239). -/
def execSrai (rd rs : Reg) (sh : BitVec 6) (s : State) : Out := s.putX rd ((s.x rs).sshiftRight sh.toNat)
/-- SLLIW (R239). -/
def execSlliw (rd rs : Reg) (sh : BitVec 5) (s : State) : Out := s.putX rd (extW (lowW (s.x rs) <<< sh.toNat))
/-- SRLIW (R239). -/
def execSrliw (rd rs : Reg) (sh : BitVec 5) (s : State) : Out := s.putX rd (extW (lowW (s.x rs) >>> sh.toNat))
/-- SRAIW (R239). -/
def execSraiw (rd rs : Reg) (sh : BitVec 5) (s : State) : Out := s.putX rd (extW ((lowW (s.x rs)).sshiftRight sh.toNat))
/-- ADD (R239). -/
def execAdd (rd rs rt : Reg) (s : State) : Out := s.putX rd (s.x rs + s.x rt)
/-- SUB (R239). -/
def execSub (rd rs rt : Reg) (s : State) : Out := s.putX rd (s.x rs - s.x rt)
/-- SLL (R239). -/
def execSll (rd rs rt : Reg) (s : State) : Out := s.putX rd (s.x rs <<< bits (s.x rt) 5 0)
/-- SRL (R239). -/
def execSrl (rd rs rt : Reg) (s : State) : Out := s.putX rd (s.x rs >>> bits (s.x rt) 5 0)
/-- SRA (R239). -/
def execSra (rd rs rt : Reg) (s : State) : Out := s.putX rd ((s.x rs).sshiftRight (bits (s.x rt) 5 0))
/-- SLT (R239). -/
def execSlt (rd rs rt : Reg) (s : State) : Out := s.putX rd (truth (lessS (s.x rs) (s.x rt)))
/-- SLTU (R239). -/
def execSltu (rd rs rt : Reg) (s : State) : Out := s.putX rd (truth (lessU (s.x rs) (s.x rt)))
/-- XOR (R239). -/
def execXor (rd rs rt : Reg) (s : State) : Out := s.putX rd (s.x rs ^^^ s.x rt)
/-- OR (R239). -/
def execOr (rd rs rt : Reg) (s : State) : Out := s.putX rd (s.x rs ||| s.x rt)
/-- AND (R239). -/
def execAnd (rd rs rt : Reg) (s : State) : Out := s.putX rd (s.x rs &&& s.x rt)
/-- MUL (R239). -/
def execMul (rd rs rt : Reg) (s : State) : Out := s.putX rd (s.x rs * s.x rt)
/-- MULH (R239). -/
def execMulh (rd rs rt : Reg) (s : State) : Out := s.putX rd (highProduct ((s.x rs).signExtend 128) ((s.x rt).signExtend 128))
/-- MULHSU (R239). -/
def execMulhsu (rd rs rt : Reg) (s : State) : Out := s.putX rd (highProduct ((s.x rs).signExtend 128) ((s.x rt).zeroExtend 128))
/-- MULHU (R239). -/
def execMulhu (rd rs rt : Reg) (s : State) : Out := s.putX rd (highProduct ((s.x rs).zeroExtend 128) ((s.x rt).zeroExtend 128))
/-- DIV (R240). -/
def execDiv (rd rs rt : Reg) (s : State) : Out := s.putX rd (divS (s.x rs) (s.x rt))
/-- DIVU (R240). -/
def execDivu (rd rs rt : Reg) (s : State) : Out := s.putX rd (divU (s.x rs) (s.x rt))
/-- REM (R240). -/
def execRem (rd rs rt : Reg) (s : State) : Out := s.putX rd (remS (s.x rs) (s.x rt))
/-- REMU (R240). -/
def execRemu (rd rs rt : Reg) (s : State) : Out := s.putX rd (remU (s.x rs) (s.x rt))
/-- ADDW (R239). -/
def execAddw (rd rs rt : Reg) (s : State) : Out := s.putX rd (extW (lowW (s.x rs) + lowW (s.x rt)))
/-- SUBW (R239). -/
def execSubw (rd rs rt : Reg) (s : State) : Out := s.putX rd (extW (lowW (s.x rs) - lowW (s.x rt)))
/-- SLLW (R239). -/
def execSllw (rd rs rt : Reg) (s : State) : Out := s.putX rd (extW (lowW (s.x rs) <<< bits (s.x rt) 4 0))
/-- SRLW (R239). -/
def execSrlw (rd rs rt : Reg) (s : State) : Out := s.putX rd (extW (lowW (s.x rs) >>> bits (s.x rt) 4 0))
/-- SRAW (R239). -/
def execSraw (rd rs rt : Reg) (s : State) : Out := s.putX rd (extW ((lowW (s.x rs)).sshiftRight (bits (s.x rt) 4 0)))
/-- MULW (R239). -/
def execMulw (rd rs rt : Reg) (s : State) : Out := s.putX rd (extW (lowW (s.x rs) * lowW (s.x rt)))
/-- DIVW (R240). -/
def execDivw (rd rs rt : Reg) (s : State) : Out := s.putX rd (extW (divS (lowW (s.x rs)) (lowW (s.x rt))))
/-- DIVUW (R240). -/
def execDivuw (rd rs rt : Reg) (s : State) : Out := s.putX rd (extW (divU (lowW (s.x rs)) (lowW (s.x rt))))
/-- REMW (R240). -/
def execRemw (rd rs rt : Reg) (s : State) : Out := s.putX rd (extW (remS (lowW (s.x rs)) (lowW (s.x rt))))
/-- REMUW (R240). -/
def execRemuw (rd rs rt : Reg) (s : State) : Out := s.putX rd (extW (remU (lowW (s.x rs)) (lowW (s.x rt))))
/-- LUI (R239). -/
def execLui (rd : Reg) (imm : BitVec 20) (s : State) : Out := s.putX rd (upperImm imm)
/-- AUIPC (R239). -/
def execAuipc (rd : Reg) (imm : BitVec 20) (s : State) : Out := s.putX rd (s.hart.pc + upperImm imm)

/-- A transfer to a target, or INSTR_MISALIGNED where it is no multiple of 4 (R243, R423). `t` is the state with the link
register written, which a trap discards. -/
def State.jump (s t : State) (target : Word) : Out :=
  if target.toNat % 4 = 0 then .next (t.retire target) else .next (s.raise 0 target)

/-- A conditional branch (R243): a branch that is not taken never traps. -/
def State.branch (s : State) (taken : Bool) (imm : BitVec 12) : Out :=
  if taken then s.jump s (s.hart.pc + branchOff imm) else .next s.step4

/-- BEQ (R243). -/
def execBeq (rs rt : Reg) (imm : BitVec 12) (s : State) : Out := s.branch (s.x rs == s.x rt) imm
/-- BNE (R243). -/
def execBne (rs rt : Reg) (imm : BitVec 12) (s : State) : Out := s.branch (s.x rs != s.x rt) imm
/-- BLT (R243). -/
def execBlt (rs rt : Reg) (imm : BitVec 12) (s : State) : Out := s.branch (lessS (s.x rs) (s.x rt)) imm
/-- BGE (R243). -/
def execBge (rs rt : Reg) (imm : BitVec 12) (s : State) : Out := s.branch (!lessS (s.x rs) (s.x rt)) imm
/-- BLTU (R243). -/
def execBltu (rs rt : Reg) (imm : BitVec 12) (s : State) : Out := s.branch (lessU (s.x rs) (s.x rt)) imm
/-- BGEU (R243). -/
def execBgeu (rs rt : Reg) (imm : BitVec 12) (s : State) : Out := s.branch (!lessU (s.x rs) (s.x rt)) imm
/-- JAL (R243). -/
def execJal (rd : Reg) (imm : BitVec 20) (s : State) : Out :=
  s.jump (s.setX rd (s.hart.pc + 4)) (s.hart.pc + jumpOff imm)
/-- JALR reads xreg(s1) before it writes rd, and clears bit 0 of the target (R243). -/
def execJalr (rd rs : Reg) (imm : BitVec 12) (s : State) : Out :=
  s.jump (s.setX rd (s.hart.pc + 4)) (setBits (s.x rs + sext12 imm) 0 1 0)

/-- FENCE is a chunk bound and nothing else, whatever its fields (R245). -/
def execFence (_fm _pred _succ : BitVec 4) (_rs _rd : Reg) (s : State) : Out := .next s.stepEnd

/-- ECALL takes the environment-call trap of the issuing level (R246, R423). -/
def execEcall (s : State) : Out :=
  .next (s.raise (match s.hart.priv with | .u => 8 | .s => 9 | .m => 11) 0)

/-- EBREAK takes BREAKPOINT, or halts the sorus when its debug module is armed: the pc stays at it (R246, R411, R412). -/
def execEbreak (s : State) : Out :=
  if (s.sx (s.cur / 64)).arm then .next (s.spend.poke (.debugHalt (s.cur / 64))) else .next (s.raise 3 s.hart.pc)

end Sys2Proof.Machine
end

