-- ==== Sys2Proof/Machine/Sync.lean ====
section
/-! DEFINITION. Synchronisation: update-log merges, tickets, barrier objects, group and launch barriers, chunk ends, ordered
tasks, launches, FENCE.X, HALT (R366 to R376, R380). -/

namespace Sys2Proof.Machine

/-- Whether a log descriptor keeps its limits (R366). -/
def logDescOk (d : List Word) : Bool :=
  let cap := bits (d.getD 1 0) 31 0
  bits (d.getD 1 0) 63 32 = 0 && bits (d.getD 2 0) 63 2 = 0 && d.getD 3 0 = 0 &&
  (!bit (d.getD 2 0) 1 || (cap % 16 = 0 && 16 ≤ cap && cap ≤ 2 ^ 24 && (d.getD 0 0).toNat % 64 = 0))

/-- LOGMRG (R366). -/
def execLogmrg (xd xa : Reg) (s : State) : Out :=
  finish s (do
    let (d, t) ← s.descriptor 32 4 (s.x xa)
    require (logDescOk d) 2 (.logmrg xd xa)
    let (id, t) := t.ask xd
    .ok ((t.hold (.logmrg id d)).step4))

/-- TKTGET (R367). -/
def execTktget (xd xa : Reg) (s : State) : Out :=
  finish s (do
    require ((s.x xa).toNat ≤ 15) 2 (.tktget xd xa)
    let (id, t) := s.ask xd
    .ok ((t.hold (.tktget id (s.x xa).toNat)).step4))

/-- TKTWAIT (R367). -/
def execTktwait (xa xv : Reg) (s : State) : Out :=
  finish s (do
    s.notRtc (.tktwait xa xv)
    require ((s.x xa).toNat ≤ 15) 2 (.tktwait xa xv)
    .ok (s.beginWait (.ticket (s.x xa).toNat (bits (s.x xv) 31 0))))

/-- TKTADV (R367). -/
def execTktadv (xa : Reg) (s : State) : Out :=
  finish s (do
    require ((s.x xa).toNat ≤ 15) 2 (.tktadv xa)
    .ok ((s.hold (.tktadv (s.x xa).toNat)).step4))

/-- The memory key of a barrier object, where its place is allowed (R368): the own core scratchpad, the own sorus
scratchpad, or through region 0xFE another present core's scratchpad of the partition. -/
def State.barPlace (s : State) (va : Word) : Option Nat :=
  let off := bits va 31 0
  if bits va 63 32 = 0xFF00 then (if off < 0x50000 then some (spadKey s.lcore off) else none)
  else if bits va 63 32 = 0xFF01 then (if off < 0x1F0000 then some (sorusKey (s.cur / 64) off) else none)
  else if bits va 63 40 = 0xFE then
    let T := bits va 39 20
    if T < 2560 && bits va 19 0 < 0x50000 && s.present T && s.partOf T = s.partOf s.lcore && (s.partOf T).isSome then
      some (spadKey T (bits va 19 0))
    else none
  else none

/-- BARARR (R369). -/
def execBararr (xa xv : Reg) (s : State) : Out :=
  finish s (do
    let v := s.x xv
    require (bits (s.x xa) 3 0 = 0 && (s.barPlace (s.x xa)).isSome && bits v 62 32 = 0) 2 (.bararr xa xv)
    let k : BarKind := if bit v 63 then .deliver (bits v 31 0) else .arrive (bits v 31 0)
    let key := (s.barPlace (s.x xa)).getD 0
    let (id, t) := s.newId
    .ok (((t.hold (.bar { key := key, kind := k, id := id })).note 7 0 (keyCore key) id).step4))

/-- BARWAIT (R370). -/
def execBarwait (xd xa : Reg) (s : State) : Out :=
  finish s (do
    s.notRtc (.barwait xd xa)
    let a := setBits (s.x xa) 0 4 0
    require (bits (s.x xa) 3 1 = 0 && (s.barPlace a).isSome) 2 (.barwait xd xa)
    let (id, t) := s.ask xd
    .ok (t.beginWait (.bar ((s.barPlace a).getD 0) (bit (s.x xa) 0) id)))

/-- GBAR (R371). -/
def execGbar (xd : Reg) (s : State) : Out :=
  finish s (do
    s.notRtc (.gbar xd)
    let (id, t) := s.ask xd
    .ok (((t.hold (.gbar id)).note 7 xd.toNat 0 id).beginWait .gbar id))

/-- LBAR (R372). -/
def execLbar (xd xa : Reg) (s : State) : Out :=
  finish s (do
    s.notRtc (.lbar xd xa)
    require ((s.x xa).toNat ≤ 3) 2 (.lbar xd xa)
    let n := (s.x xa).toNat
    let (id, t) := s.ask xd
    .ok (((t.hold (.lbar id n)).note 7 xd.toNat 0 id).beginWait (.lbar n) id))

/-- CHUNKEND (R373). -/
def execChunkend (s : State) : Out := .next s.stepEnd

/-- OTDECL (R374): it writes 0 and its chunk becomes the task's body; after a failed check it writes 1 and declares nothing. -/
def execOtdecl (xd xa xv : Reg) (s : State) : Out :=
  finish s (do
    let c := s.hart
    require ((s.x xv).toNat ≤ 255) 2 (.otdecl xd xa xv)
    require (!c.firing.any (fun f => f.order.isSome) && c.young.n = 0) 6 (.otdecl xd xa xv)
    if c.young.otfail then .ok ((s.setX xd 1).step4)
    else
      let t := (s.setX xd 0).hold (.otdecl (s.x xa) (s.x xv).toNat xd.toNat)
      let t := t.setHart { t.hart with
        firing := t.hart.firing.map (fun f => { f with order := some ((s.x xa).toNat, (s.x xv).toNat) }) }
      .ok t.step4)

/-- LAUNCH (R375). -/
def execLaunch (xd xa : Reg) (s : State) : Out :=
  finish s (do
    s.notRtc (.launch xd xa)
    let (d, t) ← s.descriptor 64 8 (s.x xa)
    let (id, t) := t.ask xd
    .ok ((t.hold (.launch id d)).stepEnd))

/-- FENCE.X (R148, R376): nothing issues until the commit, and then until class `a` is done; no fetch of a port begins before then where
`b` is its class. -/
def execFenceX (a b : BitVec 5) (s : State) : Out := .next ((s.hold (.fence a.toNat b.toNat)).stepSync)

/-- HALT (R380): no instruction follows it. -/
def State.haltWith (s : State) (mask actor : Nat) : State := (s.hold (.halt mask actor)).stepSync

/-- HALT (R380). -/
def execHalt (s : State) : Out := .next (s.haltWith 0 0)
/-- HALT.R (R380, R91). -/
def execHaltR (xm xn : Reg) (s : State) : Out := .next (s.haltWith (bits (s.x xm) 9 0) (bits (s.x xn) 15 0))

end Sys2Proof.Machine
end

