-- ==== Sys2Proof/Machine/Dispatch.lean ====
section
/-! DEFINITION. One arm for every constructor of `Instr`: a direct call of its meaning. -/

namespace Sys2Proof.Machine

/-- What an instruction, or a happening, does to the machine. -/
def exec (i : Instr) (s : State) : Host.Outcome State Fault Refusal :=
  match i with
  | .lb rd rs imm => Sys2Proof.Machine.execLb rd rs imm s
  | .lh rd rs imm => Sys2Proof.Machine.execLh rd rs imm s
  | .lw rd rs imm => Sys2Proof.Machine.execLw rd rs imm s
  | .ld rd rs imm => Sys2Proof.Machine.execLd rd rs imm s
  | .lbu rd rs imm => Sys2Proof.Machine.execLbu rd rs imm s
  | .lhu rd rs imm => Sys2Proof.Machine.execLhu rd rs imm s
  | .lwu rd rs imm => Sys2Proof.Machine.execLwu rd rs imm s
  | .sb rt rs imm => Sys2Proof.Machine.execSb rt rs imm s
  | .sh rt rs imm => Sys2Proof.Machine.execSh rt rs imm s
  | .sw rt rs imm => Sys2Proof.Machine.execSw rt rs imm s
  | .sd rt rs imm => Sys2Proof.Machine.execSd rt rs imm s
  | .beq rs rt imm => Sys2Proof.Machine.execBeq rs rt imm s
  | .bne rs rt imm => Sys2Proof.Machine.execBne rs rt imm s
  | .blt rs rt imm => Sys2Proof.Machine.execBlt rs rt imm s
  | .bge rs rt imm => Sys2Proof.Machine.execBge rs rt imm s
  | .bltu rs rt imm => Sys2Proof.Machine.execBltu rs rt imm s
  | .bgeu rs rt imm => Sys2Proof.Machine.execBgeu rs rt imm s
  | .jalr rd rs imm => Sys2Proof.Machine.execJalr rd rs imm s
  | .jal rd imm => Sys2Proof.Machine.execJal rd imm s
  | .lui rd imm => Sys2Proof.Machine.execLui rd imm s
  | .auipc rd imm => Sys2Proof.Machine.execAuipc rd imm s
  | .addi rd rs imm => Sys2Proof.Machine.execAddi rd rs imm s
  | .slti rd rs imm => Sys2Proof.Machine.execSlti rd rs imm s
  | .sltiu rd rs imm => Sys2Proof.Machine.execSltiu rd rs imm s
  | .xori rd rs imm => Sys2Proof.Machine.execXori rd rs imm s
  | .ori rd rs imm => Sys2Proof.Machine.execOri rd rs imm s
  | .andi rd rs imm => Sys2Proof.Machine.execAndi rd rs imm s
  | .slli rd rs sh => Sys2Proof.Machine.execSlli rd rs sh s
  | .srli rd rs sh => Sys2Proof.Machine.execSrli rd rs sh s
  | .srai rd rs sh => Sys2Proof.Machine.execSrai rd rs sh s
  | .addiw rd rs imm => Sys2Proof.Machine.execAddiw rd rs imm s
  | .slliw rd rs sh => Sys2Proof.Machine.execSlliw rd rs sh s
  | .srliw rd rs sh => Sys2Proof.Machine.execSrliw rd rs sh s
  | .sraiw rd rs sh => Sys2Proof.Machine.execSraiw rd rs sh s
  | .add rd rs rt => Sys2Proof.Machine.execAdd rd rs rt s
  | .sll rd rs rt => Sys2Proof.Machine.execSll rd rs rt s
  | .slt rd rs rt => Sys2Proof.Machine.execSlt rd rs rt s
  | .sltu rd rs rt => Sys2Proof.Machine.execSltu rd rs rt s
  | .xor rd rs rt => Sys2Proof.Machine.execXor rd rs rt s
  | .srl rd rs rt => Sys2Proof.Machine.execSrl rd rs rt s
  | .or rd rs rt => Sys2Proof.Machine.execOr rd rs rt s
  | .and rd rs rt => Sys2Proof.Machine.execAnd rd rs rt s
  | .sub rd rs rt => Sys2Proof.Machine.execSub rd rs rt s
  | .sra rd rs rt => Sys2Proof.Machine.execSra rd rs rt s
  | .mul rd rs rt => Sys2Proof.Machine.execMul rd rs rt s
  | .mulh rd rs rt => Sys2Proof.Machine.execMulh rd rs rt s
  | .mulhsu rd rs rt => Sys2Proof.Machine.execMulhsu rd rs rt s
  | .mulhu rd rs rt => Sys2Proof.Machine.execMulhu rd rs rt s
  | .div rd rs rt => Sys2Proof.Machine.execDiv rd rs rt s
  | .divu rd rs rt => Sys2Proof.Machine.execDivu rd rs rt s
  | .rem rd rs rt => Sys2Proof.Machine.execRem rd rs rt s
  | .remu rd rs rt => Sys2Proof.Machine.execRemu rd rs rt s
  | .addw rd rs rt => Sys2Proof.Machine.execAddw rd rs rt s
  | .sllw rd rs rt => Sys2Proof.Machine.execSllw rd rs rt s
  | .srlw rd rs rt => Sys2Proof.Machine.execSrlw rd rs rt s
  | .subw rd rs rt => Sys2Proof.Machine.execSubw rd rs rt s
  | .sraw rd rs rt => Sys2Proof.Machine.execSraw rd rs rt s
  | .mulw rd rs rt => Sys2Proof.Machine.execMulw rd rs rt s
  | .divw rd rs rt => Sys2Proof.Machine.execDivw rd rs rt s
  | .divuw rd rs rt => Sys2Proof.Machine.execDivuw rd rs rt s
  | .remw rd rs rt => Sys2Proof.Machine.execRemw rd rs rt s
  | .remuw rd rs rt => Sys2Proof.Machine.execRemuw rd rs rt s
  | .fence fm pred succ rs rd => Sys2Proof.Machine.execFence fm pred succ rs rd s
  | .ecall => Sys2Proof.Machine.execEcall s
  | .ebreak => Sys2Proof.Machine.execEbreak s
  | .csrrw rd csr rs => Sys2Proof.Machine.execCsrrw rd csr rs s
  | .csrrs rd csr rs => Sys2Proof.Machine.execCsrrs rd csr rs s
  | .csrrc rd csr rs => Sys2Proof.Machine.execCsrrc rd csr rs s
  | .csrrwi rd csr u => Sys2Proof.Machine.execCsrrwi rd csr u s
  | .csrrsi rd csr u => Sys2Proof.Machine.execCsrrsi rd csr u s
  | .csrrci rd csr u => Sys2Proof.Machine.execCsrrci rd csr u s
  | .vadd g ty vd va vb => Sys2Proof.Machine.execVadd g ty vd va vb s
  | .vsub g ty vd va vb => Sys2Proof.Machine.execVsub g ty vd va vb s
  | .vmul g ty vd va vb => Sys2Proof.Machine.execVmul g ty vd va vb s
  | .vsel g ty vd va vb => Sys2Proof.Machine.execVsel g ty vd va vb s
  | .vsadd g ty vd va vb => Sys2Proof.Machine.execVsadd g ty vd va vb s
  | .vssub g ty vd va vb => Sys2Proof.Machine.execVssub g ty vd va vb s
  | .vmin g ty vd va vb => Sys2Proof.Machine.execVmin g ty vd va vb s
  | .vmax g ty vd va vb => Sys2Proof.Machine.execVmax g ty vd va vb s
  | .vminu g ty vd va vb => Sys2Proof.Machine.execVminu g ty vd va vb s
  | .vmaxu g ty vd va vb => Sys2Proof.Machine.execVmaxu g ty vd va vb s
  | .vand g ty vd va vb => Sys2Proof.Machine.execVand g ty vd va vb s
  | .vor g ty vd va vb => Sys2Proof.Machine.execVor g ty vd va vb s
  | .vxor g ty vd va vb => Sys2Proof.Machine.execVxor g ty vd va vb s
  | .vsll g ty vd va vb => Sys2Proof.Machine.execVsll g ty vd va vb s
  | .vsrl g ty vd va vb => Sys2Proof.Machine.execVsrl g ty vd va vb s
  | .vsra g ty vd va vb => Sys2Proof.Machine.execVsra g ty vd va vb s
  | .vfadd g ty vd va vb => Sys2Proof.Machine.execVfadd g ty vd va vb s
  | .vfsub g ty vd va vb => Sys2Proof.Machine.execVfsub g ty vd va vb s
  | .vfmul g ty vd va vb => Sys2Proof.Machine.execVfmul g ty vd va vb s
  | .vfma g ty vd va vb => Sys2Proof.Machine.execVfma g ty vd va vb s
  | .vfmin g ty vd va vb => Sys2Proof.Machine.execVfmin g ty vd va vb s
  | .vfmax g ty vd va vb => Sys2Proof.Machine.execVfmax g ty vd va vb s
  | .vfdiv g ty vd va vb => Sys2Proof.Machine.execVfdiv g ty vd va vb s
  | .vfexp2 g ty vd va => Sys2Proof.Machine.execVfexp2 g ty vd va s
  | .vflog2 g ty vd va => Sys2Proof.Machine.execVflog2 g ty vd va s
  | .vfrcp g ty vd va => Sys2Proof.Machine.execVfrcp g ty vd va s
  | .vfrsqrt g ty vd va => Sys2Proof.Machine.execVfrsqrt g ty vd va s
  | .vfsqrt g ty vd va => Sys2Proof.Machine.execVfsqrt g ty vd va s
  | .vftanh g ty vd va => Sys2Proof.Machine.execVftanh g ty vd va s
  | .vfsig g ty vd va => Sys2Proof.Machine.execVfsig g ty vd va s
  | .vferf g ty vd va => Sys2Proof.Machine.execVferf g ty vd va s
  | .vcmpeq g ty pd va vb => Sys2Proof.Machine.execVcmpeq g ty pd va vb s
  | .vcmplt g ty pd va vb => Sys2Proof.Machine.execVcmplt g ty pd va vb s
  | .vcmple g ty pd va vb => Sys2Proof.Machine.execVcmple g ty pd va vb s
  | .vcmpltu g ty pd va vb => Sys2Proof.Machine.execVcmpltu g ty pd va vb s
  | .vfcmpeq g ty pd va vb => Sys2Proof.Machine.execVfcmpeq g ty pd va vb s
  | .vfcmplt g ty pd va vb => Sys2Proof.Machine.execVfcmplt g ty pd va vb s
  | .vfcmple g ty pd va vb => Sys2Proof.Machine.execVfcmple g ty pd va vb s
  | .vfcmpun g ty pd va vb => Sys2Proof.Machine.execVfcmpun g ty pd va vb s
  | .vmacc ty ad va vb => Sys2Proof.Machine.execVmacc ty ad va vb s
  | .vdot2 ty ad va vb => Sys2Proof.Machine.execVdot2 ty ad va vb s
  | .vdot4 ty ad va vb => Sys2Proof.Machine.execVdot4 ty ad va vb s
  | .vnarrow ty sat vd aa => Sys2Proof.Machine.execVnarrow ty sat vd aa s
  | .accz ad => Sys2Proof.Machine.execAccz ad s
  | .accst sa xb => Sys2Proof.Machine.execAccst sa xb s
  | .accld ad xb => Sys2Proof.Machine.execAccld ad xb s
  | .vxchg vd va => Sys2Proof.Machine.execVxchg vd va s
  | .vld g vd xb => Sys2Proof.Machine.execVld g vd xb s
  | .vst g vd xb => Sys2Proof.Machine.execVst g vd xb s
  | .vlds g vd xb xs => Sys2Proof.Machine.execVlds g vd xb xs s
  | .vsts g vd xb xs => Sys2Proof.Machine.execVsts g vd xb xs s
  | .vldx g vd xb vi => Sys2Proof.Machine.execVldx g vd xb vi s
  | .vstx g vd xb vi => Sys2Proof.Machine.execVstx g vd xb vi s
  | .vldf g ty vd xb => Sys2Proof.Machine.execVldf g ty vd xb s
  | .pand pd pa pb => Sys2Proof.Machine.execPand pd pa pb s
  | .por pd pa pb => Sys2Proof.Machine.execPor pd pa pb s
  | .pxor pd pa pb => Sys2Proof.Machine.execPxor pd pa pb s
  | .pandn pd pa pb => Sys2Proof.Machine.execPandn pd pa pb s
  | .pnot pd pa => Sys2Proof.Machine.execPnot pd pa s
  | .pcnt xd pa => Sys2Proof.Machine.execPcnt xd pa s
  | .pfirst xd pa => Sys2Proof.Machine.execPfirst xd pa s
  | .plt pd xs => Sys2Proof.Machine.execPlt pd xs s
  | .vredsum ty xd va => Sys2Proof.Machine.execVredsum ty xd va s
  | .vredmax ty xd va => Sys2Proof.Machine.execVredmax ty xd va s
  | .vredmin ty xd va => Sys2Proof.Machine.execVredmin ty xd va s
  | .vfredsum ty xd va => Sys2Proof.Machine.execVfredsum ty xd va s
  | .vfredmax ty xd va => Sys2Proof.Machine.execVfredmax ty xd va s
  | .vfredmin ty xd va => Sys2Proof.Machine.execVfredmin ty xd va s
  | .vslideup vd va xn => Sys2Proof.Machine.execVslideup vd va xn s
  | .vslidedn vd va xn => Sys2Proof.Machine.execVslidedn vd va xn s
  | .vperm vd va vi => Sys2Proof.Machine.execVperm vd va vi s
  | .vbcast k vd xs => Sys2Proof.Machine.execVbcast k vd xs s
  | .vget xd va xi => Sys2Proof.Machine.execVget xd va xi s
  | .vset vd xv xi => Sys2Proof.Machine.execVset vd xv xi s
  | .vcvt tyd mode tys sat vd vs => Sys2Proof.Machine.execVcvt tyd mode tys sat vd vs s
  | .mma pair xc xa xb => Sys2Proof.Machine.execMma pair xc xa xb s
  | .mmav pair xc xa xb => Sys2Proof.Machine.execMmav pair xc xa xb s
  | .mmat pair xc xa xb => Sys2Proof.Machine.execMmat pair xc xa xb s
  | .aclr xs => Sys2Proof.Machine.execAclr xs s
  | .anarrow ty mode sat xm xg => Sys2Proof.Machine.execAnarrow ty mode sat xm xg s
  | .ald xg xm => Sys2Proof.Machine.execAld xg xm s
  | .ast xg xm => Sys2Proof.Machine.execAst xg xm s
  | .amovv vd xg => Sys2Proof.Machine.execAmovv vd xg s
  | .amova xg vb => Sys2Proof.Machine.execAmova xg vb s
  | .unfcfg xs => Sys2Proof.Machine.execUnfcfg xs s
  | .qbind q xs => Sys2Proof.Machine.execQbind q xs s
  | .qunbind q => Sys2Proof.Machine.execQunbind q s
  | .qld vd q => Sys2Proof.Machine.execQld vd q s
  | .qst q vb => Sys2Proof.Machine.execQst q vb s
  | .qldx xd q => Sys2Proof.Machine.execQldx xd q s
  | .qstx q xs => Sys2Proof.Machine.execQstx q xs s
  | .qpos xd q => Sys2Proof.Machine.execQpos xd q s
  | .qflush q => Sys2Proof.Machine.execQflush q s
  | .cpyGo xd xp => Sys2Proof.Machine.execCpyGo xd xp s
  | .cpyGoM xd xp xr => Sys2Proof.Machine.execCpyGoM xd xp xr s
  | .cpyCancel xn => Sys2Proof.Machine.execCpyCancel xn s
  | .cpyProg xd xn => Sys2Proof.Machine.execCpyProg xd xn s
  | .waitc nl ns nc nt => Sys2Proof.Machine.execWaitc nl ns nc nt s
  | .ascale xg xs => Sys2Proof.Machine.execAscale xg xs s
  | .send c ch xt xw0 xw1 => Sys2Proof.Machine.execSend c ch xt xw0 xw1 s
  | .sendv c ch xt xn vb => Sys2Proof.Machine.execSendv c ch xt xn vb s
  | .reply xw0 xw1 => Sys2Proof.Machine.execReply xw0 xw1 s
  | .msgrd xd => Sys2Proof.Machine.execMsgrd xd s
  | .msgsrc xd => Sys2Proof.Machine.execMsgsrc xd s
  | .chon ch => Sys2Proof.Machine.execChon ch s
  | .choff ch => Sys2Proof.Machine.execChoff ch s
  | .rmadd nr xd xv xa => Sys2Proof.Machine.execRmadd nr xd xv xa s
  | .rmand nr xd xv xa => Sys2Proof.Machine.execRmand nr xd xv xa s
  | .rmor nr xd xv xa => Sys2Proof.Machine.execRmor nr xd xv xa s
  | .rmxor nr xd xv xa => Sys2Proof.Machine.execRmxor nr xd xv xa s
  | .rmmin nr xd xv xa => Sys2Proof.Machine.execRmmin nr xd xv xa s
  | .rmmax nr xd xv xa => Sys2Proof.Machine.execRmmax nr xd xv xa s
  | .rmminu nr xd xv xa => Sys2Proof.Machine.execRmminu nr xd xv xa s
  | .rmmaxu nr xd xv xa => Sys2Proof.Machine.execRmmaxu nr xd xv xa s
  | .rmswap nr xd xv xa => Sys2Proof.Machine.execRmswap nr xd xv xa s
  | .rmcas nr xd xv xa => Sys2Proof.Machine.execRmcas nr xd xv xa s
  | .rmaddI32 nr xd xv xa => Sys2Proof.Machine.execRmaddI32 nr xd xv xa s
  | .rmandI32 nr xd xv xa => Sys2Proof.Machine.execRmandI32 nr xd xv xa s
  | .rmorI32 nr xd xv xa => Sys2Proof.Machine.execRmorI32 nr xd xv xa s
  | .rmxorI32 nr xd xv xa => Sys2Proof.Machine.execRmxorI32 nr xd xv xa s
  | .rmminI32 nr xd xv xa => Sys2Proof.Machine.execRmminI32 nr xd xv xa s
  | .rmmaxI32 nr xd xv xa => Sys2Proof.Machine.execRmmaxI32 nr xd xv xa s
  | .rmminuI32 nr xd xv xa => Sys2Proof.Machine.execRmminuI32 nr xd xv xa s
  | .rmmaxuI32 nr xd xv xa => Sys2Proof.Machine.execRmmaxuI32 nr xd xv xa s
  | .rmswapI32 nr xd xv xa => Sys2Proof.Machine.execRmswapI32 nr xd xv xa s
  | .rmcasI32 nr xd xv xa => Sys2Proof.Machine.execRmcasI32 nr xd xv xa s
  | .rmfadd nr xd xv xa => Sys2Proof.Machine.execRmfadd nr xd xv xa s
  | .rmfmin nr xd xv xa => Sys2Proof.Machine.execRmfmin nr xd xv xa s
  | .rmfmax nr xd xv xa => Sys2Proof.Machine.execRmfmax nr xd xv xa s
  | .logapp xa xv => Sys2Proof.Machine.execLogapp xa xv s
  | .logmrg xd xa => Sys2Proof.Machine.execLogmrg xd xa s
  | .tktget xd xa => Sys2Proof.Machine.execTktget xd xa s
  | .tktwait xa xv => Sys2Proof.Machine.execTktwait xa xv s
  | .tktadv xa => Sys2Proof.Machine.execTktadv xa s
  | .bararr xa xv => Sys2Proof.Machine.execBararr xa xv s
  | .barwait xd xa => Sys2Proof.Machine.execBarwait xd xa s
  | .gbar xd => Sys2Proof.Machine.execGbar xd s
  | .lbar xd xa => Sys2Proof.Machine.execLbar xd xa s
  | .chunkend => Sys2Proof.Machine.execChunkend s
  | .otdecl xd xa xv => Sys2Proof.Machine.execOtdecl xd xa xv s
  | .launch xd xa => Sys2Proof.Machine.execLaunch xd xa s
  | .fenceX a b => Sys2Proof.Machine.execFenceX a b s
  | .crzsendAdd xa xo => Sys2Proof.Machine.execCrzsendAdd xa xo s
  | .crzsendMax xa xo => Sys2Proof.Machine.execCrzsendMax xa xo s
  | .crzsendMin xa xo => Sys2Proof.Machine.execCrzsendMin xa xo s
  | .crzsendAnd xa xo => Sys2Proof.Machine.execCrzsendAnd xa xo s
  | .crzsendOr xa xo => Sys2Proof.Machine.execCrzsendOr xa xo s
  | .crzsendXor xa xo => Sys2Proof.Machine.execCrzsendXor xa xo s
  | .crzsendBadd xa xo => Sys2Proof.Machine.execCrzsendBadd xa xo s
  | .crzrecv xd xa => Sys2Proof.Machine.execCrzrecv xd xa s
  | .halt => Sys2Proof.Machine.execHalt s
  | .haltR xm xn => Sys2Proof.Machine.execHaltR xm xn s
  | .waitC xs => Sys2Proof.Machine.execWaitC xs s
  | .waitT xs => Sys2Proof.Machine.execWaitT xs s
  | .waitTr xs => Sys2Proof.Machine.execWaitTr xs s
  | .breq prio level => Sys2Proof.Machine.execBreq prio level s
  | .eretS => Sys2Proof.Machine.execEretS s
  | .eretM => Sys2Proof.Machine.execEretM s
  | .tron => Sys2Proof.Machine.execTron s
  | .troff => Sys2Proof.Machine.execTroff s
  | .trmark xs => Sys2Proof.Machine.execTrmark xs s
  | .capon n => Sys2Proof.Machine.execCapon n s
  | .capoff n => Sys2Proof.Machine.execCapoff n s
  | .caprd xd n => Sys2Proof.Machine.execCaprd xd n s
  | .scanrun xd xs => Sys2Proof.Machine.execScanrun xd xs s
  | .scanstat xd => Sys2Proof.Machine.execScanstat xd s
  | .scanabort => Sys2Proof.Machine.execScanabort s
  | .maprd xd xs => Sys2Proof.Machine.execMaprd xd xs s
  | .maprm xs => Sys2Proof.Machine.execMaprm xs s
  | .mapadd xs => Sys2Proof.Machine.execMapadd xs s
  | .preq xd xs => Sys2Proof.Machine.execPreq xd xs s
  | .fundamentalReset => Sys2Proof.Machine.execFundamentalReset s
  | .pfFunctionLevelReset => Sys2Proof.Machine.execPfFunctionLevelReset s
  | .secondaryBusReset => Sys2Proof.Machine.execSecondaryBusReset s
  | .bringupPhaseEnd => Sys2Proof.Machine.execBringupPhaseEnd s
  | .configRequest => Sys2Proof.Machine.execConfigRequest s
  | .mbootGo => Sys2Proof.Machine.execMbootGo s
  | .imageCheck => Sys2Proof.Machine.execImageCheck s
  | .rawRailChange => Sys2Proof.Machine.execRawRailChange s
  | .regulatorSlewEnd => Sys2Proof.Machine.execRegulatorSlewEnd s
  | .tratioWindowEnd => Sys2Proof.Machine.execTratioWindowEnd s
  | .waitCExpiry => Sys2Proof.Machine.execWaitCExpiry s
  | .waitTExpiry => Sys2Proof.Machine.execWaitTExpiry s
  | .boostRequestSample => Sys2Proof.Machine.execBoostRequestSample s
  | .permitBoundary => Sys2Proof.Machine.execPermitBoundary s
  | .controllerStep => Sys2Proof.Machine.execControllerStep s
  | .admissionRequest => Sys2Proof.Machine.execAdmissionRequest s
  | .ballastLimit => Sys2Proof.Machine.execBallastLimit s
  | .exitGroupRelease => Sys2Proof.Machine.execExitGroupRelease s
  | .selection => Sys2Proof.Machine.execSelection s
  | .startingComplete => Sys2Proof.Machine.execStartingComplete s
  | .bankWakeComplete => Sys2Proof.Machine.execBankWakeComplete s
  | .retentionExpiry => Sys2Proof.Machine.execRetentionExpiry s
  | .groupDispatch => Sys2Proof.Machine.execGroupDispatch s
  | .launchHeaderArrival => Sys2Proof.Machine.execLaunchHeaderArrival s
  | .hubQueueRefill => Sys2Proof.Machine.execHubQueueRefill s
  | .residentSlotCopy => Sys2Proof.Machine.execResidentSlotCopy s
  | .sorusPass => Sys2Proof.Machine.execSorusPass s
  | .preemptionRequest => Sys2Proof.Machine.execPreemptionRequest s
  | .safePoint => Sys2Proof.Machine.execSafePoint s
  | .saveComplete => Sys2Proof.Machine.execSaveComplete s
  | .restoreComplete => Sys2Proof.Machine.execRestoreComplete s
  | .launchCompletion => Sys2Proof.Machine.execLaunchCompletion s
  | .grant => Sys2Proof.Machine.execGrant s
  | .broadcastArrival => Sys2Proof.Machine.execBroadcastArrival s
  | .drainComplete => Sys2Proof.Machine.execDrainComplete s
  | .localCommit => Sys2Proof.Machine.execLocalCommit s
  | .reservationTimeout => Sys2Proof.Machine.execReservationTimeout s
  | .loadDataReturn => Sys2Proof.Machine.execLoadDataReturn s
  | .tileOperationComplete => Sys2Proof.Machine.execTileOperationComplete s
  | .copyHeadCheck => Sys2Proof.Machine.execCopyHeadCheck s
  | .copySectorWritten => Sys2Proof.Machine.execCopySectorWritten s
  | .streamFetchReturn => Sys2Proof.Machine.execStreamFetchReturn s
  | .streamWriteTransferDone => Sys2Proof.Machine.execStreamWriteTransferDone s
  | .barrierUpdate => Sys2Proof.Machine.execBarrierUpdate s
  | .exchangeComplete => Sys2Proof.Machine.execExchangeComplete s
  | .groupBarrierComplete => Sys2Proof.Machine.execGroupBarrierComplete s
  | .launchBarrierComplete => Sys2Proof.Machine.execLaunchBarrierComplete s
  | .logMergeDone => Sys2Proof.Machine.execLogMergeDone s
  | .crozierContribution => Sys2Proof.Machine.execCrozierContribution s
  | .ownerRequestArrival => Sys2Proof.Machine.execOwnerRequestArrival s
  | .replyArrival => Sys2Proof.Machine.execReplyArrival s
  | .resultCacheRetirement => Sys2Proof.Machine.execResultCacheRetirement s
  | .retransmission => Sys2Proof.Machine.execRetransmission s
  | .serialWrapRelease => Sys2Proof.Machine.execSerialWrapRelease s
  | .messageArrival => Sys2Proof.Machine.execMessageArrival s
  | .messageSendRelease => Sys2Proof.Machine.execMessageSendRelease s
  | .postGo => Sys2Proof.Machine.execPostGo s
  | .hteHubWrite => Sys2Proof.Machine.execHteHubWrite s
  | .scanDrainEnd => Sys2Proof.Machine.execScanDrainEnd s
  | .scanDrainTimeout => Sys2Proof.Machine.execScanDrainTimeout s
  | .scanPatternEnd => Sys2Proof.Machine.execScanPatternEnd s
  | .lcmapAbsentSet => Sys2Proof.Machine.execLcmapAbsentSet s
  | .lcmapAbsentClear => Sys2Proof.Machine.execLcmapAbsentClear s
  | .hcdataWrite => Sys2Proof.Machine.execHcdataWrite s
  | .hubWindowWrite => Sys2Proof.Machine.execHubWindowWrite s
  | .ptrootWrite => Sys2Proof.Machine.execPtrootWrite s
  | .tlbinvWrite => Sys2Proof.Machine.execTlbinvWrite s
  | .boostlvlWrite => Sys2Proof.Machine.execBoostlvlWrite s
  | .ppoolWrite => Sys2Proof.Machine.execPpoolWrite s
  | .hostCxlMemWrite => Sys2Proof.Machine.execHostCxlMemWrite s
  | .hostCxlMemRead => Sys2Proof.Machine.execHostCxlMemRead s
  | .launchWindowWrite => Sys2Proof.Machine.execLaunchWindowWrite s
  | .hostBarInvalidAccess => Sys2Proof.Machine.execHostBarInvalidAccess s
  | .vfFunctionLevelReset => Sys2Proof.Machine.execVfFunctionLevelReset s
  | .vfResetEnd => Sys2Proof.Machine.execVfResetEnd s
  | .spartWrite => Sys2Proof.Machine.execSpartWrite s
  | .partitionControllerStep => Sys2Proof.Machine.execPartitionControllerStep s
  | .datagramArrival => Sys2Proof.Machine.execDatagramArrival s
  | .exportRequest => Sys2Proof.Machine.execExportRequest s
  | .revoke => Sys2Proof.Machine.execRevoke s
  | .revokeDrainEnd => Sys2Proof.Machine.execRevokeDrainEnd s
  | .bucketRefill => Sys2Proof.Machine.execBucketRefill s
  | .headRequestRelease => Sys2Proof.Machine.execHeadRequestRelease s
  | .checkpointGo => Sys2Proof.Machine.execCheckpointGo s
  | .checkpointUnitAck => Sys2Proof.Machine.execCheckpointUnitAck s
  | .checkpointResend => Sys2Proof.Machine.execCheckpointResend s
  | .debugHalt => Sys2Proof.Machine.execDebugHalt s
  | .debugResume => Sys2Proof.Machine.execDebugResume s
  | .debugStep => Sys2Proof.Machine.execDebugStep s
  | .dbgrdatWrite => Sys2Proof.Machine.execDbgrdatWrite s
  | .syncPeriod => Sys2Proof.Machine.execSyncPeriod s
  | .routerGridPeriod => Sys2Proof.Machine.execRouterGridPeriod s
  | .trapEntry => Sys2Proof.Machine.execTrapEntry s
  | .interruptEntry => Sys2Proof.Machine.execInterruptEntry s
  | .detectionTimerExpiry => Sys2Proof.Machine.execDetectionTimerExpiry s
  | .enginePageFault => Sys2Proof.Machine.execEnginePageFault s
  | .promiseExpiry => Sys2Proof.Machine.execPromiseExpiry s
  | .uncorrectableError => Sys2Proof.Machine.execUncorrectableError s
  | .finjWrite => Sys2Proof.Machine.execFinjWrite s
  | .finjRead => Sys2Proof.Machine.execFinjRead s
  | .railSample => Sys2Proof.Machine.execRailSample s
  | .timeBeacon => Sys2Proof.Machine.execTimeBeacon s
  | .beaconLoss => Sys2Proof.Machine.execBeaconLoss s
  | .linkLaneFailure => Sys2Proof.Machine.execLinkLaneFailure s
  | .linkRetrainEnd => Sys2Proof.Machine.execLinkRetrainEnd s
  | .portLaneFailure => Sys2Proof.Machine.execPortLaneFailure s
  | .portRetrainEnd => Sys2Proof.Machine.execPortRetrainEnd s
  | .pstatRead => Sys2Proof.Machine.execPstatRead s
  | .debtstallTimer => Sys2Proof.Machine.execDebtstallTimer s
  | .requestLastDeadline => Sys2Proof.Machine.execRequestLastDeadline s
  | .returnToService => Sys2Proof.Machine.execReturnToService s
  | .hostLaneFailure => Sys2Proof.Machine.execHostLaneFailure s

end Sys2Proof.Machine
end

