-- ==== Sys2Proof/Machine/Step.lean ====
section
/-! DEFINITION. One step of the module: a turn that the surroundings choose, else a happening that is due, else the context
whose turn it is issues, else the turn passes on. -/

namespace Sys2Proof.Machine

/-- Run a happening: it stands in `now`, and the row of the opcode table that it belongs to is executed. -/
def runEvent (e : Event) (s : State) : Host.Outcome State Fault Refusal :=
  if s.lets e then exec e.instr { s with now := some e } else .next s

/-- One step (95_what_each_step_holds). What is due at its own time comes first. -/
def step (s : State) : Host.Outcome State Fault Refusal :=
  match s.agenda.find? Event.onTime with
  | some e => runEvent e { s with agenda := s.agenda.eraseP Event.onTime }
  | none =>
    match s.script with
    | t :: ts =>
      match ({ s with script := ts }).turn t with
      | .run e u => runEvent e u
      | .done u => .next u
    | [] =>
      match s.agenda with
      | e :: es => runEvent e { s with agenda := es }
      | [] =>
        if s.spent then .next s.timeStep
        else if 10240 ≤ s.cur then .fault .noSuchContext
        else
          match s.preIssue with
          | .go i => exec i s
          | .done u => .next u

/-- The firing that a placed word runs in: pre-emptible, on channel 2, in M. -/
def placedFiring : Firing :=
  { fid := 0, chan := 2, rtc := false, level := .m, prio := 0, part := 0, slot := 0, key := none, wid := 0, gid := 0
    idx := 0, vrid := 0, serial := 0, trigger := [], src := 0, banks := 0, spill := 0, order := none, owner := none
    retired := 0, redel := 0, born := 0, inject := false, startAt := 0, startCyc := 0 }

/-- The state with an instruction word placed where the next step fetches (log 7): context 0 runs a firing whose pc is
0x10000, in a partition whose page table (a root at 0 and a table at 0x1000) maps the first GiB onto itself, with module
memory present; nothing else is due. It stands for the bring-up image, the partition's set-up and the launch. -/
def State.withFetchWord (s : State) (_nbits w : Nat) : State :=
  let s := { s with script := [], agenda := [], cur := 0, spent := false, idle := false }
  let s := { s with hub := { s.hub with good := s.hub.good ||| 1, stopped := false } }
  let s := s.setSorus 0 { s.sorus 0 with pvalid := true, part := 0 }
  let s := s.setSx 0 { s.sx 0 with halted := false, tlb := [], clk := [] }
  let s := s.setCore 0 { s.core 0 with icache := [] }
  let s := s.setPart 0 { s.part 0 with ptroot := 0, partcfg := 0 }
  let s := s.setSlot 0 { s.slot 0 with tallot := word (128 * 2 ^ 32) }
  let s := ((s.writeNat 0 8 0x1001).writeNat 0x1000 8 61).writeNat 0x10000 4 w
  let c : Ctx := { s.ctx 0 with
    st := .running, wait := .none, waitOk := false, priv := .m, pc := 0x10000, pend := [], older := none, sync := false
    carry := [], trapReq := none, firing := some placedFiring, resv := none }
  (s.setCtx 0 { c with young := { ck := c.snapshot } }).setAux 0 {}

end Sys2Proof.Machine
end

