-- ==== Sys2Proof/Safety.lean ====
section
/-! DEFINITION. What counts as a safe run, and the words in which statements speak of a next state: which units a step leaves
alone, that an instruction has retired, what its chunk holds. -/

namespace Sys2Proof

open Sys2Proof.Machine

/-- A step that neither faults nor is refused. -/
def stepSafe (s : State) : Bool := match step s with | .next _ => true | .fault _ => false | .refused _ => false

/-- `n` steps from a state, all of them safe. -/
def safeRun : Nat → State → Bool
  | 0, _ => true
  | n + 1, s => match step s with | .next t => safeRun n t | .fault _ => false | .refused _ => false

/-! ### The frame of an instruction -/

/-- The timers that were set stand, and a further one only asks for the commit of a chunk of the current context (R52, R139, R141). -/
def TimersKept (s t : State) : Prop :=
  ∃ l, t.timers = s.timers ++ l ∧ ∀ e ∈ l, e.2 = .grant ∨ e.2 = .localCommit s.cur

/-- No unit but the current context differs: every byte of memory, every other context, the cores, sori, partitions, tenant
slots, the hub, the fabric, what is under way between the units, what the thallus has granted, time, the timers and what has
left the module. (A number may have been drawn for a record, and a commit asked for.) -/
structure UnitsKept (s t : State) : Prop where
  byte : ∀ a, t.byte a = s.byte a
  ctx : ∀ h, h ≠ s.cur → t.ctx h = s.ctx h
  aux : ∀ h, h ≠ s.cur → t.aux h = s.aux h
  cores : t.cores = s.cores
  sori : t.sori = s.sori
  saux : t.saux = s.saux
  parts : t.parts = s.parts
  slots : t.slots = s.slots
  hub : t.hub = s.hub
  fabric : t.fabric = s.fabric
  gtime : t.gtime = s.gtime
  timers : TimersKept s t
  out : t.out = s.out
  cur : t.cur = s.cur
  flight : { t.flight with ids := s.flight.ids } = s.flight
  thallus : { t.thallus with requests := s.thallus.requests } = s.thallus

/-- The trap registers, the level and the firing of the current context are as before, and it runs as before. -/
structure StatusKept (s t : State) : Prop where
  sys : t.hart.sys = s.hart.sys
  priv : t.hart.priv = s.hart.priv
  firing : t.hart.firing = s.hart.firing
  st : t.hart.st = s.hart.st

/-- The register files of the current context are as before. -/
structure RegsKept (s t : State) : Prop where
  x : ∀ r, t.x r = s.x r
  v : ∀ r, t.v r = s.v r
  p : ∀ r, t.p r = s.p r
  acc : ∀ r, t.acc r = s.acc r

/-- xreg(d) holds `val`, unless `d` is 0, which reads 0 (R16); no other register of the context differs. -/
structure WroteX (s t : State) (d : Reg) (val : Word) : Prop where
  x : ∀ r, t.x r = if r = d ∧ r ≠ 0 then val else s.x r
  v : ∀ r, t.v r = s.v r
  p : ∀ r, t.p r = s.p r
  acc : ∀ r, t.acc r = s.acc r

/-- vreg(d) holds `val`; no other register of the context differs. -/
structure WroteV (s t : State) (d : Reg) (val : VReg) : Prop where
  x : ∀ r, t.x r = s.x r
  v : ∀ r, t.v r = if r = d then val else s.v r
  p : ∀ r, t.p r = s.p r
  acc : ∀ r, t.acc r = s.acc r

/-- preg(d) holds `val`, unless `d` is 0, which reads ones (R26); no other register of the context differs. -/
structure WroteP (s t : State) (d : Reg3) (val : PReg) : Prop where
  x : ∀ r, t.x r = s.x r
  v : ∀ r, t.v r = s.v r
  p : ∀ r, t.p r = if r = d ∧ r ≠ 0 then val else s.p r
  acc : ∀ r, t.acc r = s.acc r

/-- acc(d) holds `val`; no other register of the context differs. -/
structure WroteA (s t : State) (d : Reg3) (val : AReg) : Prop where
  x : ∀ r, t.x r = s.x r
  v : ∀ r, t.v r = s.v r
  p : ∀ r, t.p r = s.p r
  acc : ∀ r, t.acc r = if r = d then val else s.acc r

/-! ### Retiring -/

/-- Whether a further instruction makes a chunk one that ends after it whatever the instruction is (R134). -/
def fills (k : Chunk) : Bool := k.n = 2047 || k.lines.length = 128 || k.rset.length = 512

/-- No chunk bound falls after the next instruction but one that the instruction itself brings. -/
def NoBound (s : State) : Prop := fills s.hart.young = false

/-- The current firing is no ordered task (R113), so that a bound does not kill it. -/
def Unordered (s : State) : Prop := ∀ f, s.hart.firing = some f → f.order = none

/-- A bound after the current instruction does not kill the firing: none falls, or the firing is no ordered task. -/
def Goes (s : State) : Prop := Unordered s ∨ NoBound s

/-- The instruction has retired with the next one at `npc`; nothing but the chunk and what the instruction writes differs. The
turn has been used. -/
structure Retired (s t : State) (npc : Word) : Prop where
  units : UnitsKept s t
  status : StatusKept s t
  pc : t.hart.pc = npc
  spent : t.spent = true

/-- The chunk of the instruction, executing or awaiting its commit, holds `is` after what it held, and has one instruction more. -/
def Holds (s t : State) (is : List Held) : Prop :=
  ∃ k : Chunk, (t.hart.young = k ∨ t.hart.older = some k) ∧ k.held = s.hart.young.held ++ is ∧
    k.n = s.hart.young.n + 1 ∧ k.wbuf = s.hart.young.wbuf

/-- A bound has fallen (R134): the chunk awaits its commit and a new one begins at the next instruction, or, where the chunk
before it is still uncommitted, it has ended and waits (R133). The new chunk takes over how often it has been squashed (R143). -/
def Bounded (s t : State) : Prop :=
  (s.hart.older = none → (∃ o, t.hart.older = some o ∧ o.n = s.hart.young.n + 1) ∧
    t.hart.young = { ck := t.hart.snapshot, hor := t.hart.floor, sq := s.hart.young.next.1, sqLines := s.hart.young.next.2 }) ∧
  (∀ o, s.hart.older = some o → t.hart.older = some o ∧ t.hart.young.ended = true ∧ t.hart.young.n = s.hart.young.n + 1)

/-! ### Traps -/

/-- Bits of a status register after a trap or a return: each of `new` at its place, every other bit as before. -/
def BitsSet (old st : Word) (new : List (Nat × Bool)) : Prop :=
  ∀ n, n < 64 → st.getLsbD n = match new.find? (fun p => p.1 = n) with | some p => p.2 | none => old.getLsbD n

/-- The level a trap with code `c` goes to is S (R427). -/
def GoesToS (s : State) (h : Nat) (int : Bool) (c : Nat) : Prop :=
  (s.ctx h).priv ≠ .m ∧ (if int then (s.core (h / 4)).mideleg else (s.core (h / 4)).medeleg).getLsbD c = true

/-- Context `h` has taken the trap `c` with value `v` (R427): the registers of the target level, the status bits, the level and
the pc are as the entry sets them; the other level's registers, the register files and the firing are as before. -/
structure Trapped (s t : State) (h : Nat) (int : Bool) (c : Nat) (v : Word) : Prop where
  toS : GoesToS s h int c →
    (t.ctx h).pc = (s.core (h / 4)).stvec &&& ~~~3 ∧ (t.ctx h).priv = .s ∧
    (t.ctx h).sys.sepc = (s.ctx h).pc ∧ (t.ctx h).sys.scause = word ((if int then 2 ^ 63 else 0) + c) ∧
    (t.ctx h).sys.stval = v ∧
    BitsSet (s.ctx h).sys.status (t.ctx h).sys.status
      [(8, (s.ctx h).priv = .s), (5, (s.ctx h).sys.status.getLsbD 1), (1, false)] ∧
    (t.ctx h).sys.mepc = (s.ctx h).sys.mepc ∧ (t.ctx h).sys.mcause = (s.ctx h).sys.mcause ∧
    (t.ctx h).sys.mtval = (s.ctx h).sys.mtval
  toM : ¬ GoesToS s h int c →
    (t.ctx h).pc = (s.core (h / 4)).mtvec &&& ~~~3 ∧ (t.ctx h).priv = .m ∧
    (t.ctx h).sys.mepc = (s.ctx h).pc ∧ (t.ctx h).sys.mcause = word ((if int then 2 ^ 63 else 0) + c) ∧
    (t.ctx h).sys.mtval = v ∧
    BitsSet (s.ctx h).sys.status (t.ctx h).sys.status
      [(12, (s.ctx h).priv = .m), (11, (s.ctx h).priv ≠ .u), (7, (s.ctx h).sys.status.getLsbD 3), (3, false)] ∧
    (t.ctx h).sys.sepc = (s.ctx h).sys.sepc ∧ (t.ctx h).sys.scause = (s.ctx h).sys.scause ∧
    (t.ctx h).sys.stval = (s.ctx h).sys.stval
  regs : (t.ctx h).regs = (s.ctx h).regs
  shadow : (t.ctx h).shadow = (s.ctx h).shadow
  firing : (t.ctx h).firing = (s.ctx h).firing

/-- The vector of the level a trap goes to has a handler (R426 MODE). -/
def HasHandler (s : State) (h : Nat) (int : Bool) (c : Nat) : Prop :=
  (GoesToS s h int c → (s.core (h / 4)).stvec.toNat % 4 ≠ 0) ∧ (¬ GoesToS s h int c → (s.core (h / 4)).mtvec.toNat % 4 ≠ 0)

/-! ### The shapes of results -/

/-- `i` completes: the next instruction stands behind it, its chunk holds nothing new, and of the context's state only xreg(d)
may differ, which holds `val`. -/
def ComputesX (s : State) (i : Instr) (d : Reg) (val : Word) : Prop :=
  ∃ t, exec i s = .next t ∧ Retired s t (s.hart.pc + 4) ∧ Holds s t [] ∧ t.hart.shadow = s.hart.shadow ∧ t.flight = s.flight ∧
    WroteX s t d val

/-- `i` completes, and of the context's state only vreg(d) may differ, which holds `val`. -/
def ComputesV (s : State) (i : Instr) (d : Reg) (val : VReg) : Prop :=
  ∃ t, exec i s = .next t ∧ Retired s t (s.hart.pc + 4) ∧ Holds s t [] ∧ t.hart.shadow = s.hart.shadow ∧ t.flight = s.flight ∧
    WroteV s t d val

/-- `i` completes, and of the context's state only preg(d) may differ, which holds `val`. -/
def ComputesP (s : State) (i : Instr) (d : Reg3) (val : PReg) : Prop :=
  ∃ t, exec i s = .next t ∧ Retired s t (s.hart.pc + 4) ∧ Holds s t [] ∧ t.hart.shadow = s.hart.shadow ∧ t.flight = s.flight ∧
    WroteP s t d val

/-- `i` completes, and of the context's state only acc(d) may differ, which holds `val`. -/
def ComputesA (s : State) (i : Instr) (d : Reg3) (val : AReg) : Prop :=
  ∃ t, exec i s = .next t ∧ Retired s t (s.hart.pc + 4) ∧ Holds s t [] ∧ t.hart.shadow = s.hart.shadow ∧ t.flight = s.flight ∧
    WroteA s t d val

/-- `i` completes, writes no register, holds nothing new, and the next instruction stands at `npc`. -/
def GoesTo (s : State) (i : Instr) (npc : Word) : Prop :=
  ∃ t, exec i s = .next t ∧ Retired s t npc ∧ Holds s t [] ∧ t.hart.shadow = s.hart.shadow ∧ RegsKept s t

/-- A conditional branch with offset `off` (R243): not taken it goes on; taken it goes to its target, or takes INSTR_MISALIGNED
where that is no multiple of 4. -/
def BranchesOn (s : State) (i : Instr) (taken : Prop) (off : Word) : Prop :=
  (¬ taken → GoesTo s i (s.hart.pc + 4)) ∧
  (taken → (s.hart.pc + off).toNat % 4 = 0 → GoesTo s i (s.hart.pc + off)) ∧
  (taken → (s.hart.pc + off).toNat % 4 ≠ 0 → exec i s = .next (s.raise 0 (s.hart.pc + off)))

/-- A jump that links to xreg(d) (R243). -/
def JumpsTo (s : State) (i : Instr) (d : Reg) (target : Word) : Prop :=
  (target.toNat % 4 = 0 → ∃ t, exec i s = .next t ∧ Retired s t target ∧ Holds s t [] ∧
    t.hart.shadow = s.hart.shadow ∧ WroteX s t d (s.hart.pc + 4)) ∧
  (target.toNat % 4 ≠ 0 → exec i s = .next (s.raise 0 target))

/-- `i` completes and writes no register; the chunk holds `is` more. -/
def Defers (s : State) (i : Instr) (is : List Held) : Prop :=
  ∃ t, exec i s = .next t ∧ Retired s t (s.hart.pc + 4) ∧ Holds s t is ∧ t.hart.shadow = s.hart.shadow ∧ RegsKept s t

/-- As `Defers`, with a chunk bound after the instruction (R134). -/
def DefersEnd (s : State) (i : Instr) (is : List Held) : Prop :=
  ∃ t, exec i s = .next t ∧ Retired s t (s.hart.pc + 4) ∧ Holds s t is ∧ t.hart.shadow = s.hart.shadow ∧ RegsKept s t ∧
    Bounded s t

/-- As `DefersEnd`, and nothing issues until the chunk has committed (R251, R248). -/
def DefersSync (s : State) (i : Instr) (is : List Held) : Prop :=
  ∃ t, exec i s = .next t ∧ Retired s t (s.hart.pc + 4) ∧ Holds s t is ∧ t.hart.shadow = s.hart.shadow ∧ RegsKept s t ∧
    Bounded s t ∧ t.hart.sync = true

/-- xreg(d) awaits the answer to a request that takes the next number (R359), x0 none; no other register's wait differs. -/
def Asked (s t : State) (d : Reg) : Prop :=
  (d ≠ 0 → ∃ p ∈ t.hart.pend, p.reg = d.toNat ∧ p.id = s.flight.ids) ∧
  (∀ p, p.reg ≠ d.toNat → (p ∈ t.hart.pend ↔ p ∈ s.hart.pend))

/-- `i` completes and writes no register; the chunk holds the request `is`, and xreg(d) awaits its answer. -/
def Requests (s : State) (i : Instr) (d : Reg) (is : List Held) : Prop :=
  ∃ t, exec i s = .next t ∧ Retired s t (s.hart.pc + 4) ∧ Holds s t is ∧ t.hart.shadow = s.hart.shadow ∧ RegsKept s t ∧
    Asked s t d

/-- As `Requests`, with a chunk bound after the instruction until whose commit nothing issues. -/
def RequestsSync (s : State) (i : Instr) (d : Reg) (is : List Held) : Prop :=
  ∃ t, exec i s = .next t ∧ Retired s t (s.hart.pc + 4) ∧ Holds s t is ∧ t.hart.shadow = s.hart.shadow ∧ RegsKept s t ∧
    Asked s t d ∧ Bounded s t ∧ t.hart.sync = true

/-- `i` makes its context Waiting for `w` (R77, R253): a chunk bound falls after it, and the wait may end once that chunk has
committed. -/
def WaitsFor (s : State) (i : Instr) (w : WaitFor) (is : List Held) : Prop :=
  ∃ t, exec i s = .next t ∧ UnitsKept s t ∧ t.hart.pc = s.hart.pc + 4 ∧ t.spent = true ∧ t.hart.sys = s.hart.sys ∧
    t.hart.priv = s.hart.priv ∧ t.hart.firing = s.hart.firing ∧ t.hart.st = .waiting ∧ t.hart.wait = w ∧
    t.hart.waitOk = false ∧ Holds s t (is ++ [.wait]) ∧ t.hart.shadow = s.hart.shadow ∧ RegsKept s t ∧ Bounded s t

/-- As `WaitsFor`, with xreg(d) awaiting what the wait's end answers. -/
def WaitsAsking (s : State) (i : Instr) (w : WaitFor) (d : Reg) (is : List Held) : Prop :=
  ∃ t, exec i s = .next t ∧ UnitsKept s t ∧ t.hart.pc = s.hart.pc + 4 ∧ t.spent = true ∧ t.hart.sys = s.hart.sys ∧
    t.hart.priv = s.hart.priv ∧ t.hart.firing = s.hart.firing ∧ t.hart.st = .waiting ∧ t.hart.wait = w ∧
    t.hart.waitOk = false ∧ Holds s t (is ++ [.wait]) ∧ t.hart.shadow = s.hart.shadow ∧ RegsKept s t ∧ Bounded s t ∧ Asked s t d

/-! ### Loads and stores -/

/-- The chunk of the instruction after it, executing or awaiting its commit, with one instruction more. -/
def ChunkOf (s t : State) (P : Chunk → Prop) : Prop :=
  ∃ k : Chunk, (t.hart.young = k ∨ t.hart.older = some k) ∧ k.n = s.hart.young.n + 1 ∧ P k

/-- Loads of `w` bytes at the addresses `vas` go to the places `ps` and complete at once: every address is aligned and
resolves (R119, R424), no bank sleeps (R93), no line is pending (R141), no place lies in another sorus that takes no traffic (R412, R49),
the read set has room (R134), no place is a host page (R404). -/
structure CanLoad (s : State) (w : Nat) (vas : List Word) (ps : List Place) : Prop where
  places : vas.map (s.resolve s.cur .load) = ps.map .ok
  aligned : ∀ a ∈ vas, a.toNat % w = 0
  awake : s.asleep ps = []
  free : ∀ p ∈ ps, s.lineBusy s.hart p.key w = false
  open' : ∀ p ∈ ps, s.keyStill (s.cur / 64) p.key = false
  room : (addLines s.hart.young.rset ps).length ≤ 512
  device : ∀ p ∈ ps, isHost p.key = false

/-- Stores of `w` bytes at the addresses `vas` go to the places `ps` and complete at once. -/
structure CanStore (s : State) (w : Nat) (vas : List Word) (ps : List Place) : Prop where
  places : vas.map (s.resolve s.cur .store) = ps.map .ok
  aligned : ∀ a ∈ vas, a.toNat % w = 0
  awake : s.asleep ps = []
  room : (ps.foldl (fun l p => insertNew l (p.key / 64)) s.hart.young.lines).length ≤ 128

/-- An instruction that loads has retired: the lines it read are in the read set, the horizon covers their versions (R136,
R141), and nothing else of the chunk differs. -/
structure Loaded (s t : State) (ps : List Place) : Prop where
  retired : Retired s t (s.hart.pc + 4)
  flight : t.flight = s.flight
  chunk : ChunkOf s t (fun k => k.held = s.hart.young.held ∧ k.wbuf = s.hart.young.wbuf ∧ k.wset = s.hart.young.wset ∧
    k.rset = addLines s.hart.young.rset ps ∧ k.hor = max s.hart.young.hor (s.version ps))

/-- An instruction that stores has retired: its lines are in the write set (R136), and nothing else of the chunk but its write
buffer differs. -/
structure Stored (s t : State) (ps : List Place) : Prop where
  retired : Retired s t (s.hart.pc + 4)
  flight : t.flight = s.flight
  shadow : t.hart.shadow = s.hart.shadow
  regs : RegsKept s t
  chunk : ChunkOf s t (fun k => k.held = s.hart.young.held ∧ k.rset = s.hart.young.rset ∧
    k.wset = addLines s.hart.young.wset ps ∧ k.lines = ps.foldl (fun l p => insertNew l (p.key / 64)) s.hart.young.lines)

/-- `i` loads `w` bytes at `va` into xreg(d), extended by `ext`. -/
def LoadsX (s : State) (i : Instr) (w : Nat) (va : Word) (d : Reg) (ext : Nat → Word) : Prop :=
  ∀ p, CanLoad s w [va] [p] → ∃ t, exec i s = .next t ∧ Loaded s t [p] ∧ t.hart.shadow = s.hart.shadow ∧
    WroteX s t d (ext (s.seenNat s.hart p.key w))

/-- `i` stores the low `w` bytes of `v` at `va`: no byte of memory differs before the commit (R135), the context sees the stored
bytes, and sees every other byte as before. -/
def StoresTo (s : State) (i : Instr) (w : Nat) (va : Word) (v : Nat) : Prop :=
  ∀ p, CanStore s w [va] [p] → ∃ t, exec i s = .next t ∧ Stored s t [p] ∧
    (∀ j, j < w → t.seen t.hart (p.key + j) = BitVec.ofNat 8 (v / 256 ^ j)) ∧
    (∀ k, k < p.key ∨ p.key + w ≤ k → t.seen t.hart k = s.seen s.hart k)

/-- `i` stores elements of `w` bytes: element `n` of `vs` at address `n` of `vas`, in increasing `n`. A byte that several
elements cover holds that of the last; every byte that none covers is as before. -/
def StoresAll (s : State) (i : Instr) (w : Nat) (vas : List Word) (vs : List Nat) : Prop :=
  ∀ ps, CanStore s w vas ps → ∃ t, exec i s = .next t ∧ Stored s t ps ∧
    (∀ (n j v : Nat) (p : Place), ps[n]? = some p → vs[n]? = some v → j < w →
      (∀ m q, n < m → ps[m]? = some q → ¬ (q.key ≤ p.key + j ∧ p.key + j < q.key + w)) →
      t.seen t.hart (p.key + j) = BitVec.ofNat 8 (v / 256 ^ j)) ∧
    (∀ k, (∀ p ∈ ps, ¬ (p.key ≤ k ∧ k < p.key + w)) → t.seen t.hart k = s.seen s.hart k)

/-- A descriptor of `n` doublewords at `va`, aligned to `al` bytes, is read as `d` (R424). -/
def Reads (s : State) (al n : Nat) (va : Word) (d : List Word) : Prop :=
  va.toNat % al = 0 ∧ ∃ ps, CanLoad s 8 ((List.range n).map (fun i => va + word (8 * i))) ps ∧
    d = ps.map (fun p => word (s.seenNat s.hart p.key 8))

/-! ### Vector registers -/

/-- `i` completes and of the context's state only vreg(d) may differ: lane `k` of `w` bits holds `f k`, its low `w` bits. -/
def LanesV (s : State) (i : Instr) (d : Reg) (w : Nat) (f : Nat → Nat) : Prop :=
  ∃ v, ComputesV s i d v ∧ ∀ k, k < 2048 / w → elem v w k = f k % 2 ^ w

/-- `i` completes and of the context's state only preg(d) may differ: bit `k` of 512 is `f k`. -/
def BitsP (s : State) (i : Instr) (d : Reg3) (f : Nat → Bool) : Prop :=
  ∃ v, ComputesP s i d v ∧ ∀ k, k < 512 → v.getLsbD k = f k

/-- `i` completes and of the context's state only acc(d) may differ: lane `k` of 128 holds `f k`, its low 32 bits. -/
def LanesA (s : State) (i : Instr) (d : Reg3) (f : Nat → Nat) : Prop :=
  ∃ v, ComputesA s i d v ∧ ∀ k, k < 128 → elem v 32 k = f k % 2 ^ 32

/-- Element `k` of `w` bits of the group of vector registers that begins at `d` (R271). -/
def groupElem (s : State) (d : Reg) (w k : Nat) : Nat :=
  elem (s.v (BitVec.ofNat 5 (d.toNat + k / (2048 / w)))) w (k % (2048 / w))

/-- `i` completes and of the context's state only the `n` vector registers from `d` on may differ: their element `k` of `w` bits
holds `f k`, its low `w` bits. -/
def LanesGroup (s : State) (i : Instr) (d : Reg) (n w : Nat) (f : Nat → Nat) : Prop :=
  ∃ t, exec i s = .next t ∧ Retired s t (s.hart.pc + 4) ∧ Holds s t [] ∧ t.hart.shadow = s.hart.shadow ∧ t.flight = s.flight ∧
    (∀ r, t.x r = s.x r) ∧ (∀ r, t.p r = s.p r) ∧ (∀ r, t.acc r = s.acc r) ∧
    (∀ r : Reg, r.toNat < d.toNat ∨ d.toNat + n ≤ r.toNat → t.v r = s.v r) ∧
    ∀ k, k < n * (2048 / w) → groupElem t d w k = f k % 2 ^ w

/-- `i` loads 32-bit elements: lane `k` of vreg(d) with its guard bit set receives the bytes at `addr k`; any other lane keeps its
value. -/
def LoadsLanes (s : State) (i : Instr) (g : Reg3) (d : Reg) (addr : Nat → Word) : Prop :=
  ∀ ps, CanLoad s 4 (((List.range 64).filter (fun k => (s.p g).getLsbD k)).map addr) ps →
    ∃ t, exec i s = .next t ∧ Loaded s t ps ∧ t.hart.shadow = s.hart.shadow ∧ ∃ v, WroteV s t d v ∧
      ∀ k, k < 64 → ((s.p g).getLsbD k = false → elem v 32 k = elem (s.v d) 32 k) ∧
        ∀ p, (s.p g).getLsbD k = true → s.resolve s.cur .load (addr k) = .ok p →
          elem v 32 k = s.seenNat s.hart p.key 4

/-- `i` stores the 32-bit lanes of vreg(d) whose guard bit is set, lane `k` at `addr k`. -/
def StoresLanes (s : State) (i : Instr) (g : Reg3) (d : Reg) (addr : Nat → Word) : Prop :=
  let ks := (List.range 64).filter (fun k => (s.p g).getLsbD k)
  StoresAll s i 4 (ks.map addr) (ks.map (elem (s.v d) 32))

/-! ### Engines -/

/-- The tile operation that an instruction of the current context issues next (R301). -/
def nextTile (s : State) (k : TileKind) : Tile :=
  { id := s.flight.ids, fid := s.myFid, h := s.cur, kind := k, fmt := (s.core s.lcore).fmt, admitted := false }

/-- `i` completes and writes no register; its chunk holds the tile operation `k`, which counts as outstanding (R301). -/
def IssuesTile (s : State) (i : Instr) (k : TileKind) : Prop :=
  ∃ t, exec i s = .next t ∧ Retired s t (s.hart.pc + 4) ∧ Holds s t [.tile (nextTile s k)] ∧ t.hart.shadow = s.hart.shadow ∧
    RegsKept s t ∧ (t.aux s.cur).tiles = (s.aux s.cur).tiles ++ [s.flight.ids]

/-! ### Happenings -/

/-- No byte of memory and no context differs. -/
structure Still (s t : State) : Prop where
  byte : ∀ a, t.byte a = s.byte a
  ctx : ∀ h, t.ctx h = s.ctx h

/-- The happening has passed without an effect. -/
def Idle (s t : State) : Prop := t = { s with now := none }

/-- No context but `h` differs. -/
def OthersStill (s t : State) (h : Nat) : Prop := ∀ g, g ≠ h → t.ctx g = s.ctx g

/-- No context has trace on, so that no happening writes trace records. -/
def NoTrace (s : State) : Prop := ∀ h, (s.aux h).trace = false

/-- Context `h` has left its wait (R77): it runs, or drains where a pre-emption request stands and no halt holds that (R422); it is
otherwise as before, and no other context and no byte differs. -/
def Woken (s t : State) (h : Nat) : Prop :=
  t.ctx h = { s.ctx h with
    st := if (s.aux h).preqs.isEmpty || (s.sx (h / 64)).halted then .running else .draining, wait := .none, waitOk := false } ∧
  OthersStill s t h ∧ ∀ a, t.byte a = s.byte a

/-- Context `h` stands in the wait `w`, its chunk has committed, no operation of it awaits admission, and the clock of its core runs
(R49, R58). -/
def Waits (s : State) (h : Nat) (w : WaitFor) : Prop :=
  (s.ctx h).st = .waiting ∧ (s.ctx h).wait = w ∧ (s.ctx h).waitOk = true ∧ (∀ p ∈ (s.sorus (h / 64)).admq, p.h ≠ h) ∧
  s.paused (h / 64) = false

/-- Where the happening `e`, which the row `i` of the opcode table is, takes place, `i` completes in a state with `P`. -/
def Comes (s : State) (e : Event) (i : Instr) (P : State → Prop) : Prop :=
  s.now = some e → ∃ t, exec i s = .next t ∧ P t

end Sys2Proof
end

