-- ==== Sys2Proof/Certificates/Slice0/Obligations.lean ====
section
/-! DEFINITION. The statements for the provers. Each says what the machine does; the rule of the spec stands in its docstring. -/

section

open Sys2Proof Sys2Proof.Machine

/-! ### Base integer instructions -/

/-- R239: every computational form writes its result to xreg(rd), with no other register, no byte of memory and no unit changed.
Goes leaves out only an ordered task at a chunk bound, which `ChunkBounds` states. -/
def Obligations.BaseArithmeticWritesItsResult : Prop :=
  ∀ (s : State) (rd rs rt : Reg) (i : BitVec 12) (u : BitVec 20) (k : BitVec 6) (w : BitVec 5), Goes s →
    let a := s.x rs
    let b := s.x rt
    let c : Word := i.signExtend 64
    let lo (x : Word) : BitVec 32 := x.setWidth 32
    ComputesX s (.addi rd rs i) rd (a + c) ∧
    ComputesX s (.slti rd rs i) rd (if a.toInt < c.toInt then 1 else 0) ∧
    ComputesX s (.sltiu rd rs i) rd (if a.toNat < c.toNat then 1 else 0) ∧
    ComputesX s (.xori rd rs i) rd (a ^^^ c) ∧
    ComputesX s (.ori rd rs i) rd (a ||| c) ∧
    ComputesX s (.andi rd rs i) rd (a &&& c) ∧
    ComputesX s (.slli rd rs k) rd (a <<< k.toNat) ∧
    ComputesX s (.srli rd rs k) rd (a >>> k.toNat) ∧
    ComputesX s (.srai rd rs k) rd (a.sshiftRight k.toNat) ∧
    ComputesX s (.add rd rs rt) rd (a + b) ∧
    ComputesX s (.sub rd rs rt) rd (a - b) ∧
    ComputesX s (.sll rd rs rt) rd (a <<< (b.toNat % 64)) ∧
    ComputesX s (.srl rd rs rt) rd (a >>> (b.toNat % 64)) ∧
    ComputesX s (.sra rd rs rt) rd (a.sshiftRight (b.toNat % 64)) ∧
    ComputesX s (.slt rd rs rt) rd (if a.toInt < b.toInt then 1 else 0) ∧
    ComputesX s (.sltu rd rs rt) rd (if a.toNat < b.toNat then 1 else 0) ∧
    ComputesX s (.xor rd rs rt) rd (a ^^^ b) ∧
    ComputesX s (.or rd rs rt) rd (a ||| b) ∧
    ComputesX s (.and rd rs rt) rd (a &&& b) ∧
    ComputesX s (.lui rd u) rd ((u ++ (0 : BitVec 12)).signExtend 64) ∧
    ComputesX s (.auipc rd u) rd (s.hart.pc + (u ++ (0 : BitVec 12)).signExtend 64) ∧
    ComputesX s (.addiw rd rs i) rd ((lo (a + c)).signExtend 64) ∧
    ComputesX s (.slliw rd rs w) rd ((lo a <<< w.toNat).signExtend 64) ∧
    ComputesX s (.srliw rd rs w) rd ((lo a >>> w.toNat).signExtend 64) ∧
    ComputesX s (.sraiw rd rs w) rd (((lo a).sshiftRight w.toNat).signExtend 64) ∧
    ComputesX s (.addw rd rs rt) rd ((lo (a + b)).signExtend 64) ∧
    ComputesX s (.subw rd rs rt) rd ((lo (a - b)).signExtend 64) ∧
    ComputesX s (.sllw rd rs rt) rd ((lo a <<< (b.toNat % 32)).signExtend 64) ∧
    ComputesX s (.srlw rd rs rt) rd ((lo a >>> (b.toNat % 32)).signExtend 64) ∧
    ComputesX s (.sraw rd rs rt) rd (((lo a).sshiftRight (b.toNat % 32)).signExtend 64)

/-- R239: the products. MULH, MULHSU and MULHU write bits [127:64] of the exact product of the operands taken signed or
unsigned. R240: quotients and remainders for every pair of operands, the division by zero and the one overflow among them. -/
def Obligations.ProductsQuotientsAndRemainders : Prop :=
  (∀ (s : State) (rd rs rt : Reg), Goes s →
    let a := s.x rs
    let b := s.x rt
    ComputesX s (.mul rd rs rt) rd (BitVec.ofInt 64 (a.toInt * b.toInt)) ∧
    ComputesX s (.mulh rd rs rt) rd (BitVec.ofInt 64 ((a.toInt * b.toInt) / 2 ^ 64)) ∧
    ComputesX s (.mulhsu rd rs rt) rd (BitVec.ofInt 64 ((a.toInt * b.toNat) / 2 ^ 64)) ∧
    ComputesX s (.mulhu rd rs rt) rd (BitVec.ofNat 64 ((a.toNat * b.toNat) / 2 ^ 64)) ∧
    ComputesX s (.mulw rd rs rt) rd ((BitVec.ofInt 32 (a.toInt * b.toInt)).signExtend 64)) ∧
  (∀ (s : State) (rd rs rt : Reg), Goes s →
    let a := s.x rs
    let b := s.x rt
    let a' : BitVec 32 := a.setWidth 32
    let b' : BitVec 32 := b.setWidth 32
    ComputesX s (.div rd rs rt) rd (if b = 0 then -1 else BitVec.ofInt 64 (a.toInt.tdiv b.toInt)) ∧
    ComputesX s (.divu rd rs rt) rd (if b = 0 then -1 else BitVec.ofNat 64 (a.toNat / b.toNat)) ∧
    ComputesX s (.rem rd rs rt) rd (if b = 0 then a else BitVec.ofInt 64 (a.toInt - b.toInt * a.toInt.tdiv b.toInt)) ∧
    ComputesX s (.remu rd rs rt) rd (if b = 0 then a else BitVec.ofNat 64 (a.toNat % b.toNat)) ∧
    ComputesX s (.divw rd rs rt) rd ((if b' = 0 then -1 else BitVec.ofInt 32 (a'.toInt.tdiv b'.toInt)).signExtend 64) ∧
    ComputesX s (.divuw rd rs rt) rd ((if b' = 0 then -1 else BitVec.ofNat 32 (a'.toNat / b'.toNat)).signExtend 64) ∧
    ComputesX s (.remw rd rs rt) rd
      ((if b' = 0 then a' else BitVec.ofInt 32 (a'.toInt - b'.toInt * a'.toInt.tdiv b'.toInt)).signExtend 64) ∧
    ComputesX s (.remuw rd rs rt) rd ((if b' = 0 then a' else BitVec.ofNat 32 (a'.toNat % b'.toNat)).signExtend 64))

/-- R16: a write to x0 is discarded and x0 reads 0; p0 reads ones. -/
def Obligations.RegisterZeroIsHardWired : Prop :=
  ∀ (s : State) (v : Word) (w : PReg), s.x 0 = 0 ∧ s.p 0 = BitVec.allOnes 512 ∧
    (∀ r, (s.setX 0 v).x r = s.x r) ∧ (∀ r, (s.setP 0 w).p r = s.p r)

/-! ### Control transfers, chunk bounds and traps -/

/-- R243: branches, JAL and JALR go to their targets; JAL and JALR write pc + 4; a taken transfer to a target that is no multiple
of 4 raises INSTR_MISALIGNED with the target. -/
def Obligations.ControlTransfersReachTheirTargets : Prop :=
  ∀ (s : State) (rd rs rt : Reg) (i : BitVec 12) (j : BitVec 20), Goes s →
    let a := s.x rs
    let b := s.x rt
    let off : Word := (i ++ (0 : BitVec 1)).signExtend 64
    BranchesOn s (.beq rs rt i) (a = b) off ∧
    BranchesOn s (.bne rs rt i) (a ≠ b) off ∧
    BranchesOn s (.blt rs rt i) (a.toInt < b.toInt) off ∧
    BranchesOn s (.bge rs rt i) (b.toInt ≤ a.toInt) off ∧
    BranchesOn s (.bltu rs rt i) (a.toNat < b.toNat) off ∧
    BranchesOn s (.bgeu rs rt i) (b.toNat ≤ a.toNat) off ∧
    JumpsTo s (.jal rd j) rd (s.hart.pc + (j ++ (0 : BitVec 1)).signExtend 64) ∧
    JumpsTo s (.jalr rd rs i) rd ((a + i.signExtend 64) &&& ~~~1)

/-- R245, R373: FENCE, whatever its fields, and CHUNKEND end the chunk and have no other effect. R134: the 2,048th instruction
of a chunk, and an instruction that leaves 128 buffer lines or 512 shared lines, ends it. ADDI shows it: with any other chunk
nothing ends. R114, R427, R431: an ordered task that meets a chunk bound other than that of its HALT meets OTBOUND: nothing more issues, and the trap
waits, so that a squash can cancel it, until no chunk before it is uncommitted and the task could commit; then the task is killed and its
context is Free again. That the trapping instruction's bound makes no commit of the body is the model's reading (log 102). -/
def Obligations.ChunkBounds : Prop :=
  (∀ (s : State) (fm p q : BitVec 4) (rs rd : Reg), Unordered s →
    DefersEnd s (.fence fm p q rs rd) [] ∧ DefersEnd s .chunkend []) ∧
  (∀ (s : State) (rd rs : Reg) (i : BitVec 12), Unordered s → ∃ t, exec (.addi rd rs i) s = .next t ∧
    (s.hart.young.n = 2047 ∨ s.hart.young.lines.length = 128 ∨ s.hart.young.rset.length = 512 → Bounded s t) ∧
    (s.hart.young.n ≠ 2047 → s.hart.young.lines.length ≠ 128 → s.hart.young.rset.length ≠ 512 →
      t.hart.older = s.hart.older ∧ t.hart.young = { s.hart.young with n := s.hart.young.n + 1 })) ∧
  (∀ (s : State) (f : Firing) (o : Nat × Nat), s.hart.firing = some f → f.order = some o → s.hart.young.halts = false →
    ∃ t, exec .chunkend s = .next t ∧ UnitsKept s t ∧ t.hart.older = s.hart.older ∧ t.hart.firing = some f ∧ t.hart.sync = true ∧
      t.hart.trapReq = some { int := false, cause := 29, val := 0 } ∧ RegsKept s t ∧ .localCommit s.cur ∈ t.agenda) ∧
  (∀ (s : State) (h : Nat) (f : Firing) (o : Nat × Nat) (r : TrapReq), (s.ctx h).firing = some f → f.order = some o →
    (s.ctx h).older = none → (s.ctx h).trapReq = some r →
    (s.taskReady h = false → s.localDone h = s) ∧
    (s.taskReady h = true → s.paused (h / 64) = false → s.otFails h (s.ctx h).young = false →
      s.localDone h = s.poke (.trapEntry h r.int r.cause r.val)) ∧
    (s.taskReady h = true → (s.trapNow h r).ctx h = { floor := (s.ctx h).floor }))

/-- R427: a trap of a firing that is neither run-to-completion nor an ordered task, to a level with a handler, saves the pc, the
cause, the value and the status of the interrupted level and enters the handler of its target level. R431: a trap kills a
run-to-completion firing, an ordered task, and a firing for whose trap no handler stands. Its context is Free again and its
uncommitted work is dropped. -/
def Obligations.TrapEntry : Prop :=
  (∀ (s : State) (h : Nat) (f : Firing) (int : Bool) (c : Nat) (v : Word), (s.ctx h).firing = some f → f.rtc = false →
    f.order = none → (int = true ∨ c ≠ 28) → HasHandler s h int c → Trapped s (s.takeTrap h int c v) h int c v ∧
      (∀ a, (s.takeTrap h int c v).byte a = s.byte a) ∧ (∀ g, g ≠ h → (s.takeTrap h int c v).ctx g = s.ctx g) ∧
      (s.takeTrap h int c v).cores = s.cores ∧ (s.takeTrap h int c v).cur = s.cur) ∧
  (∀ (s : State) (h : Nat) (f : Firing) (int : Bool) (c : Nat) (v : Word), (s.ctx h).firing = some f →
    (f.rtc = true ∨ f.order ≠ none ∨ ¬ HasHandler s h int c) → (s.takeTrap h int c v).ctx h = { floor := (s.ctx h).floor })

/-- R427: an exception of the current instruction is taken at once where nothing before it is uncommitted; else it waits: the chunk before
it ends, and asks for its commit, or, where an older chunk still awaits its commit, stands ended behind it; the trap is taken once nothing
is uncommitted. -/
def Obligations.ExceptionWaitsForTheChunkBefore : Prop :=
  ∀ (s : State) (c : Nat) (v : Word), Unordered s →
    (s.hart.clean = true → s.raise c v = ((s.capEvent s.cur 1 1).spend).takeTrap s.cur false c v) ∧
    (s.hart.clean = false →
      ((s.raise c v).ctx s.cur).trapReq = some { int := false, cause := c, val := v } ∧
      ((s.raise c v).ctx s.cur).pc = s.hart.pc ∧ ((s.raise c v).ctx s.cur).regs = s.hart.regs ∧
      ((s.raise c v).ctx s.cur).sys = s.hart.sys ∧ (∀ a, (s.raise c v).byte a = s.byte a) ∧
      (s.hart.older = none → ((s.raise c v).ctx s.cur).older = some { s.hart.young with since := s.gtime } ∧
        ((s.raise c v).ctx s.cur).young.n = 0 ∧ ((s.raise c v).ctx s.cur).young.held = []) ∧
      (∀ o, s.hart.older = some o → ((s.raise c v).ctx s.cur).older = some o ∧
        ((s.raise c v).ctx s.cur).young = { s.hart.young with ended := true }))

/-- R246, R423: ECALL takes the environment-call trap of the issuing level with value 0; EBREAK takes BREAKPOINT with the pc as
its value, or, with the debug module of its sorus armed, halts the sorus with the pc at it. Stated with nothing uncommitted before
it; `ExceptionWaitsForTheChunkBefore` says what happens else. -/
def Obligations.EnvironmentCallAndBreakpointTrap : Prop :=
  ∀ (s : State) (f : Firing), s.hart.firing = some f → f.rtc = false → f.order = none → s.hart.clean = true →
    (let c := match s.hart.priv with | .u => 8 | .s => 9 | .m => 11
     HasHandler s s.cur false c → ∃ t, exec .ecall s = .next t ∧ Trapped s t s.cur false c 0 ∧ t.spent = true) ∧
    ((s.sx (s.cur / 64)).arm = false → HasHandler s s.cur false 3 →
      ∃ t, exec .ebreak s = .next t ∧ Trapped s t s.cur false 3 s.hart.pc ∧ t.spent = true) ∧
    ((s.sx (s.cur / 64)).arm = true → ∃ t, exec .ebreak s = .next t ∧ t.hart = s.hart ∧
      t.agenda = s.agenda ++ [.debugHalt (s.cur / 64)])

/-- R255: what ERET.S and ERET.M do at their commit: the pc and the level come back, the enable is restored from its saved copy,
which becomes 1, and the saved level becomes U. -/
def Obligations.TrapReturnRestores : Prop :=
  ∀ (s : State) (h : Nat),
    let k := s.ctx h
    let ts := (s.trapReturn h false).ctx h
    let tm := (s.trapReturn h true).ctx h
    (ts.pc = k.sys.sepc &&& ~~~3 ∧ ts.priv = (if k.sys.status.getLsbD 8 then .s else .u) ∧
      BitsSet k.sys.status ts.sys.status [(1, k.sys.status.getLsbD 5), (5, true), (8, false)] ∧ ts.firing = k.firing ∧
      ts.regs = k.regs) ∧
    (tm.pc = k.sys.mepc &&& ~~~3 ∧
      tm.priv = (if k.sys.status.getLsbD 12 then .m else if k.sys.status.getLsbD 11 then .s else .u) ∧
      BitsSet k.sys.status tm.sys.status
        [(3, k.sys.status.getLsbD 7), (7, true), (11, false), (12, false)] ∧ tm.firing = k.firing ∧ tm.regs = k.regs)

/-! ### Loads, stores and CSRs -/

/-- R242, R135, R136: a load writes the bytes that its context sees at the address, sign-extended or zero-extended, and enters the
line into the read set; that memory always gives its newest committed version is the model's choice (log 109). Host pages are
`LoadsThatWait`. -/
def Obligations.LoadsReadTheBytesTheContextSees : Prop :=
  ∀ (s : State) (rd rs : Reg) (i : BitVec 12), Unordered s →
    let va := s.x rs + i.signExtend 64
    LoadsX s (.lb rd rs i) 1 va rd (fun n => (BitVec.ofNat 8 n).signExtend 64) ∧
    LoadsX s (.lh rd rs i) 2 va rd (fun n => (BitVec.ofNat 16 n).signExtend 64) ∧
    LoadsX s (.lw rd rs i) 4 va rd (fun n => (BitVec.ofNat 32 n).signExtend 64) ∧
    LoadsX s (.ld rd rs i) 8 va rd (fun n => BitVec.ofNat 64 n) ∧
    LoadsX s (.lbu rd rs i) 1 va rd (fun n => (BitVec.ofNat 8 n).zeroExtend 64) ∧
    LoadsX s (.lhu rd rs i) 2 va rd (fun n => (BitVec.ofNat 16 n).zeroExtend 64) ∧
    LoadsX s (.lwu rd rs i) 4 va rd (fun n => (BitVec.ofNat 32 n).zeroExtend 64)

/-- R404, R405: a load of a host page takes its tokens from its slot and returns the host's bytes; without them it waits. A slot that has
no earlier request waiting and no debt in the way gives one token and owes one more for the data that come back: that a request costs one
token for each 64 bytes, and its answer as many of debt, is the model's reading (log 13). R134, R141, R93, R412: a load or store that would
overfill its chunk ends the chunk before it and issues again; a load of a line that is pending, one from another sorus that takes no
traffic, and an access of a bank that sleeps, wait. None of them writes a register or a byte. -/
def Obligations.LoadsThatWait : Prop :=
  (∀ (s : State) (rd rs : Reg) (i : BitVec 12) (p : Place), Unordered s →
    let va := s.x rs + i.signExtend 64
    s.resolve s.cur .load va = .ok p → va.toNat % 8 = 0 → isHost p.key = true → s.hart.young.rset.length ≤ 512 →
    p.shared = false →
    (∀ u, s.charge s.mySlot 1 (.loadDataReturn s.cur) = some u → ∃ t, exec (.ld rd rs i) s = .next t ∧ t.slots = u.slots ∧ t.fabric = u.fabric ∧
      WroteX s t rd (BitVec.ofNat 64 (s.seenNat s.hart p.key 8)) ∧ t.hart.pc = s.hart.pc + 4 ∧ ∀ a, t.byte a = s.byte a) ∧
    (s.charge s.mySlot 1 (.loadDataReturn s.cur) = none → ∃ t, exec (.ld rd rs i) s = .next t ∧ t.hart = s.hart ∧ (t.slot s.mySlot).stall = true ∧
      ∀ a, t.byte a = s.byte a)) ∧
  (∀ (s : State) (n : Nat) (who : Event), (s.slot n).queue = [] → (s.slot n).granted = [] →
    (s.slot n).bdebt ≤ bits (s.slot n).tbkt 23 4 → 1 ≤ (s.slot n).tokens →
    ∃ u, s.charge n 1 who = some u ∧ (u.slot n).tokens = (s.slot n).tokens - 1 ∧
      (u.slot n).bdebt = min (2 ^ 24 - 1) ((s.slot n).bdebt + 1) ∧ u.fabric = s.fabric ∧ ∀ m, m ≠ n → u.slot m = s.slot m) ∧
  (∀ (s : State) (r rs : Reg) (i : BitVec 12) (p : Place),
    let va := s.x rs + i.signExtend 64
    va.toNat % 8 = 0 →
    (s.resolve s.cur .load va = .ok p → s.asleep [p] = [] → s.lineBusy s.hart p.key 8 = false →
      s.keyStill (s.cur / 64) p.key = false → 512 < (addLines s.hart.young.rset [p]).length → exec (.ld r rs i) s = .next s.boundBefore) ∧
    (s.resolve s.cur .store va = .ok p → s.asleep [p] = [] →
      128 < (insertNew s.hart.young.lines (p.key / 64)).length → exec (.sd r rs i) s = .next s.boundBefore) ∧
    (s.resolve s.cur .load va = .ok p → s.asleep [p] = [] →
      s.lineBusy s.hart p.key 8 = true ∨ s.keyStill (s.cur / 64) p.key = true → exec (.ld r rs i) s = .next s.giveUp) ∧
    (s.resolve s.cur .load va = .ok p → s.asleep [p] ≠ [] → ∃ t, exec (.ld r rs i) s = .next t ∧ t.hart = s.hart ∧
      (∀ a, t.byte a = s.byte a) ∧ ∀ q ∈ s.asleep [p], (t.bank q.1 q.2).waking = true))

/-- R242, R135: a store puts its bytes into the write buffer of its chunk. Before the commit memory keeps every byte; the
context itself sees the stored bytes, and sees every other byte as before. -/
def Obligations.StoresGoToTheWriteBuffer : Prop :=
  ∀ (s : State) (rt rs : Reg) (i : BitVec 12), Unordered s →
    let va := s.x rs + i.signExtend 64
    let v := (s.x rt).toNat
    StoresTo s (.sb rt rs i) 1 va v ∧ StoresTo s (.sh rt rs i) 2 va v ∧ StoresTo s (.sw rt rs i) 4 va v ∧
    StoresTo s (.sd rt rs i) 8 va v

/-- R242, R423, R424: an access that is not naturally aligned raises the misaligned exception of its kind, whatever else it
meets; an aligned one that resolves to no place raises the fault that its address meets. Both carry the address. -/
def Obligations.FaultingAccessesTrap : Prop :=
  ∀ (s : State) (r rs : Reg) (i : BitVec 12),
    let va := s.x rs + i.signExtend 64
    (va.toNat % 2 ≠ 0 → exec (.lh r rs i) s = .next (s.raise 4 va) ∧ exec (.lhu r rs i) s = .next (s.raise 4 va) ∧
      exec (.sh r rs i) s = .next (s.raise 6 va)) ∧
    (va.toNat % 4 ≠ 0 → exec (.lw r rs i) s = .next (s.raise 4 va) ∧ exec (.lwu r rs i) s = .next (s.raise 4 va) ∧
      exec (.sw r rs i) s = .next (s.raise 6 va)) ∧
    (va.toNat % 8 ≠ 0 → exec (.ld r rs i) s = .next (s.raise 4 va) ∧ exec (.sd r rs i) s = .next (s.raise 6 va)) ∧
    (∀ c, c = 5 ∨ c = 13 → va.toNat % 8 = 0 → s.resolve s.cur .load va = .error c →
      exec (.lb r rs i) s = .next (s.raise c va) ∧ exec (.ld r rs i) s = .next (s.raise c va)) ∧
    (∀ c, c = 7 ∨ c = 15 → va.toNat % 8 = 0 → s.resolve s.cur .store va = .error c →
      exec (.sb r rs i) s = .next (s.raise c va) ∧ exec (.sd r rs i) s = .next (s.raise c va))

/-- R232, R247, R248: a Zicsr instruction that only reads, at a level that may read the CSR, writes what the CSR reads to
xreg(rd); where the read clears a field, the chunk holds the clearing. R232, R247: a write of a CSR that is no chunk bound takes
effect at once in the context's checkpointed registers, and xreg(rd) receives the old value. R134, R248: a write of a CSR
with side effects is held for the commit of its chunk, which it ends; that nothing issues before that commit is the model's reading of R251
(log 14), and that xreg(rd) receives the old value and the CSR the new one there, in one step, its reading of R247 (log 24): mepc shows it.
R238, R383: of mcycle and minstret xreg(rd) receives the count at the cycle in which the instruction issues, and the value that is
written is computed from it. -/
def Obligations.CsrInstructions : Prop :=
  (∀ (s : State) (rd : Reg) (c : BitVec 12) (row : CsrRow), Goes s → csrRow c.toNat = some row → s.atLeast row.read = true →
    s.csrSpecial c.toNat false = true →
    let is : List Held := if s.csrReadClears c.toNat then [.clear (s.csrTarget c.toNat)] else []
    let P (i : Instr) : Prop := ∃ t, exec i s = .next t ∧ Retired s t (s.hart.pc + 4) ∧ Holds s t is ∧
      t.hart.shadow = s.hart.shadow ∧ WroteX s t rd (s.csrGet s.cur c.toNat)
    P (.csrrs rd c 0) ∧ P (.csrrc rd c 0) ∧ P (.csrrsi rd c 0) ∧ P (.csrrci rd c 0)) ∧
  (∀ (s : State) (rd rs : Reg) (u : BitVec 5) (c : BitVec 12) (p : Priv), Goes s →
    csrRow c.toNat = some { read := p, write := some p, bound := false } → s.atLeast p = true →
    let old := s.csrGet s.cur c.toNat
    let a := s.x rs
    let k : Word := u.zeroExtend 64
    let P (i : Instr) (v : Word) : Prop := ∃ t, exec i s = .next t ∧ Retired s t (s.hart.pc + 4) ∧ Holds s t [] ∧
      t.hart.shadow = s.hart.shadow.put c.toNat v ∧ WroteX s t rd old
    P (.csrrw rd c rs) a ∧ P (.csrrwi rd c u) k ∧
    (rs ≠ 0 → P (.csrrs rd c rs) (old ||| a) ∧ P (.csrrc rd c rs) (old &&& ~~~a)) ∧
    (u ≠ 0 → P (.csrrsi rd c u) (old ||| k) ∧ P (.csrrci rd c u) (old &&& ~~~k))) ∧
  (∀ (s : State) (rd rs : Reg) (u : BitVec 5) (c : BitVec 12) (row : CsrRow) (w : Priv), Unordered s →
    c.toNat = 0xB00 ∨ c.toNat = 0xB02 → csrRow c.toNat = some row → row.write = some w → s.atLeast row.read = true →
    s.atLeast w = true → s.csrSpecial c.toNat true = true →
    let old := s.csrGet s.cur c.toNat
    let k : Word := u.zeroExtend 64
    let P (i : Instr) (v : Word) : Prop := ∃ t, exec i s = .next t ∧ Retired s t (s.hart.pc + 4) ∧
      Holds s t [.csr c.toNat 0 v s.hart.priv 0] ∧ t.hart.shadow = s.hart.shadow ∧ WroteX s t rd old ∧ Bounded s t ∧ t.hart.sync = true
    P (.csrrw rd c rs) (s.x rs) ∧ P (.csrrwi rd c u) k ∧
    (rs ≠ 0 → P (.csrrs rd c rs) (old ||| s.x rs) ∧ P (.csrrc rd c rs) (old &&& ~~~(s.x rs))) ∧
    (u ≠ 0 → P (.csrrsi rd c u) (old ||| k) ∧ P (.csrrci rd c u) (old &&& ~~~k))) ∧
  (∀ (s : State) (rd rs : Reg) (u : BitVec 5) (c : BitVec 12) (row : CsrRow) (w : Priv), Unordered s →
    c.toNat ≠ 0xB00 → c.toNat ≠ 0xB02 → csrRow c.toNat = some row → row.bound = true → row.write = some w → s.atLeast row.read = true → s.atLeast w = true →
    s.csrSpecial c.toNat true = true →
    let is (reads : Bool) : List Held := if reads && s.csrReadClears c.toNat then [.clear (s.csrTarget c.toNat)] else []
    let P (i : Instr) (reads : Bool) (op : Nat) (v : Word) : Prop :=
      DefersSync s i (.csr (s.csrTarget c.toNat) op v s.hart.priv rd.toNat :: is reads)
    P (.csrrw rd c rs) (rd != 0) 0 (s.x rs) ∧ P (.csrrwi rd c u) (rd != 0) 0 (u.zeroExtend 64) ∧
    (rs ≠ 0 → P (.csrrs rd c rs) true 1 (s.x rs) ∧ P (.csrrc rd c rs) true 2 (s.x rs)) ∧
    (u ≠ 0 → P (.csrrsi rd c u) true 1 (u.zeroExtend 64) ∧ P (.csrrci rd c u) true 2 (u.zeroExtend 64))) ∧
  (∀ (s : State) (h op rd : Nat) (v : Word) (p : Priv), rd < 32 →
    let old := (s.ctx h).sys.mepc
    let t := s.heldDo h 0 (.csr 0x341 op v p rd)
    (t.ctx h).sys.mepc = (if op = 0 then v else if op = 1 then old ||| v else old &&& ~~~v) &&& ~~~3 ∧
    (∀ r, (t.ctx h).regs.getX r = if r = rd ∧ r ≠ 0 then old else (s.ctx h).regs.getX r) ∧
    (∀ g, g ≠ h → t.ctx g = s.ctx g) ∧ ∀ a, t.byte a = s.byte a)

/-- R232, R442: an access to an address that is no CSR is an illegal instruction; a read or a write below the level that the map
gives raises PRIV with the instruction word. R250, R442: below its level a privileged instruction raises PRIV with its word. -/
def Obligations.AccessesBelowTheirLevelTrap : Prop :=
  (∀ (s : State) (rd rs : Reg) (u : BitVec 5) (c : BitVec 12),
    let P (n : Nat) (i : Instr) : Prop := exec i s = .next (s.raise n (BitVec.ofNat 64 (wordOf i).toNat))
    (csrRow c.toNat = none → P 2 (.csrrw rd c rs) ∧ P 2 (.csrrs rd c rs) ∧ P 2 (.csrrc rd c rs) ∧ P 2 (.csrrwi rd c u) ∧
      P 2 (.csrrsi rd c u) ∧ P 2 (.csrrci rd c u)) ∧
    (∀ row, csrRow c.toNat = some row → s.atLeast row.read = false →
      P 24 (.csrrs rd c rs) ∧ P 24 (.csrrc rd c rs) ∧ P 24 (.csrrsi rd c u) ∧ P 24 (.csrrci rd c u) ∧
      (rd ≠ 0 → P 24 (.csrrw rd c rs) ∧ P 24 (.csrrwi rd c u))) ∧
    (∀ row p, csrRow c.toNat = some row → row.write = some p → s.atLeast p = false →
      P 24 (.csrrw rd c rs) ∧ P 24 (.csrrwi rd c u) ∧ (rs ≠ 0 → P 24 (.csrrs rd c rs) ∧ P 24 (.csrrc rd c rs)) ∧
      (u ≠ 0 → P 24 (.csrrsi rd c u) ∧ P 24 (.csrrci rd c u)))) ∧
  (∀ (s : State) (xd xs : Reg),
    let P (i : Instr) : Prop := exec i s = .next (s.raise 24 (BitVec.ofNat 64 (wordOf i).toNat))
    (s.hart.priv = .u → P .eretS ∧ P (.scanrun xd xs) ∧ P (.scanstat xd) ∧ P .scanabort ∧ P (.maprd xd xs) ∧ P (.maprm xs) ∧
      P (.preq xd xs)) ∧
    (s.hart.priv ≠ .m → P .eretM ∧ P (.mapadd xs)))

/-- R232, R249, R426: what some CSRs read, and what a committed write of the trap registers stores. -/
def Obligations.CsrValues : Prop :=
  ∀ (s : State) (h : Nat) (v : Word) (p : Priv),
    s.csrGet h 0xF14 = BitVec.ofNat 64 h ∧
    s.csrGet h 0x300 = (s.ctx h).sys.status ∧ s.csrGet h 0x341 = (s.ctx h).sys.mepc ∧
    s.csrGet h 0x342 = (s.ctx h).sys.mcause ∧ s.csrGet h 0x343 = (s.ctx h).sys.mtval ∧
    s.csrGet h 0xC00 = s.csrGet h 0xB00 ∧ s.csrGet h 0xC02 = s.csrGet h 0xB02 ∧
    (s.csrPut h 0xB02 v p).csrGet h 0xB02 = v + s.instretOf h - (s.aux h).instret ∧
    ((s.csrPut h 0x341 v p).ctx h).sys.mepc = v &&& ~~~3 ∧ ((s.csrPut h 0x141 v p).ctx h).sys.sepc = v &&& ~~~3 ∧
    ((s.csrPut h 0x342 v p).ctx h).sys.mcause = v ∧ ((s.csrPut h 0x343 v p).ctx h).sys.mtval = v ∧
    ((s.csrPut h 0x305 v p).core (h / 4)).mtvec = (if v.getLsbD 1 then v &&& ~~~3 else v) ∧
    ((s.csrPut h 0x105 v p).core (h / 4)).stvec = (if v.getLsbD 1 then v &&& ~~~3 else v)

/-! ### Vectors -/

/-- R270, R274, R275: each lane whose guard bit is 1 receives the result of its two source lanes, every other lane keeps its
value; VSEL instead selects by the guard bit. -/
def Obligations.VectorIntegerLanes : Prop :=
  ∀ (s : State) (g : Reg3) (ty : ITy) (vd va vb : Reg), Goes s →
    let w := ITyWidth ty
    let a := elem (s.v va) w
    let b := elem (s.v vb) w
    let sg := toSigned w
    let L (i : Instr) (f : Nat → Nat → Nat) : Prop :=
      LanesV s i vd w (fun k => if (s.p g).getLsbD k then f (a k) (b k) else elem (s.v vd) w k)
    L (.vadd g ty vd va vb) (fun p q => p + q) ∧
    L (.vsub g ty vd va vb) (fun p q => p + (2 ^ w - q)) ∧
    L (.vmul g ty vd va vb) (fun p q => p * q) ∧
    L (.vsadd g ty vd va vb) (fun p q => fromInt w (max (-2 ^ (w - 1)) (min (2 ^ (w - 1) - 1) (sg p + sg q)))) ∧
    L (.vssub g ty vd va vb) (fun p q => fromInt w (max (-2 ^ (w - 1)) (min (2 ^ (w - 1) - 1) (sg p - sg q)))) ∧
    L (.vmin g ty vd va vb) (fun p q => if sg p ≤ sg q then p else q) ∧
    L (.vmax g ty vd va vb) (fun p q => if sg p ≤ sg q then q else p) ∧
    L (.vminu g ty vd va vb) (fun p q => min p q) ∧
    L (.vmaxu g ty vd va vb) (fun p q => max p q) ∧
    L (.vand g ty vd va vb) (fun p q => p &&& q) ∧
    L (.vor g ty vd va vb) (fun p q => p ||| q) ∧
    L (.vxor g ty vd va vb) (fun p q => p ^^^ q) ∧
    L (.vsll g ty vd va vb) (fun p q => p * 2 ^ (q % w)) ∧
    L (.vsrl g ty vd va vb) (fun p q => p / 2 ^ (q % w)) ∧
    L (.vsra g ty vd va vb) (fun p q => fromInt w ((sg p).fdiv (2 ^ (q % w)))) ∧
    LanesV s (.vsel g ty vd va vb) vd w (fun k => if (s.p g).getLsbD k then a k else b k)

/-- R180, R166, R277, R278: each lane whose guard bit is 1 receives the correctly rounded result of its sources, a NaN result being
the first NaN among the sources in their order; every other lane keeps its value. Of the eight special functions it states the special
values of R278, and the rounding: the two square roots are rounded once from the integer root and its remainder; of the others, enclosed
between two bounds, the code is the one to which both bounds round. Where they round to two codes the result is a free value (log 10). -/
def Obligations.VectorFloatLanes : Prop :=
  (∀ (f : Fmt) (fn c m n : Nat) (neg : Bool) (e : Int), f.round .rne false (.fin neg m e) = f.round .rne false (.fin neg n e) →
    f.between fn c neg m n e = f.round .rne false (.fin neg m e)) ∧
  (∀ (f : Fmt) (m r : Nat) (e : Int), e % 2 = 0 →
    (r * r ≤ m * 2 ^ 128 → m * 2 ^ 128 < (r + 1) * (r + 1) →
      f.sqrt m e = f.roundMag .rne false false r (e / 2 - 64) (r * r != m * 2 ^ 128)) ∧
    (r * r * m ≤ 2 ^ 256 → 2 ^ 256 < (r + 1) * (r + 1) * m →
      f.rsqrt m e = f.roundMag .rne false false r (-(e / 2) - 128) (r * r * m != 2 ^ 256))) ∧
  (∀ (f : Fmt) (m : Nat) (e : Int), e % 2 ≠ 0 → f.sqrt m e = f.sqrt (2 * m) (e - 1) ∧ f.rsqrt m e = f.rsqrt (2 * m) (e - 1)) ∧
  (∀ (f : Fmt) (c : Nat) (n : Bool),
    let code (v : Val) : Nat := f.round .rne false v
    let one (n : Bool) : Nat := code (.fin n 1 0)
    (∀ fn p, f.decode c = .nan n p → f.special fn c = code (.nan n p)) ∧
    (f.decode c = .inf n → f.special 0 c = (if n then 0 else f.infCode) ∧ f.special 1 c = (if n then code .canon else f.infCode) ∧
      f.special 2 c = f.signed n 0 ∧ f.special 3 c = (if n then code .canon else 0) ∧
      f.special 4 c = (if n then code .canon else f.infCode) ∧ f.special 5 c = one n ∧ f.special 6 c = (if n then 0 else one false) ∧
      f.special 7 c = one n) ∧
    (∀ e, f.decode c = .fin n 0 e → f.special 0 c = one false ∧ f.special 1 c = code (.inf true) ∧ f.special 2 c = code (.inf n) ∧
      f.special 3 c = code (.inf n) ∧ f.special 4 c = f.signed n 0 ∧ f.special 5 c = f.signed n 0 ∧
      f.special 6 c = code (.fin false 1 (-1)) ∧ f.special 7 c = f.signed n 0) ∧
    (∀ m e, m ≠ 0 → f.decode c = .fin n m e → f.special 2 c = f.quotient n 1 m (-e) ∧
      (n = true → f.special 1 c = code .canon ∧ f.special 3 c = code .canon ∧ f.special 4 c = code .canon) ∧
      (n = false → f.special 3 c = f.rsqrt m e ∧ f.special 4 c = f.sqrt m e))) ∧
  ∀ (s : State) (g : Reg3) (ty : FTy) (vd va vb : Reg), Goes s →
    let f := FTyFmt ty
    let w := f.width
    let a := elem (s.v va) w
    let b := elem (s.v vb) w
    let z := elem (s.v vd) w
    let val := f.decode
    let rnd (src : List Val) (v : Val) : Nat := f.round .rne false ((src.find? Val.isNan).getD v)
    let L (i : Instr) (r : Nat → Nat) : Prop := LanesV s i vd w (fun k => if (s.p g).getLsbD k then r k else z k)
    L (.vfadd g ty vd va vb) (fun k => rnd [val (a k), val (b k)] (sumVals [val (a k), val (b k)])) ∧
    L (.vfsub g ty vd va vb) (fun k => rnd [val (a k), val (b k)] (sumVals [val (a k), (val (b k)).negate])) ∧
    L (.vfmul g ty vd va vb) (fun k => rnd [val (a k), val (b k)] ((val (a k)).mul (val (b k)))) ∧
    L (.vfma g ty vd va vb) (fun k =>
      rnd [val (a k), val (b k), val (z k)] (sumVals [(val (a k)).mul (val (b k)), val (z k)])) ∧
    L (.vfmin g ty vd va vb) (fun k => f.minmax false (a k) (b k)) ∧
    L (.vfmax g ty vd va vb) (fun k => f.minmax true (a k) (b k)) ∧
    L (.vfdiv g ty vd va vb) (fun k => f.div (val (a k)) (val (b k))) ∧
    L (.vfexp2 g ty vd va) (fun k => f.special 0 (a k)) ∧
    L (.vflog2 g ty vd va) (fun k => f.special 1 (a k)) ∧
    L (.vfrcp g ty vd va) (fun k => f.special 2 (a k)) ∧
    L (.vfrsqrt g ty vd va) (fun k => f.special 3 (a k)) ∧
    L (.vfsqrt g ty vd va) (fun k => f.special 4 (a k)) ∧
    L (.vftanh g ty vd va) (fun k => f.special 5 (a k)) ∧
    L (.vfsig g ty vd va) (fun k => f.special 6 (a k)) ∧
    L (.vferf g ty vd va) (fun k => f.special 7 (a k))

/-- R279, R280: bit k of the predicate is the comparison of the lanes k where the guard bit is 1; it is 0 where the guard bit is 0
and above the lanes. A comparison with a NaN is false, but VFCMPUN's, and the two zeros are equal. -/
def Obligations.VectorCompares : Prop :=
  ∀ (s : State) (g : Reg3) (ty : ITy) (fy : FTy) (pd : Reg3) (va vb : Reg), Goes s →
    let C (i : Instr) (w : Nat) (c : Nat → Nat → Bool) : Prop :=
      BitsP s i pd (fun k => decide (k < 2048 / w) && (s.p g).getLsbD k && c (elem (s.v va) w k) (elem (s.v vb) w k))
    let w := ITyWidth ty
    let sg := toSigned w
    let f := FTyFmt fy
    let num (p q : Nat) : Bool := !(f.decode p).isNan && !(f.decode q).isNan
    C (.vcmpeq g ty pd va vb) w (fun p q => decide (p = q)) ∧
    C (.vcmplt g ty pd va vb) w (fun p q => decide (sg p < sg q)) ∧
    C (.vcmple g ty pd va vb) w (fun p q => decide (sg p ≤ sg q)) ∧
    C (.vcmpltu g ty pd va vb) w (fun p q => decide (p < q)) ∧
    C (.vfcmpeq g fy pd va vb) f.width (fun p q => num p q && decide (f.order p = f.order q)) ∧
    C (.vfcmplt g fy pd va vb) f.width (fun p q => num p q && decide (f.order p < f.order q)) ∧
    C (.vfcmple g fy pd va vb) f.width (fun p q => num p q && decide (f.order p ≤ f.order q)) ∧
    C (.vfcmpun g fy pd va vb) f.width (fun p q => !num p q)

/-- R271, R281, R282, R294: VCVT converts the elements of the source group into those of the destination group, VNARROW the 128
accumulator lanes into a register or two, the elements above them 0; both take OVERLAP where their groups are not legal. -/
def Obligations.ConversionsWriteTheirGroups : Prop :=
  ∀ (s : State) (td ts : Ty3) (mode : RMode) (sat : Bool) (vd vs : Reg) (aa : Reg3), Goes s →
    let wd := Ty3Width td
    let ws := Ty3Width ts
    let dn := wd / min wd ws
    let sn := ws / min wd ws
    let legal : Prop := vd.toNat + dn ≤ 32 ∧ vs.toNat + sn ≤ 32 ∧
      ((vd = vs ∧ dn = sn) ∨ vd.toNat + dn ≤ vs.toNat ∨ vs.toNat + sn ≤ vd.toNat)
    let i := Instr.vcvt td mode ts sat vd vs
    let j := Instr.vnarrow td sat vd aa
    let n := if wd = 32 then 2 else 1
    (legal → LanesGroup s i vd dn wd (fun k => convert td ts mode sat (groupElem s vs ws k))) ∧
    (¬ legal → exec i s = .next (s.raise 26 (word (wordOf i).toNat))) ∧
    (vd.toNat + n ≤ 32 →
      LanesGroup s j vd n wd (fun k => if k < 128 then narrowLane td .rne sat (elem (s.acc aa) 32 k) else 0)) ∧
    (32 < vd.toNat + n → exec j s = .next (s.raise 26 (word (wordOf j).toNat)))

/-- R287: the predicate instructions. R288 to R290: the sum, the largest and the smallest of the signed lanes, extended to 64
bits; and the float reductions, which combine the lanes as FP32 values pairwise, level by level, also where R290's sentence on NaN results
would name another NaN than its tree (log 108). -/
def Obligations.PredicatesAndReductions : Prop :=
  (∀ (s : State) (pd pa pb : Reg3) (xd xs : Reg), Goes s →
    let a := s.p pa
    let b := s.p pb
    ComputesP s (.pand pd pa pb) pd (a &&& b) ∧ ComputesP s (.por pd pa pb) pd (a ||| b) ∧
    ComputesP s (.pxor pd pa pb) pd (a ^^^ b) ∧ ComputesP s (.pandn pd pa pb) pd (a &&& ~~~b) ∧
    ComputesP s (.pnot pd pa) pd (~~~a) ∧
    ComputesX s (.pcnt xd pa) xd (word ((List.range 512).filter (fun i => a.getLsbD i)).length) ∧
    (∀ n, n < 512 → a.getLsbD n = true → (∀ m, m < n → a.getLsbD m = false) → ComputesX s (.pfirst xd pa) xd (word n)) ∧
    (a = 0 → ComputesX s (.pfirst xd pa) xd (-1)) ∧
    BitsP s (.plt pd xs) pd (fun i => decide (i < (s.x xs).toNat))) ∧
  (∀ (s : State) (ty : ITy) (fy : FTy) (xd va : Reg), Goes s →
    let w := ITyWidth ty
    let lane (k : Nat) : Int := toSigned w (elem (s.v va) w k)
    let f := FTyFmt fy
    let fl : List Nat := (List.range (2048 / f.width)).map (fun k =>
      let c := elem (s.v va) f.width k
      if f = .f32 then c else Fmt.round .f32 .rne false (f.decode c))
    ComputesX s (.vredsum ty xd va) xd (BitVec.ofInt 64 (((List.range (2048 / w)).map lane).foldl (· + ·) 0)) ∧
    (∀ m, m < 2048 / w → (∀ k, k < 2048 / w → lane k ≤ lane m) → ComputesX s (.vredmax ty xd va) xd (BitVec.ofInt 64 (lane m))) ∧
    (∀ m, m < 2048 / w → (∀ k, k < 2048 / w → lane m ≤ lane k) → ComputesX s (.vredmin ty xd va) xd (BitVec.ofInt 64 (lane m))) ∧
    ComputesX s (.vfredsum fy xd va) xd (word (treeUp (Fmt.add .f32) 7 fl)) ∧
    ComputesX s (.vfredmax fy xd va) xd (word (treeUp (Fmt.minmax .f32 true) 7 fl)) ∧
    ComputesX s (.vfredmin fy xd va) xd (word (treeUp (Fmt.minmax .f32 false) 7 fl)))

/-- R291: the permutes. -/
def Obligations.VectorPermutes : Prop :=
  ∀ (s : State) (vd va vi xr xi xd : Reg) (k : BcastW), Goes s →
    let b (i : Nat) : Nat := elem (s.v va) 8 i
    let n := (s.x xr).toNat
    let at5 := (s.x xi).toNat % 32
    LanesV s (.vslideup vd va xr) vd 8 (fun i => if n ≤ i then b (i - n) else 0) ∧
    LanesV s (.vslidedn vd va xr) vd 8 (fun i => if i + n < 256 then b (i + n) else 0) ∧
    LanesV s (.vperm vd va vi) vd 8 (fun i => b (elem (s.v vi) 8 i)) ∧
    LanesV s (.vbcast k vd xr) vd (match k with | .w8 => 8 | .w16 => 16 | .w32 => 32 | .w64 => 64) (fun _ => n) ∧
    ComputesX s (.vget xd va xi) xd (word (elem (s.v va) 64 at5)) ∧
    LanesV s (.vset vd xr xi) vd 64 (fun i => if i = at5 then n else elem (s.v vd) 64 i)

/-- R284 to R286, R295: vector loads, VLDF and ACCLD. -/
def Obligations.VectorLoads : Prop :=
  ∀ (s : State) (g : Reg3) (ty : FTy) (vd xb xs vi : Reg) (ad : Reg3), Unordered s →
    let b := s.x xb
    LoadsLanes s (.vld g vd xb) g vd (fun k => b + word (4 * k)) ∧
    LoadsLanes s (.vlds g vd xb xs) g vd (fun k => b + word k * s.x xs) ∧
    LoadsLanes s (.vldx g vd xb vi) g vd (fun k => b + word (elem (s.v vi) 32 k)) ∧
    (b.toNat % 64 = 0 → ∀ ps, CanLoad s 4 ((List.range 128).map (fun k => b + word (4 * k))) ps →
      ∃ t, exec (.accld ad xb) s = .next t ∧ Loaded s t ps ∧ t.hart.shadow = s.hart.shadow ∧ ∃ v, WroteA s t ad v ∧
        ∀ k p, k < 128 → s.resolve s.cur .load (b + word (4 * k)) = .ok p → elem v 32 k = s.seenNat s.hart p.key 4) ∧
    (b.toNat % 64 ≠ 0 → exec (.accld ad xb) s = .next (s.raise 4 b)) ∧
    (let f := FTyFmt ty
     let off := b.toNat % 2 ^ 32
     let k := off / 0x8000
     let o := off % 0x8000
     let r := tget 0 (s.core s.lcore).fmt k
     let mf := fmtFmt r
     let sb := fmtSbase r
     let bs := (((List.range (2048 / f.width)).filter (fun i => (s.p g).getLsbD i)).flatMap
       (vldfBytes mf f.width sb o)).foldl insertNew []
     let rd (n : Nat) : Nat := (s.seen s.hart (spadKey s.lcore (k * 0x8000 + n))).toNat
     b.toNat / 2 ^ 32 = 0xFF00 → off < 0x50000 → o % vldfAlign mf f.width = 0 → s.bankOk s.cur k = true →
     (∀ n ∈ bs, n < 0x8000) → ∀ ps, CanLoad s 1 (bs.map (fun n => b - word o + word n)) ps →
       ∃ t, exec (.vldf g ty vd xb) s = .next t ∧ Loaded s t ps ∧ t.hart.shadow = s.hart.shadow ∧ ∃ v, WroteV s t vd v ∧
         ∀ i, i < 2048 / f.width → elem v f.width i =
           (if (s.p g).getLsbD i then vldfElem rd f mf sb o i else elem (s.v vd) f.width i) % 2 ^ f.width)

/-- R284, R285, R295: vector stores and ACCST. -/
def Obligations.VectorStores : Prop :=
  ∀ (s : State) (g : Reg3) (vd xb xs vi : Reg) (sa : Reg3), Unordered s →
    let b := s.x xb
    StoresLanes s (.vst g vd xb) g vd (fun k => b + word (4 * k)) ∧
    StoresLanes s (.vsts g vd xb xs) g vd (fun k => b + word k * s.x xs) ∧
    StoresLanes s (.vstx g vd xb vi) g vd (fun k => b + word (elem (s.v vi) 32 k)) ∧
    (b.toNat % 64 = 0 → StoresAll s (.accst sa xb) 4 ((List.range 128).map (fun k => b + word (4 * k)))
      ((List.range 128).map (elem (s.acc sa) 32))) ∧
    (b.toNat % 64 ≠ 0 → exec (.accst sa xb) s = .next (s.raise 6 b))

/-- R292, R293, R295: VMACC, VDOT2 and VDOT4 add one, two or four products to each lane of the accumulator, float lanes with one
rounding, integer lanes wrapping; the last two take OVERLAP where a group leaves the register file; ACCZ clears the accumulator. -/
def Obligations.AccumulatorsMultiplyAndAdd : Prop :=
  ∀ (s : State) (m : MacTy) (t2 : Dot2Ty) (t4 : Dot4Ty) (ad : Reg3) (va vb : Reg), Goes s →
    let c (k : Nat) : Nat := elem (s.acc ad) 32 k
    let prods (w n k : Nat) : List (Nat × Nat) := (List.range n).map (fun j => (groupElem s va w (n * k + j), groupElem s vb w (n * k + j)))
    let fl (f : Fmt) (n k : Nat) : Nat :=
      let vs := (prods f.width n k).map (fun p => (f.decode p.1, f.decode p.2))
      let old := Fmt.decode .f32 (c k)
      Fmt.round .f32 .rne false (((vs.flatMap (fun p => [p.1, p.2]) ++ [old]).find? Val.isNan).getD
        (sumVals (vs.map (fun p => p.1.mul p.2) ++ [old])))
    let it (w n k : Nat) : Nat :=
      fromInt 32 (((prods w n k).map (fun p => toSigned w p.1 * toSigned w p.2)).foldl (· + ·) (toSigned 32 (c k)))
    let i2 := Instr.vdot2 t2 ad va vb
    let i4 := Instr.vdot4 t4 ad va vb
    let fits : Prop := va.toNat + 2 ≤ 32 ∧ vb.toNat + 2 ≤ 32
    LanesA s (.vmacc m ad va vb) ad (fl (match m with | .bf16 => .bf16 | .f16 => .f16) 1) ∧
    (fits → LanesA s i2 ad (match t2 with | .bf16 => fl .bf16 2 | .f16 => fl .f16 2 | .i16 => it 16 2)) ∧
    (¬ fits → exec i2 s = .next (s.raise 26 (word (wordOf i2).toNat))) ∧
    (fits → LanesA s i4 ad (match t4 with | .e4m3 => fl .e4m3 4 | .e5m2 => fl .e5m2 4 | .i8 => it 8 4)) ∧
    (¬ fits → exec i4 s = .next (s.raise 26 (word (wordOf i4).toNat))) ∧
    ComputesA s (.accz ad) ad 0

/-! ### Tile operations, streams, copies -/

/-- R301, R305, R310, R315: a matrix product whose operands pass the checks of its issue joins its chunk as a tile operation
with its command and descriptors, MMAV with the configuration issued last; a product that fails a check traps with what the
check names. R309, R310: some of what a matrix product must meet: a tile inside the store, reserved fields of 0, row groups that
its firing holds. Each failure is ILLISSUE with its reason; that reason 2 goes before reason 3 where both apply is the model's reading
(log 36). -/
def Obligations.MatrixProducts : Prop :=
  (∀ (s : State) (pair : Pair) (xc xa xb : Reg), Goes s → (s.aux s.cur).tiles.length < 16 →
    let c := s.x xc
    let a := s.x xa
    let b := s.x xb
    let last : Unf := (((s.aux s.cur).unfIssued.getLast?).map (·.2)).getD []
    let P (i : Instr) (form : Nat) (k : TileKind) : Prop :=
      (s.checkProduct i form pair c a b = .ok () → IssuesTile s i k) ∧
      (∀ n v, s.checkProduct i form pair c a b = .error (.trap n v) → exec i s = .next (s.raise n v))
    P (.mma pair xc xa xb) 0 (.product 0 pair c a b []) ∧ P (.mmav pair xc xa xb) 1 (.product 1 pair c a b last) ∧
    P (.mmat pair xc xa xb) 2 (.product 2 pair c a b [])) ∧
  (∀ (s : State) (pair : Pair) (xc xa xb : Reg),
    let i := Instr.mma pair xc xa xb
    let c := s.x xc
    let ill (n : Nat) : Prop := exec i s = .next (s.raise 25 (illVal n (wordOf i)))
    (bits c 22 0 ≠ 0 ∨ descOk (s.x xa) = false ∨ descOk (s.x xb) = false → ill 2) ∧
    (128 < 8 * bits c 39 36 + 8 * (bits c 31 28 + 1) ∨ 128 < 8 * bits c 35 32 + 8 * (bits c 27 24 + 1) → ill 2) ∧
    (bits c 22 0 = 0 → descOk (s.x xa) = true → descOk (s.x xb) = true →
      cmdRow c + cmdM c ≤ 128 → cmdCol c + cmdN c ≤ 128 → descOff (s.x xa) % opAlign (pairA pair) = 0 →
      descLd (s.x xa) % opAlign (pairA pair) = 0 → descOff (s.x xb) % opAlign (pairB pair) = 0 →
      descLd (s.x xb) % opAlign (pairB pair) = 0 → s.holdsRows (cmdRow c) (cmdM c) = false → ill 3))

/-- R305: ACLR holds its tile operation; a claim takes the row groups that no firing holds for the issuing one, and is ILLISSUE
where another firing holds one of them. R314: UNFCFG reads its descriptor and holds it as the configuration of the products that
the firing issues after it. -/
def Obligations.RowGroupsAndUnfolding : Prop :=
  (∀ (s : State) (xs : Reg), Goes s → (s.aux s.cur).tiles.length < 16 →
    let w := s.x xs
    let g0 := bits w 7 4
    let ng := bits w 3 0
    let own (u : State) (g : Nat) : Option Nat := tget? (u.core s.lcore).rowOwn g
    let fresh := ((List.range (ng + 1)).map (fun j => g0 + j)).filter (fun g => (own s g).isNone)
    bits w 63 9 = 0 → g0 + ng ≤ 15 →
    (bit w 8 = true → IssuesTile s (.aclr xs) (.aclr g0 ng true [])) ∧
    (bit w 8 = false → (∀ j, j ≤ ng → own s (g0 + j) = none ∨ own s (g0 + j) = some s.myFid) →
      ∃ t, exec (.aclr xs) s = .next t ∧ t.hart.pc = s.hart.pc + 4 ∧ t.hart.sys = s.hart.sys ∧ t.hart.priv = s.hart.priv ∧
        RegsKept s t ∧ (∀ a, t.byte a = s.byte a) ∧ Holds s t [.tile (nextTile s (.aclr g0 ng false fresh))] ∧
        ∀ g, own t g = if g ∈ fresh then some s.myFid else own s g) ∧
    (bit w 8 = false → (∃ j f, j ≤ ng ∧ own s (g0 + j) = some f ∧ f ≠ s.myFid) →
      exec (.aclr xs) s = .next (s.raise 25 (illVal 6 (wordOf (.aclr xs)))))) ∧
  (∀ (s : State) (xs : Reg) (d : List Word), Unordered s → (s.aux s.cur).tiles.length < 16 →
    Reads s 64 8 (s.x xs) d → Unf.ok d = true →
    ∃ t, exec (.unfcfg xs) s = .next t ∧ Retired s t (s.hart.pc + 4) ∧ Holds s t [.tile (nextTile s (.unfcfg d))] ∧
      t.hart.shadow = s.hart.shadow ∧ RegsKept s t ∧ ((t.aux s.cur).unfIssued.getLast?).map (·.2) = some d)

/-- R306, R316 to R320: the tile operations on a region that the firing holds, and AMOVV, which reads the store as it stands. A word
that is no region is ILLISSUE 2, a region of rows not held ILLISSUE 3. -/
def Obligations.RegionOperations : Prop :=
  ∀ (s : State) (ty : Ty3) (m : RMode) (sat : Bool) (xm xg xs vd vb : Reg), Goes s → (s.aux s.cur).tiles.length < 16 →
    let g := s.x xg
    let an := Instr.anarrow ty m sat xm xg
    (∀ r, regionOf g = some r → s.holdsRows r.row (r.nr + 1) = true →
      (s.checkRegionMem an (s.x xm) r (Ty3Width ty / 8) [0, ty3Mf ty] = .ok () →
        IssuesTile s an (.anarrow ty m sat (s.x xm) r)) ∧
      (s.checkRegionMem (.ald xg xm) (s.x xm) r 4 [0, 3, 5] = .ok () → IssuesTile s (.ald xg xm) (.ald r (s.x xm))) ∧
      (s.checkRegionMem (.ast xg xm) (s.x xm) r 4 [0, 3, 5] = .ok () → IssuesTile s (.ast xg xm) (.ast r (s.x xm))) ∧
      IssuesTile s (.ascale xg xs) (.ascale r ((s.x xs).setWidth 32)) ∧
      (r.nr = 0 → r.nc = 0 → r.col ≤ 64 → IssuesTile s (.amova xg vb) (.amova r (s.v vb)) ∧
        LanesV s (.amovv vd xg) vd 32 (fun k => s.readNat (accKey s.lcore (512 * r.row + 4 * (r.col + k))) 4))) ∧
    (regionOf g = none → exec (.ascale xg xs) s = .next (s.raise 25 (illVal 2 (wordOf (.ascale xg xs)))) ∧
      exec (.amovv vd xg) s = .next (s.raise 25 (illVal 2 (wordOf (.amovv vd xg))))) ∧
    (∀ r, regionOf g = some r → s.holdsRows r.row (r.nr + 1) = false →
      exec (.ascale xg xs) s = .next (s.raise 25 (illVal 3 (wordOf (.ascale xg xs)))))

/-- R321, R322, R326: QBIND binds the port that its descriptor describes at position 0, QUNBIND unbinds it, QPOS reads the position
(0 where unbound), QFLUSH drops what a read port holds. No other port is touched. -/
def Obligations.StreamPortsAreBound : Prop :=
  ∀ (s : State) (q : Reg3) (xs xd : Reg), Unordered s →
    let Q (i : Instr) (p : Option Port) : Prop := ∃ t, exec i s = .next t ∧ Retired s t (s.hart.pc + 4) ∧ Holds s t [] ∧
      RegsKept s t ∧ ∀ r, t.hart.port r = if r = q.toNat then p else s.hart.port r
    (∀ d, Reads s 64 8 (s.x xs) d → bits (d.getD 1 0) 63 12 = 0 → d.getD 7 0 = 0 → s.streamBase (d.getD 0 0) = true →
      let p := s.streamOf s.flight.ids d
      streamFmt p.mfmt = true → p.aligned = true →
      p.pos = 0 ∧ p.base = d.getD 0 0 ∧ p.dir = bit (d.getD 1 0) 7 ∧ p.wrap = bit (d.getD 1 0) 11 ∧ Q (.qbind q xs) (some p)) ∧
    Q (.qunbind q) none ∧
    ComputesX s (.qpos xd q) xd (match s.hart.port q.toNat with | some p => word p.pos | none => 0) ∧
    (∀ p, s.hart.port q.toNat = some p → Q (.qflush q) (some p) ∧
      (p.dir = false → ∃ t f, exec (.qflush q) s = .next t ∧ tget? (t.aux s.cur).fetch q.toNat = some f ∧ f.els = [])) ∧
    (s.hart.port q.toNat = none → Q (.qflush q) none)

/-- R323, R324, R327: QLD and QLDX take the next elements of a read port, converted to its element type, once the port holds them;
QST and QSTX hold the next elements of a write port with their addresses; the position advances. R325, R342: a load form whose elements
the port does not hold stalls, and so does a store form that would take the port past 16 transfers; where its own chunk holds some of
them, that chunk ends before it, which is the model's choice (log 88). A port unbound, of the other direction or at its end is
ILLISSUE 6. -/
def Obligations.StreamAccesses : Prop :=
  ∀ (s : State) (q : Reg3) (r : Reg), Unordered s →
    let rd (p : Port) : Prop := s.hart.port q.toNat = some p ∧ p.dir = false ∧ (p.wrap = true ∨ p.pos < p.total)
    let wr (p : Port) : Prop := s.hart.port q.toNat = some p ∧ p.dir = true ∧ (p.wrap = true ∨ p.pos < p.total)
    let f (p : Port) : Fetch := (s.aux s.cur).fetchOf q.toNat p.bind
    let has (p : Port) (n : Nat) : Prop := ∀ k ∈ p.ahead n, (f p).ended k = true ∨ thas (f p).els k = true
    let val (p : Port) (i : Nat) : Nat := match p.at i with
      | some k => if (f p).ended k then 0 else convert p.pty (mfTy3 p.mfmt) p.mode p.satf (tget 0 (f p).els k)
      | none => 0
    let mine := s.hart.young.transfers q.toNat
    let others := (match s.hart.older with | some o => o.transfers q.toNat | none => 0) +
      (match tget? (s.aux s.cur).drain q.toNat with | some d => d.queue.length | none => 0)
    let moved (t : State) (p : Port) (n : Nat) : Prop :=
      ∀ j, t.hart.port j = if j = q.toNat then some (p.advance n) else s.hart.port j
    let els (p : Port) (n : Nat) (f : Nat → Nat) : List StreamEl := (List.range n).filterMap (fun i =>
      (p.at i).map (fun k =>
        { bind := p.bind, va := p.addr k, size := p.size, bits := convert (mfTy3 p.mfmt) p.pty p.mode p.satf (f i) }))
    let S (i : Instr) (p : Port) (n : Nat) (f : Nat → Nat) : Prop :=
      (transferCount (els p n f) + mine + others ≤ 16 → ∃ t, exec i s = .next t ∧ Retired s t (s.hart.pc + 4) ∧
        Holds s t [.stream q.toNat (els p n f)] ∧ RegsKept s t ∧ moved t p n) ∧
      (16 < transferCount (els p n f) + mine + others →
        exec i s = .next (if mine = 0 then s.giveUp else s.boundBefore))
    (∀ p, rd p → has p (2048 / Ty3Width p.pty) → ∃ t v, exec (.qld r q) s = .next t ∧ Retired s t (s.hart.pc + 4) ∧
      Holds s t [] ∧ WroteV s t r v ∧ moved t p (2048 / Ty3Width p.pty) ∧
      ∀ i, i < 2048 / Ty3Width p.pty → elem v (Ty3Width p.pty) i = val p i % 2 ^ Ty3Width p.pty) ∧
    (∀ p, rd p → has p 1 → ∃ t, exec (.qldx r q) s = .next t ∧ Retired s t (s.hart.pc + 4) ∧ Holds s t [] ∧
      moved t p 1 ∧ WroteX s t r (if (Ty3Fmt p.pty).isNone then sextNat (Ty3Width p.pty) (val p 0) else word (val p 0))) ∧
    (∀ p, rd p → ¬ has p (2048 / Ty3Width p.pty) → exec (.qld r q) s = .next (s.fetchGo s.cur q.toNat).giveUp) ∧
    (∀ p, rd p → ¬ has p 1 → exec (.qldx r q) s = .next (s.fetchGo s.cur q.toNat).giveUp) ∧
    (∀ p, wr p → S (.qst q r) p (2048 / Ty3Width p.pty) (fun i => elem (s.v r) (Ty3Width p.pty) i)) ∧
    (∀ p, wr p → S (.qstx q r) p 1 (fun _ => (s.x r).toNat % 2 ^ Ty3Width p.pty)) ∧
    ((∀ p, s.hart.port q.toNat = some p → p.dir = true ∨ (p.wrap = false ∧ p.total ≤ p.pos)) →
      exec (.qld r q) s = .next (s.raise 25 (illVal 6 (wordOf (.qld r q)))) ∧
      exec (.qldx r q) s = .next (s.raise 25 (illVal 6 (wordOf (.qldx r q))))) ∧
    ((∀ p, s.hart.port q.toNat = some p → p.dir = false ∨ (p.wrap = false ∧ p.total ≤ p.pos)) →
      exec (.qst q r) s = .next (s.raise 25 (illVal 6 (wordOf (.qst q r)))) ∧
      exec (.qstx q r) s = .next (s.raise 25 (illVal 6 (wordOf (.qstx q r)))))

/-- R333, R336 to R338: CPY.GO holds a copy with the context's copy CSRs and ends its chunk; the register of the status and that of
the promise wait for their answers. At the commit the copy joins its core's queue with its promise. CPY.GO.M adds the product of its
descriptor as the copy's follow-on. CPY.CANCEL is held; that nothing issues until its commit is the model's reading (log 14). CPY.PROG
reads the progress of the firing's latest copy of a register, and 0 for register number 0, the model's reading (log 111). -/
def Obligations.CopiesAreHeld : Prop :=
  (∀ (s : State) (h ver pid xp : Nat) (c : Copy), c.follow = none → c.empty = false →
    let t := s.heldDo h ver (.copy c pid xp)
    (t.core (c.h / 4)).copyq = (s.core (c.h / 4)).copyq ++ [c.id] ∧
    tget? t.flight.copies c.id = some { c with promise := s.promiseOf c } ∧ ∀ a, t.byte a = s.byte a) ∧
  ∀ (s : State) (xd xp xr xn : Reg), Unordered s →
    let waits (t : State) (r id : Nat) : Prop := ∃ p ∈ t.hart.pend, p.reg = r ∧ p.id = id
    let G (i : Instr) (follow : Option Tile) (n : Nat) : Prop := ∃ t, exec i s = .next t ∧ Retired s t (s.hart.pc + 4) ∧
      Holds s t [.copy (s.newCopy n xd.toNat follow) (n + 1) (if xp = xd then 0 else xp.toNat)] ∧ RegsKept s t ∧
      t.hart.shadow = s.hart.shadow ∧ Bounded s t ∧ (xd ≠ 0 → waits t xd.toNat n) ∧
      (xp ≠ xd → xp ≠ 0 → waits t xp.toNat (n + 1))
    (s.copiesOf s.cur < 16 → G (.cpyGo xd xp) none s.flight.ids) ∧
    (16 ≤ s.copiesOf s.cur → exec (.cpyGo xd xp) s = .next s.giveUp) ∧
    (∀ d pair, Reads s 32 4 (s.x xr) d → s.copiesOf s.cur < 16 → (s.aux s.cur).tiles.length < 16 →
      let form := bits (d.getD 0 0) 1 0
      bits (d.getD 0 0) 63 6 = 0 → form ≠ 3 → pairOfNat (bits (d.getD 0 0) 5 2) = some pair →
      s.checkProduct (.cpyGoM xd xp xr) form pair (d.getD 1 0) (d.getD 2 0) (d.getD 3 0) = .ok () →
      G (.cpyGoM xd xp xr) (some (nextTile s (s.productKind form pair (d.getD 1 0) (d.getD 2 0) (d.getD 3 0))))
        (s.flight.ids + 1)) ∧
    DefersSync s (.cpyCancel xn) [.cancel (s.x xn).toNat] ∧
    (let n := (s.x xn).toNat % 32
     let mine := s.flight.copies.filter (fun p => p.2.fid = s.myFid && p.2.xd = n && !p.2.discard)
     ComputesX s (.cpyProg xd xn) xd (if n = 0 then 0 else match mine.getLast? with | some p => p.2.progress | none => 0))

/-! ### Messages, synchronisation, waits, system instructions -/

/-- R346, R348, R351 to R354: a legal SEND or SENDV holds its message, and ends its chunk in a pre-emptible firing; REPLY answers the
triggering message, where that asks for a reply on a channel from 2 on; MSGRD reads the message buffer word by word, MSGSRC the source word;
CHON and CHOFF are held, and that nothing issues until their commit is the model's reading (log 14). A target or channel that is not legal
is ILLISSUE 2. R348, R350, R478: at the commit a message to a present core of the sending partition enters the network with its words and
its source word; one to another core of the module is dropped. R82, R354: at its commit CHON clears the mask of its channel and CHOFF sets
it, but for channels 0 and 1 from U. That RCH of a source word without a reply channel is 0 is the model's reading (log 113). -/
def Obligations.MessagesAreHeld : Prop :=
  (∀ (s : State) (h ver n : Nat) (f : Firing) (g : Word) (ws : List Word) (w : Word), (s.ctx h).firing = some f → bit g 47 = false →
    let L := bits g 11 0
    let u := s.heldDo h ver (.message g n ws w false)
    (∀ a, u.byte a = s.byte a) ∧
    (s.present L = true → s.partOf L = some f.part → ∃ m : Msg, u.flight.msgs = tput s.flight.msgs s.flight.ids m ∧ m.sender = h ∧
      m.core = L ∧ m.ch = n ∧ m.words = ws ∧ m.srcw = w ∧ m.left = false ∧
      u.agenda = s.agenda ++ [.messageSendRelease s.flight.ids]) ∧
    (s.present L = false ∨ s.partOf L ≠ some f.part → u.flight = s.flight)) ∧
  (∀ (s : State) (h ver n m : Nat) (on : Bool) (p : Priv),
    let u := s.heldDo h ver (.chmask n on p)
    bit ((u.core (h / 4)).entry m) 61 =
      if m = n ∧ ¬ (n < 2 ∧ p = .u) then !on else bit ((s.core (h / 4)).entry m) 61) ∧
  ∀ (s : State) (c : Bool) (ch : BitVec 4) (xt xn xw0 xw1 vb xd : Reg), Unordered s →
    let t := s.x xt
    let legal : Prop := bits t 46 20 = 0 ∧ bits t 15 12 = 0 ∧ bits t 11 0 ≤ 2559 ∧ 2 ≤ ch.toNat
    let msg (ws : List Word) : List Held := [.message t ch.toNat ws (s.sourceWord c (bits t 19 16) ch.toNat) false]
    let S (i : Instr) (ws : List Word) : Prop :=
      (s.isRtc = true → Defers s i (msg ws)) ∧ (s.isRtc = false → DefersEnd s i (msg ws))
    let n := (s.x xn).toNat
    let src := (s.hart.firing.map (·.src)).getD 0
    let trig := ((s.hart.firing.map (·.trigger)).getD []).map (·.1)
    (legal → S (.send c ch xt xw0 xw1) [s.x xw0, s.x xw1]) ∧
    (¬ legal → exec (.send c ch xt xw0 xw1) s = .next (s.raise 25 (illVal 2 (wordOf (.send c ch xt xw0 xw1))))) ∧
    (legal → 1 ≤ n → n ≤ 32 → S (.sendv c ch xt xn vb) ((List.range n).map (fun i => word (elem (s.v vb) 64 i)))) ∧
    (¬ legal ∨ n = 0 ∨ 32 < n →
      exec (.sendv c ch xt xn vb) s = .next (s.raise 25 (illVal 2 (wordOf (.sendv c ch xt xn vb))))) ∧
    (∀ f, s.hart.firing = some f → f.chan ≠ 0 → bit f.src 39 = true → 2 ≤ bits f.src 43 40 →
      Defers s (.reply xw0 xw1) [.message (word (bits f.src 63 47 * 2 ^ 47 + bits f.src 11 0)) (bits f.src 43 40)
        [s.x xw0, s.x xw1] (s.sourceWord false 0 (bits f.src 43 40)) true]) ∧
    (∀ f, s.hart.firing = some f → f.chan = 0 ∨ bit f.src 39 = false ∨ bits f.src 43 40 < 2 →
      exec (.reply xw0 xw1) s = .next (s.raise 25 (illVal 6 (wordOf (.reply xw0 xw1))))) ∧
    (∀ w, trig[2 + s.hart.shadow.msgPos]? = some w → ∃ u, exec (.msgrd xd) s = .next u ∧ Retired s u (s.hart.pc + 4) ∧
      Holds s u [] ∧ WroteX s u xd w ∧ u.hart.shadow = { s.hart.shadow with msgPos := s.hart.shadow.msgPos + 1 }) ∧
    (trig[2 + s.hart.shadow.msgPos]? = none → ComputesX s (.msgrd xd) xd 0) ∧
    ComputesX s (.msgsrc xd) xd src ∧
    DefersSync s (.chon ch) [.chmask ch.toNat true s.hart.priv] ∧ DefersSync s (.choff ch) [.chmask ch.toNat false s.hart.priv]

/-- R355 to R361: a remote atomic reads its operands and is held for the commit; the return form's register waits for the reply,
and each request that is not idempotent counts in its chunk. R355, R361, R89: the return form in a run-to-completion firing is
ILLISSUE 1, the 33rd request of a chunk that is not idempotent ILLISSUE 5, a misaligned datum the misaligned exception of
stores; a datum in no legal place faults; a request that would be the 33rd outstanding, those that the firing's uncommitted chunks hold
counted, waits. RMADD shows it. -/
def Obligations.RemoteAtomics : Prop :=
  (∀ (s : State) (nr : Bool) (xd xv xa : Reg), Unordered s → (s.isRtc = true → nr = true) →
    let va := s.x xa
    let R (i : Instr) (narrow : Bool) (op : Nat) : Prop := ∀ pl, s.atomicPlace va = .ok pl →
      va.toNat % (if narrow then 4 else 8) = 0 →
      let idem : Bool := nr && [1, 2, 4, 5, 6, 7, 11, 12].contains op
      (idem = false → s.outstanding + s.hart.heldNonIdem + s.hart.ownNonIdem < 32) →
      let a : AtomicOp := { op := op, narrow := narrow, nr := nr, v := s.x xv, e := s.x xd }
      ∃ t, exec i s = .next t ∧ Retired s t (s.hart.pc + 4) ∧
        Holds s t [.atomic s.flight.ids (if nr then 0 else xd.toNat) a pl.key pl.slot va] ∧ t.hart.shadow = s.hart.shadow ∧
        RegsKept s t ∧ (nr = false → Asked s t xd) ∧ (nr = true → t.hart.pend = s.hart.pend) ∧
        ChunkOf s t (fun k => k.nonIdem = s.hart.young.nonIdem + (if idem then 0 else 1))
    R (.rmadd nr xd xv xa) false 0 ∧ R (.rmand nr xd xv xa) false 1 ∧ R (.rmor nr xd xv xa) false 2 ∧
    R (.rmxor nr xd xv xa) false 3 ∧ R (.rmmin nr xd xv xa) false 4 ∧ R (.rmmax nr xd xv xa) false 5 ∧
    R (.rmminu nr xd xv xa) false 6 ∧ R (.rmmaxu nr xd xv xa) false 7 ∧ R (.rmswap nr xd xv xa) false 8 ∧
    R (.rmcas nr xd xv xa) false 9 ∧ R (.rmaddI32 nr xd xv xa) true 0 ∧ R (.rmandI32 nr xd xv xa) true 1 ∧
    R (.rmorI32 nr xd xv xa) true 2 ∧ R (.rmxorI32 nr xd xv xa) true 3 ∧ R (.rmminI32 nr xd xv xa) true 4 ∧
    R (.rmmaxI32 nr xd xv xa) true 5 ∧ R (.rmminuI32 nr xd xv xa) true 6 ∧ R (.rmmaxuI32 nr xd xv xa) true 7 ∧
    R (.rmswapI32 nr xd xv xa) true 8 ∧ R (.rmcasI32 nr xd xv xa) true 9 ∧ R (.rmfadd nr xd xv xa) true 10 ∧
    R (.rmfmin nr xd xv xa) true 11 ∧ R (.rmfmax nr xd xv xa) true 12) ∧
  (∀ (s : State) (xd xv xa : Reg),
    let va := s.x xa
    let i := Instr.rmadd false xd xv xa
    (s.isRtc = true → exec i s = .next (s.raise 25 (illVal 1 (wordOf i)))) ∧
    (s.isRtc = false → 32 ≤ s.hart.ownNonIdem → exec i s = .next (s.raise 25 (illVal 5 (wordOf i)))) ∧
    (s.isRtc = false → s.hart.ownNonIdem < 32 → va.toNat % 8 ≠ 0 → exec i s = .next (s.raise 6 va)) ∧
    (s.isRtc = false → s.hart.ownNonIdem < 32 → va.toNat % 8 = 0 →
      (∀ c, s.atomicPlace va = .error c → exec i s = .next (s.raise c va)) ∧
      (∀ pl, s.atomicPlace va = .ok pl → 32 ≤ s.outstanding + s.hart.heldNonIdem + s.hart.ownNonIdem → exec i s = .next s.giveUp)))

/-- R364, R366, R367, R369, R375, R376: an update-log append, a merge, the taking and the advance of a ticket, a barrier update, a
launch and FENCE.X are held for the commit. At the commit TKTGET answers NEXT and counts it up, TKTADV counts SERVING up, the update of a
barrier object sets out for its unit, a launch sends its header to the hub, and an append writes its entry behind those of its slice, or is
counted as dropped where its partition has no log. -/
def Obligations.SynchronisationIsHeld : Prop :=
  (∀ (s : State) (h ver d id : Nat) (f : Firing) (b : BarUpd) (hdr : List Word) (va v : Word), (s.ctx h).firing = some f →
    let n := h / 64
    let q := tget {} (s.sorus n).tickets d
    let got := s.heldDo h ver (.tktget id d)
    let adv := s.heldDo h ver (.tktadv d)
    let bar := s.heldDo h ver (.bar b)
    let app := s.heldDo h ver (.logapp va v)
    let r := s.part f.part
    tget {} (got.sorus n).tickets d = { q with next := (q.next + 1) % 2 ^ 32, takers := q.takers ++ [(q.next, f.fid)] } ∧
    (s.hartOf f.fid = some h → s.paused n = false → got.ctx h = (s.ctx h).answer id (.scal (word q.next)) 0) ∧
    (tget {} (adv.sorus n).tickets d).serving = (q.serving + 1) % 2 ^ 32 ∧ (tget {} (adv.sorus n).tickets d).next = q.next ∧
    (bar.sorus (sorusOfKey b.key)).barq = insertBar { upd := b, core := h / 4, at' := s.gtime } (s.sorus (sorusOfKey b.key)).barq ∧
    bar.timers = s.timers ++ [(s.gtime + 3, .barrierUpdate (sorusOfKey b.key))] ∧
    s.heldDo h ver (.launch id hdr) = s.poke (.launchHeaderArrival f.part hdr (.launch h f.fid id)) ∧
    (r.log = none → (app.part f.part).dropped = r.dropped + 1 ∧ ∀ a, app.byte a = s.byte a) ∧
    (∀ g key u, r.log = some g → s.logPlace f.part va = some key →
      let sl := sliceOf (key / 64)
      let k := (g.ents.filter (fun e => e.slice = sl)).length
      let e : LogEnt := { slice := sl, va := va, int := bit v 32, v := v.truncate 32, core := h / 4, ctx := h % 4, seq := tget 0 g.counts h }
      k < g.segment → e.seq < 2 ^ 18 → s.partWrite f.part (g.base + word (16 * (sl * g.segment + k))) e.words = some u →
      (∀ a, app.byte a = u.byte a) ∧ ∃ g' : Log, (app.part f.part).log = some g' ∧ g'.ents = g.ents ++ [e])) ∧
  (∀ (c : Ctx) (r id : Nat) (v : Word) (ver : Nat), c.pend = [{ reg := r, id := id }] → r ≠ 0 → r < 32 →
    (c.answer id (.scal v) ver).regs.getX r = v ∧ (c.answer id (.scal v) ver).pend = []) ∧
  ∀ (s : State) (xd xa xv : Reg) (a b : BitVec 5), Unordered s →
    let va := s.x xa
    let v := s.x xv
    let p := (s.hart.firing.map (·.part)).getD 0
    (bits v 63 33 = 0 → va.toNat % 4 = 0 → (∃ k, s.logTarget (s.cur / 64) p va = .ok k) →
      Defers s (.logapp xa xv) [.logapp va v]) ∧
    (∀ d, Reads s 32 4 va d → logDescOk d = true → Requests s (.logmrg xd xa) xd [.logmrg s.flight.ids d]) ∧
    (va.toNat ≤ 15 → Requests s (.tktget xd xa) xd [.tktget s.flight.ids va.toNat] ∧
      Defers s (.tktadv xa) [.tktadv va.toNat]) ∧
    (15 < va.toNat → exec (.tktget xd xa) s = .next (s.raise 25 (illVal 2 (wordOf (.tktget xd xa)))) ∧
      exec (.tktadv xa) s = .next (s.raise 25 (illVal 2 (wordOf (.tktadv xa))))) ∧
    (∀ k, bits va 3 0 = 0 → s.barPlace va = some k → bits v 62 32 = 0 →
      Defers s (.bararr xa xv)
        [.bar { key := k, kind := if bit v 63 then .deliver (bits v 31 0) else .arrive (bits v 31 0), id := s.flight.ids }]) ∧
    (∀ d, s.isRtc = false → Reads s 64 8 va d → ∃ t, exec (.launch xd xa) s = .next t ∧ Retired s t (s.hart.pc + 4) ∧
      Holds s t [.launch s.flight.ids d] ∧ t.hart.shadow = s.hart.shadow ∧ RegsKept s t ∧ Asked s t xd ∧ Bounded s t) ∧
    DefersSync s (.fenceX a b) [.fence a.toNat b.toNat]

/-- R380, R90, R91: HALT and HALT.R end the chunk that holds them, in an ordered task too, and nothing issues after them. At its commit HALT
ends the firing: the context is Free, a bank of the firing that HALT.R names stays, marked for its successor, and any other bank of it is
powered down, with every byte zero. R374, R113: OTDECL as the first instruction of a chunk writes 0 and makes the firing the task of its
timestamp and domain; after a failed check it writes 1 and declares nothing; in any other place it is ILLISSUE 6. -/
def Obligations.HaltAndOrderedTasks : Prop :=
  (∀ (s : State) (h ver mask actor : Nat) (f : Firing), NoTrace s → (s.ctx h).firing = some f → f.owner = none →
    let t := s.heldDo h ver (.halt mask actor)
    t.ctx h = { floor := (s.ctx h).floor } ∧
    ∀ b, b < 10 → (s.bank (h / 4) b).own = some f.fid →
      (mask.testBit b = true → t.bank (h / 4) b = { powered := true, retain := some (actor, s.gtime) }) ∧
      (mask.testBit b = false → t.bank (h / 4) b = {} ∧
        ∀ i, i < 0x8000 → t.byte (spadKey (h / 4) (b * 0x8000 + i)) = 0)) ∧
  (∀ (s : State) (xm xn : Reg),
    DefersSync s .halt [.halt 0 0] ∧ DefersSync s (.haltR xm xn) [.halt (bits (s.x xm) 9 0) (bits (s.x xn) 15 0)]) ∧
  (∀ (s : State) (f : Firing) (xd xa xv : Reg), s.hart.firing = some f → f.order = none → (s.x xv).toNat ≤ 255 → NoBound s →
    let i := Instr.otdecl xd xa xv
    (s.hart.young.n = 0 → s.hart.young.otfail = false → ∃ t, exec i s = .next t ∧ UnitsKept s t ∧
      t.hart.pc = s.hart.pc + 4 ∧ t.spent = true ∧ WroteX s t xd 0 ∧
      Holds s t [.otdecl (s.x xa) (s.x xv).toNat xd.toNat] ∧
      t.hart.firing = some { f with order := some ((s.x xa).toNat, (s.x xv).toNat) }) ∧
    (s.hart.young.n = 0 → s.hart.young.otfail = true → ComputesX s i xd 1) ∧
    (s.hart.young.n ≠ 0 → exec i s = .next (s.raise 25 (illVal 6 (wordOf i)))))

/-- R377 to R379, R178: a contribution whose descriptor passes the checks is held with its operation, its descriptor, its offset and the
bank formats of its core as they stand; a collection waits for its status. -/
def Obligations.CrozierContributionsAreHeld : Prop :=
  ∀ (s : State) (xa xo xd : Reg) (d : List Word), Unordered s → Reads s 32 4 (s.x xa) d →
    let c := crzDesc d
    let off := (s.x xo).toNat
    let S (i : Instr) (op : Nat) (suits : Prop) : Prop := suits → s.crzCheck i d = .ok () → s.crzFmt c off = true →
      s.crzRange c off = true → Defers s i [.crzsend op { c with fmt := (s.core s.lcore).fmt } off]
    S (.crzsendAdd xa xo) 0 (c.ty ≤ 1) ∧ S (.crzsendMax xa xo) 1 (c.ty ≤ 1) ∧ S (.crzsendMin xa xo) 2 (c.ty ≤ 1) ∧
    S (.crzsendAnd xa xo) 3 (c.ty = 2) ∧ S (.crzsendOr xa xo) 4 (c.ty = 2) ∧ S (.crzsendXor xa xo) 5 (c.ty = 2) ∧
    S (.crzsendBadd xa xo) 6 (c.ty = 3) ∧
    (s.crzCheck (.crzrecv xd xa) d = .ok () → Requests s (.crzrecv xd xa) xd [.crzrecv s.flight.ids c])

/-- R77, R252, R253, R343, R367, R370 to R372, R297: the waits. In a firing that is not run-to-completion each makes its context
Waiting, with the end it names. R89, R253: a run-to-completion firing may not wait or launch: ILLISSUE 1; that LAUNCH meets it before its
descriptor is read is the model's reading (log 36). -/
def Obligations.WaitInstructions : Prop :=
  (∀ (s : State) (xs xa xd xv vd va : Reg) (nl ns nc nt : BitVec 5), Unordered s → s.isRtc = false →
    let a := s.x xa
    let id := s.flight.ids
    WaitsFor s (.waitC xs) (.cycles (s.cycles s.lcore + (s.x xs).toNat)) [] ∧
    WaitsFor s (.waitT xs) (.time (s.x xs).toNat) [] ∧
    WaitsFor s (.waitTr xs) (.time ((s.localTime s.lcore + (s.x xs).toNat) % 2 ^ 64)) [] ∧
    WaitsFor s (.waitc nl ns nc nt) (.counts nl.toNat ns.toNat nc.toNat nt.toNat) [] ∧
    (a.toNat ≤ 15 → WaitsFor s (.tktwait xa xv) (.ticket a.toNat ((s.x xv).toNat % 2 ^ 32)) []) ∧
    (∀ k, bits a 3 1 = 0 → s.barPlace (a &&& ~~~15) = some k →
      WaitsAsking s (.barwait xd xa) (.bar k (bit a 0) id) xd []) ∧
    WaitsAsking s (.gbar xd) .gbar xd [.gbar id] ∧
    (a.toNat ≤ 3 → WaitsAsking s (.lbar xd xa) (.lbar a.toNat) xd [.lbar id a.toNat]) ∧
    (∃ t, exec (.vxchg vd va) s = .next t ∧ UnitsKept s t ∧ t.hart.pc = s.hart.pc + 4 ∧ t.spent = true ∧
      t.hart.st = .waiting ∧ t.hart.wait = .xchg ∧ t.hart.waitOk = false ∧
      Holds s t [.xchg id vd.toNat (s.v va), .wait] ∧ RegsKept s t ∧ Bounded s t ∧
      ∃ p ∈ t.hart.pend, p.reg = 32 + vd.toNat ∧ p.id = id)) ∧
  (∀ (s : State) (xs xa xd xv vd va : Reg) (nl ns nc nt : BitVec 5), s.isRtc = true →
    let P (i : Instr) : Prop := exec i s = .next (s.raise 25 (illVal 1 (wordOf i)))
    P (.waitC xs) ∧ P (.waitT xs) ∧ P (.waitTr xs) ∧ P (.waitc nl ns nc nt) ∧ P (.tktwait xa xv) ∧ P (.barwait xd xa) ∧
    P (.gbar xd) ∧ P (.lbar xd xa) ∧ P (.vxchg vd va) ∧ P (.launch xd xa))

/-- R254 to R258, R261 to R268: the system instructions, each at a level that may run it: what is held for the commit, and
what the reading ones write. That nothing issues until the commit of those with a bound is the model's reading of R251 (log 14). At its
commit BREQ sets the level and the priority that its context requests, level 3 no level. -/
def Obligations.SystemInstructions : Prop :=
  (∀ (s : State) (h ver : Nat) (prio : BitVec 3) (level : BitVec 2),
    let t := s.heldDo h ver (.boost level.toNat prio.toNat)
    (t.aux h).req = (if level = 3 then (s.aux h).req else level.toNat) ∧ (t.aux h).bpri = prio.toNat) ∧
  ∀ (s : State) (prio : BitVec 3) (level : BitVec 2) (n : BitVec 5) (xd xs : Reg), Unordered s →
    let x := s.x xs
    let id := s.flight.ids
    let p := s.hart.priv
    DefersSync s (.breq prio level) [.boost level.toNat prio.toNat] ∧
    DefersSync s .tron [.traceOn] ∧ DefersSync s .troff [.traceOff] ∧ Defers s (.trmark xs) [.mark x] ∧
    DefersSync s (.capon n) [.cap n.toNat true] ∧ DefersSync s (.capoff n) [.cap n.toNat false] ∧
    ComputesX s (.caprd xd n) xd (tget 0 (s.aux s.cur).caps n.toNat) ∧
    (p ≠ .u → DefersSync s .eretS [.eret false] ∧
      (s.scanAccess x = .ok () → RequestsSync s (.scanrun xd xs) xd [.scanrun id x p]) ∧
      ComputesX s (.scanstat xd) xd
        (match (s.aux s.cur).scan.bind (tget? s.flight.scans) with | some k => k.word | none => 0) ∧
      DefersSync s .scanabort [.scanabort] ∧ ComputesX s (.maprd xd xs) xd (s.lcmap x.toNat) ∧
      DefersSync s (.maprm xs) [.maprm x.toNat p] ∧ RequestsSync s (.preq xd xs) xd [.preq id x p]) ∧
    (p = .m → DefersSync s .eretM [.eret true] ∧ DefersSync s (.mapadd xs) [.mapadd x.toNat])

/-! ### Happenings: reset, supply, links -/

/-- R38, R39, R41, R43 to R45, R479: a reset begins phase 0 with every unit at its reset values, host memory as it was, and the error
log kept by all but the fundamental one; each phase end advances PHASE, the first starting global time, the third fixing the absent
cores; configuration requests are retried until phase 1 has ended; GO takes once; an image that fails its check sets IMGERR. The model's own
in it: that module memory reads 0 after a reset (log 54), the reset values that the spec does not give (log 1), the links as they stand
before phase 4 (log 6), and that a phase 4 with a bad link sets BISTERR (log 63). -/
def Obligations.ResetAndBringUp : Prop :=
  ∀ (s : State) (good : BitVec 32) (failed ports : List Nat) (links : List (Nat × Nat)),
    let fresh (t : State) : Prop := t.hub.phase = 0 ∧ t.hub.ready = false ∧ t.running = false ∧ t.gtime = 0 ∧ t.now = none ∧
      t.agenda = [] ∧ t.timers = [] ∧ t.out = s.out ∧ t.hub.raw = s.hub.raw ∧ (∀ h, t.ctx h = {} ∧ t.aux h = {}) ∧
      (∀ L, t.core L = {}) ∧ (∀ n, t.sorus n = {}) ∧ (∀ n, t.part n = {}) ∧ (∀ n, t.slot n = {}) ∧ t.thallus = {} ∧ t.fabric = {} ∧
      ∀ a, t.byte a = if isHost a then s.byte a else 0
    let E := Event.bringupPhaseEnd good failed ports links
    let phase (n : Nat) (P : State → Prop) : Prop := s.hub.phase = n → Comes s E .bringupPhaseEnd P
    Comes s .fundamentalReset .fundamentalReset (fun t => fresh t ∧ t.hub.elog = []) ∧
    Comes s .pfFunctionLevelReset .pfFunctionLevelReset (fun t => fresh t ∧ t.hub.elog = s.hub.elog) ∧
    Comes s .secondaryBusReset .secondaryBusReset (fun t => fresh t ∧ t.hub.elog = s.hub.elog) ∧
    phase 0 (fun t => t = { s with now := none, hub := { s.hub with phase := 1 } }) ∧
    phase 1 (fun t => t.hub.phase = 2 ∧ t.gtime = 0 ∧ t.running = true ∧ Still s t) ∧
    phase 2 (fun t => t.hub.phase = 3 ∧ t.hub.good = good ∧ t.gtime = s.gtime ∧ Still s t) ∧
    phase 3 (fun t => t.hub.phase = 4 ∧ (∀ L, L ∈ t.hub.absent ↔ L ∈ failed ∧ L < 2560) ∧
      (∀ L, L ∈ t.hub.selffail ↔ L ∈ failed ∧ L < 2560) ∧ Still s t) ∧
    phase 4 (fun t => Still s t ∧
      (s.hub.linkBad = true → Idle s t) ∧
      (s.hub.linkBad = false → (∃ l ∈ links, l.2 < 16) →
        t = { s with now := none, hub := { s.hub with bisterr := true, linkBad := true } }) ∧
      (s.hub.linkBad = false → (∀ l ∈ links, 16 ≤ l.2) → t.hub.phase = 5 ∧ ∀ n, n < 16 → (n ∈ t.fabric.portsUp ↔ 2 ≤ ports.getD n 0))) ∧
    Comes s .configRequest .configRequest (fun t =>
      t = { s with now := none, out := s.out ++ [if s.hub.phase ≤ 1 then .configRetry else .configOk] }) ∧
    Comes s (.mbootGo true) .mbootGo (fun t => Still s t ∧
      (s.hub.ready = true ∨ s.hub.go = true → t = { s with now := none }) ∧
      (s.hub.ready = false → s.hub.go = false → t.hub = { s.hub with go := true } ∧
        (s.hub.phase = 5 → t.agenda = s.agenda ++ [.imageCheck]) ∧ (s.hub.phase ≠ 5 → t.agenda = s.agenda))) ∧
    Comes s .imageCheck .imageCheck (fun t =>
      (s.hub.go = false ∨ s.hub.phase ≠ 5 ∨ s.hub.ready = true → t = { s with now := none }) ∧
      (s.hub.go = true → s.hub.phase = 5 → s.hub.ready = false →
        (s.imageOk = false → t = { s with now := none, hub := { s.hub with imgerr := true, go := false } }) ∧
        (s.imageOk = true → t.hub.ready = true ∧ t.hub.go = false ∧ t.hub.imgerr = false)))

/-- R467 to R471, R47, R55: the raw rail moves, or, at or below 0.44 V or from 0.90 V on, stops the module; each sample compares
it with 0.56 V and 0.86 V; TRATIO reads the cycles of the 640 ns before the largest multiple of 40 that is no later than 40 ns ago,
and whether the clock paused then, 0 before the cores have run that long; a beacon makes a frond that is off by more than 1 ns correct
its copy of the time; a frond without one for 10 µs is lost. The clause of the rail speaks of a module in which no message waits for a
paused clock (R58). -/
def Obligations.SupplyAndTime : Prop :=
  ∀ (s : State) (mv f n L : Nat),
    let d := tget 0 s.fabric.skew f
    let e := (s.gtime - 40) / 40 * 40
    (NoTrace s → (∀ h, (s.aux h).inq = []) → Comes s (.rawRailChange mv) .rawRailChange (fun t => t.hub.raw = mv ∧
      t.gtime = s.gtime ∧ (∀ h, t.ctx h = s.ctx h) ∧ (s.hub.stopped = false → (t.hub.stopped = true ↔ mv ≤ 440 ∨ 900 ≤ mv)) ∧
      (s.hub.stopped = true → t.hub.stopped = true))) ∧
    Comes s .railSample .railSample (fun t => t.hub.under = decide (s.hub.raw < 560) ∧ t.hub.overF = decide (860 < s.hub.raw) ∧
      t.hub.raw = s.hub.raw ∧ Still s t ∧ (s.hub.raw ≤ 440 ∨ 900 ≤ s.hub.raw → t.hub.stopped = true) ∧
      (560 ≤ s.hub.raw → s.hub.raw ≤ 860 → t = { s with now := none, hub := { s.hub with under := false, overF := false } })) ∧
    Comes s .tratioWindowEnd .tratioWindowEnd (Idle s) ∧
    (e < 640 + s.hub.relAt ∨ s.hub.phase < 3 → s.tratio L = 0) ∧
    (640 + s.hub.relAt ≤ e → 3 ≤ s.hub.phase →
      bits (s.tratio L) 11 0 = (s.cyclesAt L e - s.cyclesAt L (e - 640)) % 4096 ∧
      bit (s.tratio L) 12 = pausedIn (s.sx (L / 16)).clk (e - 640) e ∧ bits (s.tratio L) 63 13 = 0) ∧
    Comes s (.regulatorSlewEnd n) .regulatorSlewEnd (fun t => t.gtime = s.gtime ∧ t.hub = s.hub ∧ Still s t) ∧
    Comes s (.timeBeacon f) .timeBeacon (fun t => tget 0 t.fabric.lastBeacon f = s.gtime ∧ t.fabric.skew = s.fabric.skew ∧
      Still s t ∧ (d < -1 ∨ 1 < d → f ∈ t.fabric.slew ∧ t.fabric.lost = s.fabric.lost) ∧
      (-1 ≤ d → d ≤ 1 → t.fabric.slew = s.fabric.slew ∧ f ∉ t.fabric.lost)) ∧
    Comes s (.beaconLoss f) .beaconLoss (fun t => Still s t ∧
      (tget 0 s.fabric.lastBeacon f + 10000 ≤ s.gtime → f ∈ t.fabric.lost) ∧
      (s.gtime < tget 0 s.fabric.lastBeacon f + 10000 → t = { s with now := none }))

/-- R472, R473, R481: lanes of a link or a port fail: it retrains at the widest width that passes, in 20 µs and 200 µs; a link with
fewer than 16 good lanes stops the module, a port below 2 lanes carries nothing, the host link goes on at a lower width. A read of
PSTAT returns the drop counts and clears them. That the new width shows while a port retrains, and that the host link runs at 16, 8 or 4
lanes, are the model's readings (log 67). -/
def Obligations.LinksAndPorts : Prop :=
  ∀ (s : State) (k good : Nat),
    let f := s.fabric
    let w16 := if 16 ≤ good then 16 else if 8 ≤ good then 8 else if 4 ≤ good then 4 else 0
    let w8 := if 8 ≤ good then 8 else if 4 ≤ good then 4 else if 2 ≤ good then 2 else 0
    Comes s (.linkLaneFailure k good) .linkLaneFailure (fun t => Still s t ∧
      (good < 16 → t.hub.stopped = true) ∧
      (16 ≤ good → tget 64 t.fabric.links k = (if 64 ≤ good then 64 else if 32 ≤ good then 32 else 16) ∧
        k ∈ t.fabric.retrain ∧ t.timers = s.timers ++ [(s.gtime + 20000, .linkRetrainEnd k)])) ∧
    Comes s (.linkRetrainEnd k) .linkRetrainEnd (fun t => Still s t ∧ k ∉ t.fabric.retrain ∧ t.fabric.links = f.links) ∧
    Comes s (.portLaneFailure k good) .portLaneFailure (fun t => Still s t ∧
      (k < 16 → k ∈ f.portsUp → tget 8 t.fabric.ports k = w8 ∧ 64 + k ∈ t.fabric.retrain ∧
        t.timers = s.timers ++ [(s.gtime + 200000, .portRetrainEnd k)])) ∧
    (64 + k ∈ f.retrain → Comes s (.portRetrainEnd k) .portRetrainEnd (fun t => 64 + k ∉ t.fabric.retrain ∧
      t.fabric.ports = f.ports ∧ (k ∈ t.fabric.portsUp ↔ k ∈ f.portsUp ∧ tget 0 f.ports k ≠ 0))) ∧
    Comes s (.hostLaneFailure good) .hostLaneFailure (fun t => Still s t ∧ t.fabric = { f with hostLanes := min w16 f.hostLanes }) ∧
    (k < 16 → Comes s (.pstatRead k) .pstatRead (fun t => Still s t ∧ tget 0 t.fabric.keydrop k = 0 ∧ tget 0 t.fabric.otherdrop k = 0 ∧
      t.out = s.out ++ [.data (word (tget 0 f.keydrop k * 2 ^ 32 + tget 0 f.otherdrop k))]))


/-! ### Happenings: commits, dispatch, pre-emption, waits -/

/-- R139 to R143: the grant of the first request that nothing delays takes the next CSN, marks its lines pending and changes no
byte; that a delayed request is passed over is the model's reading (log 41). A broadcast squashes the executing chunk whose signatures it
meets back to its checkpoint, and no other. A chunk that commits writes its buffer into memory, the youngest byte of each address, and
counts its instructions; then each item that it holds has its effect, in order, messages and remote atomics of a run-to-completion firing
only with its HALT (R89): what each kind does stands in the statements of its instruction. It commits no sooner than 3 ns after it ended
(R52) and not while its core's clock is paused (R49): that it is looked at again 3 ns later is the model's own (log 9). A reservation ends
at its time; data returns to a context that can issue. -/
def Obligations.CommitsAndGrants : Prop :=
  ∀ (s : State) (h L n : Nat) (f : Firing) (o : Chunk),
    let held := if f.rtc then (if o.halts then (s.ctx h).carry ++ o.held else o.held.filter (fun i => !i.untilHalt)) else o.held
    let did (u : State) : Prop := (∀ a, u.byte a = match tget? o.wbuf a with | some b => b | none => s.byte a) ∧
      (u.ctx h).firing = some { f with retired := f.retired + o.n } ∧ (u.ctx h).older = none ∧ (u.ctx h).pc = (s.ctx h).pc ∧
      (u.ctx h).regs = (s.ctx h).regs ∧ (u.aux h).instret = (s.aux h).instret + word o.n
    let commits (i : Instr) (e : Event) (csn last ver : Nat) : Prop := NoTrace s → (s.ctx h).firing = some f →
      (s.ctx h).older = some o → s.orderReady h = true → s.otFails h o = false → s.commitWaits h o = false →
      s.drainsBehind h o csn = false → s.hubBehind h o csn = false → (∀ m ∈ (s.core (h / 4)).inbox, last < m) →
      (o.hostCost = 0 ∨ (s.charge f.slot o.hostCost e).isSome = true) →
      Comes s e i (fun t => ∃ u, did u ∧ t = (held.foldl (fun s i => s.heldDo h ver i) u).afterCommit h ∧
        (held = [] → (s.ctx h).young.ended = false → did t))
    (∀ r, s.thallus.requests.find? s.grantable = some r → (s.ctx r.h).older = some o → Comes s .grant .grant (fun t =>
      t.thallus.csn = s.thallus.csn + 1 ∧ (t.ctx r.h).older = some { o with csn := some (s.thallus.csn + 1) } ∧
      (∀ q ∈ t.thallus.requests, q.h ≠ r.h) ∧ (∀ a ∈ o.wset, (a, r.h) ∈ t.thallus.pending) ∧
      OthersStill s t r.h ∧ ∀ a, t.byte a = s.byte a)) ∧
    (s.thallus.requests.find? s.grantable = none → Comes s .grant .grant (Idle s)) ∧
    (∀ b, NoTrace s → s.paused (L / 16) = false → n ∈ (s.core L).inbox → (∀ m ∈ (s.core L).inbox, n ≤ m) →
      s.thallus.bcasts.find? (fun b => b.csn = n) = some b → Comes s (.broadcastArrival L) .broadcastArrival (fun t =>
        n ∉ (t.core L).inbox ∧ (∀ a, t.byte a = s.byte a) ∧
        ∀ c k, c < 4 → s.ctx (4 * L + c) = k → k.firing = some f → f.order = none → k.older = none → 0 < k.young.n →
          b.owner ≠ some (4 * L + c) →
          let meets := sigMeets k.young.rset b.lines || sigMeets k.young.wset b.lines
          (meets = false → t.ctx (4 * L + c) = k) ∧
          (meets = true → (t.ctx (4 * L + c)).pc = k.young.ck.pc ∧ (t.ctx (4 * L + c)).regs = k.young.ck.regs ∧
            (t.ctx (4 * L + c)).young.n = 0 ∧ (t.ctx (4 * L + c)).young.held = [] ∧ (t.ctx (4 * L + c)).young.wbuf = []))) ∧
    (s.paused (L / 16) = true → Comes s (.broadcastArrival L) .broadcastArrival (fun t =>
      Still s t ∧ t.timers = s.timers ++ [(s.gtime + 1, .broadcastArrival L)])) ∧
    (o.csn = some n → commits .drainComplete (.drainComplete h) n (max n o.hor) n) ∧
    (o.wset.any thallusLine = false → commits .localCommit (.localCommit h) (o.hor + 1) o.hor 0) ∧
    ((s.ctx h).older = some o → s.paused (h / 64) = true ∨ s.gtime < o.since + 3 →
      (o.csn = some n → s.orderReady h = true → Comes s (.drainComplete h) .drainComplete (fun t =>
        t = { s with now := none, timers := s.timers ++ [(s.gtime + 3, .drainComplete h)] })) ∧
      Comes s (.localCommit h) .localCommit (fun t =>
        t = { s with now := none, timers := s.timers ++ [(s.gtime + 3, .localCommit h)] })) ∧
    Comes s (.reservationTimeout h n) .reservationTimeout (fun t => Still s t ∧
      ((∃ r ∈ s.thallus.resvs, r.h = h ∧ r.active = true ∧ r.since = n) → ∀ r ∈ t.thallus.resvs, r.h ≠ h)) ∧
    Comes s (.loadDataReturn h) .loadDataReturn (fun t => Still s t ∧
      (s.spent = false ∨ s.idle = true → (s.runnable h = false → Idle s t) ∧
        (s.runnable h = true → (s.core (h / 4)).tried.1 ≠ s.gtime → t.cur = h ∧ t.spent = false ∧ t.idle = false)))

/-- R84 to R93, R95, R99, R105, R106: a core with one candidate starts it: the words leave its FIFO and become the trigger, the
context starts at the entry with the registers of R88; a starting context runs; a bank that wakes or whose retention expires is
zero, the end of a retention after all else that is due at its time (R116) and, with its core's clock paused, once that resumes (R49,
R468); the dispatcher reserves the contexts of its next group; a
header enters the hub queue, from the overflow ring as the ring holds it, and the head header a free resident slot, with status 4
where it is malformed. That the hub reads an overflowed header again from the ring is the model's reading (log 64). -/
def Obligations.FiringsStart : Prop :=
  ∀ (s : State) (L n b h p : Nat),
    let k := s.core L
    let e := k.entry n
    let rate := bits e 57 52
    let q := k.chan n
    let bank (t : State) (a : Nat) : Byte :=
      if spadKey L (b * 0x8000) ≤ a ∧ a < spadKey L (b * 0x8000) + 0x8000 then 0 else t.byte a
    (NoTrace s → s.noSelect L = false → s.present L = true → k.owners = [] → k.resume = [] →
      s.chanCands L false = [(bits e 60 58, 2, .chan n)] → n ≠ 0 → q.restore = [] →
      Comes s (.selection L) .selection (fun t => ∃ g f, g / 4 = L ∧ (s.ctx g).isFree = true ∧ (t.ctx g).firing = some f ∧
        f.chan = n ∧ f.rtc = bit e 62 ∧ f.prio = bits e 60 58 ∧ f.trigger = q.fifo.take rate ∧
        (t.ctx g).st = .starting ∧ (t.ctx g).pc = word (bits e 47 2 * 4) ∧ (t.ctx g).priv = f.level ∧
        f.level = (if bit e 50 then .m else if bit e 51 then .s else .u) ∧
        (∀ r, (t.ctx g).regs.getX r = if r = 2 then 0xFF0200100000
          else if r = 10 then ((q.fifo.take rate)[0]?.map (·.1)).getD 0
          else if r = 11 then ((q.fifo.take rate)[1]?.map (·.1)).getD 0 else 0) ∧
        (t.core L).last = n ∧ ((t.core L).chan n).fifo = q.fifo.drop rate ∧ OthersStill s t g ∧ ∀ a, t.byte a = s.byte a)) ∧
    (s.noSelect L = true → Comes s (.selection L) .selection (Idle s)) ∧
    Comes s (.startingComplete h) .startingComplete (fun t => OthersStill s t h ∧ (∀ a, t.byte a = s.byte a) ∧
      ((s.ctx h).st = .starting → (s.sx (h / 64)).halted = false → s.paused (h / 64) = false → (s.aux h).preqs = [] →
        t.ctx h = { s.ctx h with st := .running }) ∧
      ((s.ctx h).st ≠ .starting → Idle s t)) ∧
    (s.paused (L / 16) = true → Comes s (.bankWakeComplete L b) .bankWakeComplete (fun t =>
      t = { s with now := none, timers := s.timers ++ [(s.gtime + 1, .bankWakeComplete L b)] })) ∧
    (s.paused (L / 16) = false → Comes s (.bankWakeComplete L b) .bankWakeComplete (fun t => (∀ g, t.ctx g = s.ctx g) ∧
      ((s.bank L b).waking = true → (t.bank L b).powered = true ∧ (t.bank L b).waking = false ∧ (t.bank L b).own = (s.bank L b).own ∧
        tget 0 (t.core L).fmt b = 0 ∧ ∀ a, t.byte a = bank s a) ∧
      ((s.bank L b).waking = false → Idle s t))) ∧
    (s.paused (L / 16) = true → Comes s (.retentionExpiry L b n) .retentionExpiry (fun t =>
      t = { s with now := none, timers := s.timers ++ [(s.gtime + 1, .retentionExpiry L b n)] })) ∧
    (s.paused (L / 16) = false → s.otherDue = true → Comes s (.retentionExpiry L b n) .retentionExpiry (fun t =>
      t = { s with now := none, agenda := s.agenda ++ [.retentionExpiry L b n] })) ∧
    (s.paused (L / 16) = false → s.otherDue = false → Comes s (.retentionExpiry L b n) .retentionExpiry (fun t => (∀ g, t.ctx g = s.ctx g) ∧
      ((∃ a, (s.bank L b).retain = some (a, n)) → t.bank L b = {} ∧ ∀ a, t.byte a = bank s a) ∧
      ((∀ a, (s.bank L b).retain ≠ some (a, n)) → Idle s t))) ∧
    Comes s (.groupDispatch p) .groupDispatch (fun t =>
      (s.headLaunch p = none → s.unreturned p = [] → (∀ q ∈ (s.part p).launches, q.2.admitted = false) → Idle s t) ∧
      (∀ slot l m hs, s.headLaunch p = some (slot, l) → l.relief = false → l.keep = [] → s.unreturned p = [] →
        hdrFlag l.hdr.words 2 = false → hdrFlag l.hdr.words 1 = false → s.nextPlaces p slot l l.trial = some [(m, hs)] →
        tget? (s.part p).launches slot = some l →
        (∀ g ∈ hs, (t.ctx g).st = .reserved ∧ ∃ r, (t.ctx g).resv = some r ∧ r.part = p ∧ r.slot = slot ∧
          r.gid = hdrGid l.hdr.words l.next) ∧
        (∀ g, g ∉ hs → t.ctx g = s.ctx g) ∧ (∀ a, t.byte a = s.byte a) ∧
        ((tget? (t.part p).launches slot).map (·.next)) = some (l.next + 1))) ∧
    (∀ t' ws off posted, s.hub.stopped = false → (s.slot t').flr = false → (s.part p).hubq.length < 64 → (s.part p).ov = [] →
      Comes s (.launchHeaderArrival p ws (.window t' off posted)) .launchHeaderArrival (fun t => Still s t ∧ ∃ d : Hdr,
        (t.part p).hubq = (s.part p).hubq ++ [d] ∧ d.words = ws ∧ d.core = none ∧ d.slot = s.slotOf p)) ∧
    Comes s (.hubQueueRefill p) .hubQueueRefill (fun t => Still s t ∧
      ((s.part p).ov = [] ∨ 64 ≤ (s.part p).hubq.length → Idle s t) ∧
      (∀ d ds, (s.part p).ov = d :: ds → (s.part p).hubq.length < 64 →
        let va := (s.part p).area + 0x1000 + word (64 * ((s.part p).ovHead % max 1 (bits (s.part p).lqcfg 15 0)))
        (t.part p).ov = ds ∧ ∃ e : Hdr, (t.part p).hubq = (s.part p).hubq ++ [e] ∧ e.slot = d.slot ∧ e.core = d.core ∧
          ∀ ws, s.partRead p va 8 = some ws → e.words = ws)) ∧
    Comes s (.residentSlotCopy p) .residentSlotCopy (fun t => (∀ g, t.ctx g = s.ctx g) ∧
      ((s.part p).hubq = [] → Idle s t) ∧
      (∀ d ds i u, (s.part p).hubq = d :: ds → (s.part p).freeSlot = some i →
        s.partWrite p ((s.part p).area + word (64 * i)) d.words = some u → (∀ a, t.byte a = u.byte a) ∧ (t.part p).hubq = ds ∧
        ∃ l, tget? (t.part p).launches i = some l ∧ l.hdr = d ∧ l.next = 0 ∧ l.ended = 0 ∧
          l.force = if malformed d.words d.core.isNone then some 4 else none))

/-- R109 to R111, R117, R75, R107: a request makes a firing that may be pre-empted drain, and leaves any other alone, and waits for
a paused clock (R49); at a listed address the context saves, with its engine page faults dropped and its copies parked (R449), but not in
a halt or a pause, nor before an admission that it awaits (R422, R49, R312); the save frees the context and leaves a record; a restored
firing runs, its cycles counted from there; a launch that has ended leaves its slot; an exit group is released; a leaving sorus without
groups passes. That the record stands beside the save block, whose bytes are free, and is what the firing is restored from, is log 21; that
a request leaves a firing of no launch alone is log 31: both are the model's choices. -/
def Obligations.PreemptionAndCompletion : Prop :=
  ∀ (s : State) (h p slot n : Nat) (who : PreqBy) (f : Firing),
    let c := s.ctx h
    (s.paused (h / 64) = true → Comes s (.preemptionRequest h who) .preemptionRequest (fun t =>
      t = { s with now := none, timers := s.timers ++ [(s.gtime + 1, .preemptionRequest h who)] })) ∧
    (c.firing = some f → c.st = .running → s.unpreemptible f = false → s.poolRoom f.part = true → s.paused (h / 64) = false →
      (s.sx (h / 64)).halted = false → (s.aux h).fence = none → s.preqStale who f = false →
      Comes s (.preemptionRequest h who) .preemptionRequest (fun t => t.ctx h = { c with st := .draining } ∧
        (t.aux h).preqs = (s.aux h).preqs ++ [who] ∧ OthersStill s t h ∧ ∀ a, t.byte a = s.byte a)) ∧
    (c.firing = some f → s.unpreemptible f = true → s.paused (h / 64) = false →
      Comes s (.preemptionRequest h .dispatcher) .preemptionRequest (Idle s)) ∧
    (c.firing = some f → (s.aux h).preqs ≠ [] → (s.aux h).fence = none → c.st = .draining → c.priv = f.level → c.clean = true →
      (s.quiet (h / 64) = true ∨ s.awaitsAdm h = true → Comes s (.safePoint h) .safePoint (Idle s)) ∧
      (∀ e, s.safeAt h = some (some e) → s.quiet (h / 64) = false → s.awaitsAdm h = false →
        Comes s (.safePoint h) .safePoint (fun t => t.ctx h = { c with st := .saving } ∧
        OthersStill s t h ∧ (∀ a, t.byte a = s.byte a) ∧ t.agenda.getLast? = some (.saveComplete h) ∧
        (t.aux h).faults = [] ∧ (t.aux h).saveAt = s.gtime ∧
        ∀ i k, tget? s.flight.copies i = some k → k.fid = f.fid → k.discard = false →
          ∃ k', tget? t.flight.copies i = some k' ∧ k'.parked = true ∧ k'.done = k.done)) ∧
      (s.safeAt h = some none → Comes s (.safePoint h) .safePoint (Idle s))) ∧
    (∀ e b, c.firing = some f → c.st = .saving → s.saveWaits h f = false → (s.sx (h / 64)).halted = false →
      s.paused (h / 64) = false → (∀ q ∈ s.parts, ∀ v ∈ q.2.saved, v.firing.fid ≠ f.fid ∧ v.id ≠ s.flight.ids) →
      s.safeAt h = some (some e) → s.poolFree f.part = some b → (∀ l, s.launchOf f = some l → l.relief = false) →
      s.blockFault f.part b (s.savedRecord h s.flight.ids b f e).bytes true = none →
      Comes s (.saveComplete h) .saveComplete (fun t => t.ctx h = { floor := c.floor } ∧ ∃ v ∈ (t.part f.part).saved, v.firing.fid = f.fid ∧
        v.block = b ∧ v.core = h / 4 ∧ v.banks = f.banks &&& e.blive ∧ b ∈ (t.part f.part).blocks)) ∧
    (∀ b, NoTrace s → c.firing = some f → (s.aux h).block = some b → c.st = .restoring → (s.sx (h / 64)).halted = false →
      s.paused (h / 64) = false → c.wait = .none → (s.aux h).capOn = 0 → (s.aux h).preqs = [] →
      s.blockFault f.part b (s.aux h).blockLen false = none →
      Comes s (.restoreComplete h) .restoreComplete (fun t =>
        t.ctx h = { c with st := .running, firing := some { f with startCyc := s.cycles (h / 4) } } ∧ (t.aux h).block = none ∧
        b ∉ (t.part f.part).blocks ∧ OthersStill s t h ∧ ∀ a, t.byte a = s.byte a)) ∧
    (∀ l, tget? (s.part p).launches slot = some l →
      (l.isOver = false → Comes s (.launchCompletion p slot) .launchCompletion (Idle s)) ∧
      (l.isOver = true → Comes s (.launchCompletion p slot) .launchCompletion (fun t =>
        tget? (t.part p).launches slot = none ∧
        (l.keep = [] → hdrCompl l.hdr.words = 0 → hdrSigkind l.hdr.words = 0 → Still s t) ∧
        (hdrSigkind l.hdr.words = 1 → hdrSigvec l.hdr.words < 64 → l.silent = false → l.keep = [] →
          hdrCompl l.hdr.words = 0 → bit ((s.slot l.hdr.slot).msixWord (2 * hdrSigvec l.hdr.words + 1)) 32 = false →
          t.out = s.out ++ [.msix l.hdr.slot (hdrSigvec l.hdr.words)])))) ∧
    (∀ l, tget? (s.part p).launches slot = some l → (∀ m ∈ l.gangOut, m.1 ≠ n) →
      Comes s (.exitGroupRelease p slot n true) .exitGroupRelease (Idle s)) ∧
    (∀ l fid id w g, tget? (s.part p).launches slot = some l → l.lbOut = [(n, fid, id, w)] → s.hartOf fid = some g →
      Waits s g (.lbar 0) → (s.ctx g).pend = [] → (s.sx (g / 64)).halted = false →
      Comes s (.exitGroupRelease p slot n false) .exitGroupRelease (fun t => Woken s t g)) ∧
    (let x := s.sorus n
     (x.leaving = true → (x.pvalid && s.sorusHolds n) = false → Comes s (.sorusPass n) .sorusPass (fun t => Still s t ∧
       (t.sorus n).pvalid = x.nvalid ∧ (t.sorus n).part = x.next ∧ (t.sorus n).leaving = false ∧ (t.sorus n).nvalid = false)) ∧
     (x.leaving = false → Comes s (.sorusPass n) .sorusPass (Idle s)))

/-- R56, R253, R297, R366, R369 to R372, R379: a wait ends once its time, its cycles or its members have come and not before; an
arrival counts at its barrier object, 3 ns after it left (R52), and the last one flips the phase and wakes the waiters, whom a halt of
their sorus holds back (R412); a merge without entries answers and opens the next log. R378, R379: a crozier reads the next contribution
and combines it with the result so far, or finds MISMATCH; once the contributions are read, and 3 ns have passed (R52; log 9), the result
of a combine of one member comes to its RES, with code 0; with nothing to read it does nothing. -/
def Obligations.WaitsEnd : Prop :=
  ∀ (s : State) (h n p slot gid : Nat),
    let key (u : BarReq) (t : State) (i : Nat) : Word := word (t.readNat (u.upd.key + 8 * i) 8)
    (∀ m, Waits s h (.cycles m) → Comes s (.waitCExpiry h) .waitCExpiry (fun t =>
      (m ≤ s.cycles (h / 4) → Woken s t h) ∧ (s.cycles (h / 4) < m → Idle s t))) ∧
    (∀ m, Waits s h (.time m) → s.paused (h / 64) = false → Comes s (.waitTExpiry h) .waitTExpiry (fun t =>
      (m ≤ s.localTime (h / 4) → Woken s t h) ∧ (s.localTime (h / 4) < m → Idle s t))) ∧
    ((s.sorus n).barq = [] → Comes s (.barrierUpdate n) .barrierUpdate (Idle s)) ∧
    (∀ u us, (s.sorus n).barq = u :: us → s.still n = false → s.gtime < u.at' + 3 → Comes s (.barrierUpdate n) .barrierUpdate (fun t =>
      t = { s with now := none, timers := s.timers ++ [(s.gtime + (u.at' + 3 - s.gtime), .barrierUpdate n)] })) ∧
    (∀ u us by', (s.sorus n).barq = u :: us → s.still n = false → u.at' + 3 ≤ s.gtime → u.upd.kind = .arrive by' →
      bits (key u s 0) 63 48 ≠ 0 →
      bit (key u s 1) 1 = false →
      let pend := min (2 ^ 32 - 1) (bits (key u s 0) 31 0 + by')
      Comes s (.barrierUpdate n) .barrierUpdate (fun t => (t.sorus n).barq = us ∧
        (∀ a, a < u.upd.key ∨ u.upd.key + 16 ≤ a → t.byte a = s.byte a) ∧
        bits (key u t 0) 63 48 = bits (key u s 0) 63 48 ∧ bits (key u t 0) 31 0 = pend ∧
        (¬ ((bits (key u s 0) 47 32 + 1) % 2 ^ 16 = bits (key u s 0) 63 48 ∧ pend = 0) →
          key u t 1 = key u s 1 ∧ bits (key u t 0) 47 32 = (bits (key u s 0) 47 32 + 1) % 2 ^ 16 ∧ ∀ g, t.ctx g = s.ctx g) ∧
        ((bits (key u s 0) 47 32 + 1) % 2 ^ 16 = bits (key u s 0) 63 48 → pend = 0 →
          bits (key u t 0) 47 32 = 0 ∧ bit (key u t 1) 0 = !bit (key u s 1) 0 ∧ bit (key u t 1) 1 = true ∧
          ∀ g id, Waits s g (.bar u.upd.key (bit (key u s 1) 0) id) → (s.ctx g).firing ≠ none → (s.sx (g / 64)).halted = false →
            (t.ctx g).wait = .none ∧ (t.ctx g).st ≠ .waiting))) ∧
    (∀ l g, tget? (s.part p).launches slot = some l → l.group gid = some g →
      (g.gb = [] ∨ g.allIn (g.gb.map (·.1)) = false → Comes s (.groupBarrierComplete p slot gid) .groupBarrierComplete (Idle s)) ∧
      (g.gb ≠ [] → g.allIn (g.gb.map (·.1)) = true → Comes s (.groupBarrierComplete p slot gid) .groupBarrierComplete (fun t =>
        ∀ m ∈ g.gb, ∀ j, s.hartOf m.2.1 = some j → Waits s j .gbar → (s.sx (j / 64)).halted = false → (t.ctx j).wait = .none ∧ (t.ctx j).st ≠ .waiting)) ∧
      (∀ m v, g.hs.length = 1 → g.ended = [] → g.xg = [m] → m.1 = 0 → m.2.2.2 = v → s.hartOf m.2.1 = some h → Waits s h .xchg →
        (s.ctx h).pend = [{ reg := 32, id := m.2.2.1 }] → (s.sx (h / 64)).halted = false →
        Comes s (.exchangeComplete p slot gid 0) .exchangeComplete (fun t => (t.ctx h).wait = .none ∧ (t.ctx h).pend = [] ∧
          ∃ w : VReg, (∀ r, (t.ctx h).regs.getV r = if r = 0 then w else (s.ctx h).regs.getV r) ∧
            ∀ k, k < 16 → elem w 128 k = if k = 0 then elem v 128 0 else 0)) ∧
      (g.xg = [] → Comes s (.exchangeComplete p slot gid n) .exchangeComplete (Idle s))) ∧
    (∀ l, tget? (s.part p).launches slot = some l → tget [] l.lb n = [] →
      Comes s (.launchBarrierComplete p slot n) .launchBarrierComplete (Idle s)) ∧
    (∀ l fid id, tget? (s.part p).launches slot = some l → tget [] l.lb n = [(fid, id)] → s.alive fid = true →
      s.hartOf fid = some h → l.ended + 1 = hdrAll l.hdr.words → l.lbOut = [] → (s.ctx h).pend = [] →
      bits s.hub.mpwrcfg 41 32 = 0 → Waits s h (.lbar n) → (s.sx (h / 64)).halted = false →
      Comes s (.launchBarrierComplete p slot n) .launchBarrierComplete (fun t => Woken s t h)) ∧
    ((s.part p).merges = [] → Comes s (.logMergeDone p) .logMergeDone (Idle s)) ∧
    (∀ m, (s.part p).merges = [m] → m.closed = none → Comes s (.logMergeDone p) .logMergeDone (fun t =>
      (t.part p).merges = [] ∧ (∀ a, t.byte a = s.byte a) ∧ t.thallus.csn = s.thallus.csn ∧
      (bit (m.desc.getD 2 0) 1 = true → (t.part p).log =
        some { base := m.desc.getD 0 0, cap := bits (m.desc.getD 1 0) 31 0 }))) ∧
    (s.crzPick n = none → (∀ k ∈ s.combinesOf n, k.code = none ∨ s.crzFull n k = false) →
      Comes s (.crozierContribution n) .crozierContribution (Idle s)) ∧
    (∀ (k : Combine) (op off fid : Nat) (d : CrzDesc), s.crzPick n = some k → s.combinesOf n = [k] → k.waits = [] → k.got = [] →
      k.code = none → k.sends.head?.map (fun x => (x.2.1, x.2.2.1)) = some (op, d) →
      (k.mismatch = true → (∃ j, j < 160 ∧ d.members.testBit j = true ∧ s.present (coreOfMember n j) = true) →
        Comes s (.crozierContribution n) .crozierContribution (fun t => Still s t ∧ t.combinesOf n = [{ k with code := some 1 }])) ∧
      (∀ j L e, k.mismatch = false → s.crzNext n k = some j → L = coreOfMember n j →
        (∃ op', k.sends.find? (fun x => x.1 = L) = some (L, op', e, off, fid)) →
        let r := match k.acc with | none => s.crzRead L e off | some r => crzCombine op d r (s.crzRead L e off)
        let k' : Combine := { k with acc := some r, next := j + 1, last := s.gtime }
        Comes s (.crozierContribution n) .crozierContribution (fun t => Still s t ∧ t.combinesOf n = [k']))) ∧
    (∀ (L j op off fid tag last : Nat) (d : CrzDesc) (bs ss : List Byte),
      let k : Combine := { tag := tag, sends := [(L, op, d, off, fid)], next := j + 1, acc := some (bs, ss), code := none, waits := []
                           got := [], last := last }
      s.combinesOf n = [k] → d.ty = 0 → j < 160 → coreOfMember n j = L → (∀ i, i < 160 → d.members.testBit i = decide (i = j)) →
      s.present L = true → s.paused (L / 16) = false → (s.sx (L / 16)).halted = false → last + 3 ≤ s.gtime →
      Comes s (.crozierContribution n) .crozierContribution (fun t => (∀ h, t.ctx h = s.ctx h) ∧
        (∀ a, t.byte a = if spadKey L d.res ≤ a ∧ a < spadKey L d.res + bs.length then bs.getD (a - spadKey L d.res) 0
          else s.byte a) ∧
        ∃ k', t.combinesOf n = [k'] ∧ k'.code = some 0 ∧ k'.sends = k.sends))

/-- R302, R303, R305, R311, R316, R318, R335, R336, R326, R327, R334, R450: the head of a matrix queue that may run leaves it with
its writes visible, and no other byte changes; one that has not been admitted, or whose sorus stands still, waits, but one that runs
completes in a halted sorus (R412); a copy at the head of its queue is checked once, and ends at once with the code of the check that
fails, or with FAULT where a fault had parked it as its firing ended (R446): its status word goes to its register (R335); a sector of bytes
is read, each byte as the earlier ones have left it (R332), and written 3 ns later (R52; log 9), the last sector ends the copy with code 0,
and a halt freezes it; a fetch returns the elements of its request; a transfer of a write port becomes visible; a promise that has passed
by the core's copy of the time (R471) sets LATE, but not in a pause of the clock (R49). That the data of a sector are read together before
they are written is the model's choice (log 90). -/
def Obligations.EnginesRun : Prop :=
  ∀ (s : State) (L h q cid : Nat),
    let done := Event.tileOperationComplete L
    let n := L / 16
    let ends (c : Copy) (code : Nat) (t : State) : Prop := tget? t.flight.copies c.id = none ∧ c.id ∉ (t.core L).copyq ∧
      ∀ g d, c.discard = false → s.hartOf c.fid = some g → s.paused (g / 64) = false → (s.ctx g).pend = [{ reg := d, id := c.id }] →
        0 < d → d < 32 → (t.ctx g).pend = [] ∧ ∀ k, (t.ctx g).regs.getX k = if k = d then
          word (c.done * 2 ^ 32 + flag (c.late || decide (c.promise < s.localTime L)) * 256 + code) else (s.ctx g).regs.getX k
    let runs (t : Tile) (P : State → Prop) : Prop := (s.core L).matq.head? = some t → t.ready = true → s.stuck n = false →
      t.running = true ∨ (s.sx n).halted = false → Comes s done .tileOperationComplete (fun u => (∀ v ∈ (u.core L).matq, v.id ≠ t.id) ∧ P u)
    ((s.core L).matq = [] → Comes s done .tileOperationComplete (Idle s)) ∧
    (∀ t, (s.core L).matq.head? = some t → t.ready = false ∨ s.stuck n = true ∨ (t.running = false ∧ (s.sx n).halted = true) →
      Comes s done .tileOperationComplete (Idle s)) ∧
    (∀ t form pair cmd a b u, t.kind = .product form pair cmd a b u → cmdBarv cmd = false → cmdCol cmd + cmdN cmd ≤ 128 →
      runs t (fun v =>
        (∀ i j, i < cmdM cmd → j < cmdN cmd → v.lane L (cmdRow cmd + i) (cmdCol cmd + j) =
          productLane (pair = .i8i8) (cmdSlabs cmd) (elemA (s.spad L) t.fmt form pair a u i)
            (fun k => elemB (s.spad L) t.fmt form pair b k j)
            (if bit cmd 23 then 0 else s.lane L (cmdRow cmd + i) (cmdCol cmd + j)) % 2 ^ 32) ∧
        ∀ x, (∀ i j, i < cmdM cmd → j < cmdN cmd →
          x < accKey L (512 * (cmdRow cmd + i) + 4 * (cmdCol cmd + j)) ∨
          accKey L (512 * (cmdRow cmd + i) + 4 * (cmdCol cmd + j)) + 4 ≤ x) → v.byte x = s.byte x)) ∧
    (∀ t g ng m, t.kind = .aclr g ng false m → runs t (fun v => ∀ x, v.byte x =
      if accKey L (g * 4096) ≤ x ∧ x < accKey L (g * 4096) + (ng + 1) * 4096 then 0 else s.byte x)) ∧
    (∀ t r w, t.kind = .amova r w → runs t (fun v =>
      (∀ i, i < 64 → v.lane L r.row (r.col + i) = elem w 32 i) ∧
      ∀ x, x < accKey L (512 * r.row + 4 * r.col) ∨ accKey L (512 * r.row + 4 * r.col) + 256 ≤ x → v.byte x = s.byte x)) ∧
    (s.copyHead L = none → Comes s (.copyHeadCheck L) .copyHeadCheck (Idle s) ∧
      Comes s (.copySectorWritten L) .copySectorWritten (Idle s)) ∧
    (∀ c, s.copyHead L = some c → s.still n = true → Comes s (.copyHeadCheck L) .copyHeadCheck (Idle s)) ∧
    (∀ c, s.copyHead L = some c → c.checked = false ∨ c.parked = true ∨ s.stuck n = true ∨ s.copyAwaits c = true ∨
      ((s.sx n).halted = true ∧ c.frozen = true) → Comes s (.copySectorWritten L) .copySectorWritten (Idle s)) ∧
    (∀ c, s.copyHead L = some c → c.fault = true → s.still n = false → c.follow = none → c.h / 4 = L →
      Comes s (.copyHeadCheck L) .copyHeadCheck (fun t => (∀ a, t.byte a = s.byte a) ∧ ends c 7 t)) ∧
    (∀ c, s.copyHead L = some c → c.checked = false → c.fault = false → s.still n = false →
      (s.copyCode (s.sampled c) = 0 → Comes s (.copyHeadCheck L) .copyHeadCheck (fun t => Still s t ∧
        tget? t.flight.copies c.id = some { s.sampled c with checked := true } ∧
        t.agenda = s.agenda ++ [.copySectorWritten L])) ∧
      (s.copyCode (s.sampled c) ≠ 0 → c.follow = none → c.h / 4 = L → Comes s (.copyHeadCheck L) .copyHeadCheck (fun t =>
        (∀ a, t.byte a = s.byte a) ∧ ends c (s.copyCode (s.sampled c)) t))) ∧
    (∀ (c : Copy) (a b : Nat) (bs : List Byte), s.copyHead L = some c → c.checked = true → c.parked = false → s.stuck n = false →
      s.copyAwaits c = false → c.raw = true → c.sp false = 1 → c.sp true = 1 → c.h / 4 = L →
      c.pieces c.done = [{ run := 0, e0 := 0, e1 := bs.length }] → c.span false { run := 0, e0 := 0, e1 := bs.length } = (a, bs.length) →
      c.run true 0 = b → L < 2560 → a + bs.length ≤ 0x50000 → b + bs.length ≤ 0x50000 → 0 < bs.length →
      let now (P : State → Prop) : Prop := Comes s (.copySectorWritten L) .copySectorWritten P
      ((s.sx n).halted = true → c.frozen = false → c.made = none → now (fun t => Still s t ∧
        tget? t.flight.copies c.id = some { c with frozen := true })) ∧
      ((s.sx n).halted = false → c.made = none → c.words = 0 → (∀ i, i < bs.length → s.byte (spadKey L (a + i)) = bs.getD i 0) →
        now (fun t => Still s t ∧ t.timers = s.timers ++ [(s.gtime + 3, .copySectorWritten L)] ∧
          ∃ k, tget? t.flight.copies c.id = some k ∧ k.made = some s.gtime ∧ k.done = c.done ∧
            k.out.flatten = (List.range bs.length).map (fun i => (spadKey L (b + i), bs.getD (if b ≤ a then i else i % (b - a)) 0)))) ∧
      (∀ at', (s.sx n).halted = false → c.made = some at' → s.gtime < at' + 3 → now (Still s)) ∧
      (∀ at', (s.sx n).halted = false → c.made = some at' → at' + 3 ≤ s.gtime → c.follow = none → c.cancel = false →
        c.out.flatten = (List.range bs.length).map (fun i => (spadKey L (b + i), bs.getD i 0)) →
        now (fun t => (∀ x, t.byte x = if spadKey L b ≤ x ∧ x < spadKey L b + bs.length then bs.getD (x - spadKey L b) 0 else s.byte x) ∧
          (c.done + 1 < c.sectors → ∃ k, tget? t.flight.copies c.id = some k ∧ k.done = c.done + 1 ∧ k.made = none) ∧
          (c.sectors ≤ c.done + 1 → ends { c with done := c.done + 1 } 0 t)))) ∧
    (s.stuck (h / 64) = true → Comes s (.streamFetchReturn h q) .streamFetchReturn (Idle s)) ∧
    ((s.ctx h).port q = none → s.stuck (h / 64) = false → Comes s (.streamFetchReturn h q) .streamFetchReturn (fun t =>
      (∀ a, t.byte a = s.byte a) ∧ ∀ g, tget? (t.aux h).fetch q = some g → g.flying = 0)) ∧
    (∀ p f fr, s.stuck (h / 64) = false → (s.ctx h).port q = some p → p.dir = false → (s.ctx h).firing = some fr →
      tget? (s.aux h).fetch q = some f → f.bind = p.bind → f.flying ≠ 0 →
      (∀ j ∈ p.request f, ∃ pl, s.streamPlace h fr.part fr.fid .load (p.addr j) = .ok pl ∧ isHost pl.key = false ∧
        s.keyStill (h / 64) pl.key = false) →
      Comes s (.streamFetchReturn h q) .streamFetchReturn (fun t => (∀ a, t.byte a = s.byte a) ∧
        ∀ j ∈ p.request f, ∀ pl, s.streamPlace h fr.part fr.fid .load (p.addr j) = .ok pl →
          ∃ g, tget? (t.aux h).fetch q = some g ∧ tget? g.els j = some (s.readNat pl.key p.size))) ∧
    (tget? (s.aux h).drain q = none → Comes s (.streamWriteTransferDone h q) .streamWriteTransferDone (Idle s)) ∧
    (∀ d e es pl, tget? (s.aux h).drain q = some d → d.queue = [e] :: es → d.stop = none → s.still (h / 64) = false →
      s.streamPlace h d.part d.fid .store e.va = .ok pl → isHost pl.key = false → s.keyStill (h / 64) pl.key = false →
      Comes s (.streamWriteTransferDone h q) .streamWriteTransferDone (fun t =>
        (∀ a, t.byte a = if pl.key ≤ a ∧ a < pl.key + e.size then BitVec.ofNat 8 (e.bits / 256 ^ (a - pl.key)) else s.byte a) ∧
        (es = [] → d.dead = none → tget? (t.aux h).drain q = none) ∧
        (es ≠ [] ∨ d.dead ≠ none → tget? (t.aux h).drain q = some { d with queue := es }))) ∧
    (tget? s.flight.copies cid = none → Comes s (.promiseExpiry h cid) .promiseExpiry (Idle s)) ∧
    (∀ c, tget? s.flight.copies cid = some c → c.id = cid →
      (c.late = true → Comes s (.promiseExpiry h cid) .promiseExpiry (Idle s)) ∧
      (c.late = false → s.localTime (c.h / 4) ≤ c.promise → Comes s (.promiseExpiry h cid) .promiseExpiry (fun t =>
        ∃ l, t = { s with now := none, timers := l })) ∧
      (c.late = false → c.promise < s.localTime (c.h / 4) → s.paused (c.h / 64) = true →
        Comes s (.promiseExpiry h cid) .promiseExpiry (fun t =>
          t = { s with now := none, timers := s.timers ++ [(s.gtime + 10, .promiseExpiry c.h c.id)] })) ∧
      (c.late = false → c.promise < s.localTime (c.h / 4) → s.paused (c.h / 64) = false →
        Comes s (.promiseExpiry h cid) .promiseExpiry (fun t => (∀ a, t.byte a = s.byte a) ∧ ∃ d, tget? t.flight.copies cid = some d ∧ d.late = true ∧
          d.lateTrap = (bit c.space 19 && !c.discard) ∧ d.promise = c.promise)))

/-- R347, R349, R350, R356, R357, R359, R363, R456 to R460, R462, R472, R478: a message leaves once its channel has room for all its
words, and its words enter the FIFO together, unless its core no longer serves or takes no traffic now; after a change of its class's route
it waits for those of the class that the network carries; a request is discarded at an owner that is absent, and discarded and counted as
lost after 8 µs, in which the wait at an owner that takes no traffic does not count (R412), answered where an entry of the result cache
stands or stood as it came, or with UNKNOWN, after the earlier requests of its line (R382), and else queued once; a reply writes the
register that awaits it; entries retire after 256 µs; a request is sent again with the number of its time, leaves when serial wrap and
the requests before it let it, and at its last deadline has an unknown outcome: 0 and EI. What crosses a link that retrains waits. The
times of a request are by its core's copy of the time (R471). An injected loss is judged by the tenant of the message's source word, the
model's choice (log 30), and so is how the highest acknowledgement counts modulo 2^16 (log 112). -/
def Obligations.RemoteTraffic : Prop :=
  ∀ (s : State) (id rid n h : Nat),
    let gone (t : State) : Prop := tget? t.flight.rcopies id = none
    let asleepAt (L : Nat) : Bool := (s.sx (L / 16)).halted || s.paused (L / 16)
    (∀ m : Msg, tget? s.flight.msgs id = some m →
      let q (t : State) : Chan := (t.core m.core).chan m.ch
      (m.left = true ∨ s.msgBehind id m true = true ∨ (q s).free < m.words.length ∨ s.routeHeld m.ch = true →
        Comes s (.messageSendRelease id) .messageSendRelease (Idle s)) ∧
      (m.left = false → s.msgBehind id m true = false → m.words.length ≤ (q s).free → s.routeHeld m.ch = false →
        Comes s (.messageSendRelease id) .messageSendRelease (fun t => Still s t ∧
          tget? t.flight.msgs id = some { m with left := true } ∧ q t = { q s with room := (q s).room + m.words.length })) ∧
      (m.left = false ∨ s.msgBehind id m false = true ∨ asleepAt m.core = true ∨ s.wayDown (s.routeOf m) = true →
        Comes s (.messageArrival id) .messageArrival (Idle s)) ∧
      (m.left = true → s.msgBehind id m false = false → asleepAt m.core = false → s.wayDown (s.routeOf m) = false →
        Comes s (.messageArrival id) .messageArrival (fun t => Still s t ∧ tget? t.flight.msgs id = none ∧
          (q t).room = (q s).room - m.words.length ∧
          (s.present m.core = false → m.sender < 10240 → (q t).fifo = (q s).fifo) ∧
          (s.present m.core = true → s.finjHits m.core 1 m.ch (bits m.srcw 31 16) = true → (q t).fifo = (q s).fifo ∧
            (t.core m.core).finj = setBits (setBits (s.core m.core).finj 32 8 (bits (s.core m.core).finj 39 32 - 1)) 40 8
              (min 255 (bits (s.core m.core).finj 47 40 + 1))) ∧
          (s.present m.core = true → s.finjHits m.core 1 m.ch (bits m.srcw 31 16) = false →
            (q t).fifo = (q s).fifo ++ m.words.map (fun w => (w, m.srcw)))))) ∧
    (∀ r : ReqCopy, tget? s.flight.rcopies id = some r → s.fabric.admits = [] →
      let comes (P : State → Prop) : Prop := Comes s (.ownerRequestArrival id) .ownerRequestArrival P
      let x := (s.sorus (r.core / 16)).ackSeen r
      let floor := tget 0 x.floors (r.tenant * 2 ^ 32 + r.vrid)
      let up := r.queued = false ∧ s.wayDown (s.copyWay r) = false
      let live := up ∧ s.still (r.core / 16) = false
      let age := r.age + ((r.came.map (·.1)).getD s.gtime - r.sent)
      let entry (e : CacheEnt) : Nat × Word × Nat := (if e.abort then 4 else 0, e.result, e.ver)
      let ans : Option (Nat × Word × Nat) := if r.hit.isSome then r.hit else (x.cache.find? (fun e => e.answers r)).map entry
      let old : Prop := s.gtime < max x.epochAt s.hub.relAt + 264000 ∨ (r.epoch ≠ 0 ∧ r.epoch ≠ x.epoch)
      let replied (a : Nat × Word × Nat) (P : (State → Prop) → Prop) : Prop :=
        (s.lineAhead r = true → P (fun t => Still s t ∧ (t.core r.core).owners = (s.core r.core).owners ++ [id] ∧
          tget? t.flight.rcopies id = some { r with queued := true, hit := some a })) ∧
        (s.lineAhead r = false → r.remote = none → P (fun t => Still s t ∧ gone t ∧ ∃ i p, tget? t.flight.replies i = some p ∧
          p.rid = r.rid ∧ p.code = a.1 ∧ p.v = a.2.1 ∧ p.ver = a.2.2 ∧ p.epoch = x.epoch ∧ (s.gtime + 3, .replyArrival i) ∈ t.timers))
      (r.queued = true ∨ s.wayDown (s.copyWay r) = true ∨ (s.still (r.core / 16) = true ∧ r.came ≠ none) → comes (Idle s)) ∧
      (up → s.still (r.core / 16) = true → r.came = none → comes (fun t => Still s t ∧ t.sori = s.sori ∧
        tget? t.flight.rcopies id = some { r with
          came := some (s.gtime, s.flight.ids)
          hit := if r.nonIdem then ((s.sorus (r.core / 16)).cache.find? (fun e => e.answers r)).map entry else none })) ∧
      (live → s.present r.core = false → comes (fun t => Still s t ∧ gone t ∧ t.sori = s.sori)) ∧
      (live → s.present r.core = true → 8000 < age → comes (fun t => Still s t ∧ gone t ∧
        t.sorus (r.core / 16) = { s.sorus (r.core / 16) with lost := (s.sorus (r.core / 16)).lost + 1 })) ∧
      (live → s.present r.core = true → age ≤ 8000 →
        (r.nonIdem = false → comes (fun t => Still s t ∧ (t.core r.core).owners = (s.core r.core).owners ++ [id] ∧
          tget? t.flight.rcopies id = some { r with queued := true })) ∧
        (∀ a, r.nonIdem = true → ans = some a → replied a comes) ∧
        (r.nonIdem = true → ans = none → 32768 ≤ (r.serial + 65536 - floor) % 65536 →
          comes (fun t => Still s t ∧ gone t ∧ (t.core r.core).owners = (s.core r.core).owners)) ∧
        (r.nonIdem = true → ans = none → (r.serial + 65536 - floor) % 65536 < 32768 → 0 < r.copyn → old →
          replied (3, 0, 0) comes) ∧
        (r.nonIdem = true → ans = none → (r.serial + 65536 - floor) % 65536 < 32768 →
          r.copyn = 0 → (∀ p ∈ s.flight.rcopies, p.2.queued = false) →
          comes (fun t => Still s t ∧ (t.core r.core).owners = (s.core r.core).owners ++ [id])))) ∧
    (∀ r : Reply, tget? s.flight.replies id = some r →
      let comes (P : State → Prop) : Prop := Comes s (.replyArrival id) .replyArrival P
      (tget? s.flight.reqs r.rid = none → comes (fun t => Still s t ∧ tget? t.flight.replies id = none)) ∧
      (∀ q d, tget? s.flight.reqs r.rid = some q →
        let down : Bool := decide (r.sorus < 160) && s.wayDown (wayLinks r.sorus (q.core / 16))
        (asleepAt q.core = true ∨ down = true → comes (Idle s)) ∧
        (asleepAt q.core = false → down = false → r.code = 0 → q.op.nr = false → s.hartOf q.fid = some h →
          s.quiet (h / 64) = false → (s.ctx h).pend = [{ reg := d, id := q.id }] → 0 < d → d < 32 →
          comes (fun t => OthersStill s t h ∧ (∀ a, t.byte a = s.byte a) ∧ tget? t.flight.reqs r.rid = none ∧
            (t.ctx h).pend = [] ∧ ∀ k, (t.ctx h).regs.getX k =
              if k = d then (if q.op.narrow then sextNat 32 r.v.toNat else r.v) else (s.ctx h).regs.getX k)))) ∧
    Comes s (.resultCacheRetirement n) .resultCacheRetirement (fun t => Still s t ∧ (∀ e,
      e ∈ (t.sorus n).cache ↔ e ∈ (s.sorus n).cache ∧ s.gtime < e.time + 256000) ∧
      ∀ (i : Nat) (r : ReqCopy) (e : CacheEnt), tget? s.flight.rcopies i = some r → r.came ≠ none → r.queued = false → r.core / 16 = n →
        r.hit = none → (s.sorus n).cache.find? (fun e => e.answers r && decide (e.time + 256000 ≤ s.gtime)) = some e →
        ∃ k, tget? t.flight.rcopies i = some k ∧ k.hit = some (if e.abort then 4 else 0, e.result, e.ver)) ∧
    (tget? s.flight.reqs rid = none → Comes s (.retransmission rid) .retransmission (Idle s) ∧
      Comes s (.serialWrapRelease rid) .serialWrapRelease (Idle s) ∧
      Comes s (.requestLastDeadline rid) .requestLastDeadline (Idle s)) ∧
    (∀ q L d, tget? s.flight.reqs rid = some q →
      let now := s.localTime q.core
      (q.held = true → Comes s (.retransmission rid) .retransmission (Idle s)) ∧
      (q.held = false → copyNow q.first now ≤ q.copies → Comes s (.retransmission rid) .retransmission (fun t =>
        ∃ l, t = { s with now := none, timers := l })) ∧
      (q.held = false → q.win = none → s.ownerOf q.key = some L → q.copies < copyNow q.first now →
        (L / 16 = q.sorus → Comes s (.retransmission rid) .retransmission (fun t => Still s t ∧
          (∃ p, tget? t.flight.reqs rid = some p ∧ p.copies = copyNow q.first now) ∧
          ∃ i c, tget? t.flight.rcopies i = some c ∧ c.rid = rid ∧ c.core = L ∧ c.copyn = copyNow q.first now ∧ c.sent = s.gtime ∧
            c.age = 0 ∧ c.op = q.op ∧ c.serial = q.serial)) ∧
        (L / 16 ≠ q.sorus → Comes s (.retransmission rid) .retransmission (fun t => (∀ a, t.byte a = s.byte a) ∧
          tget? t.flight.reqs rid = none))) ∧
      (q.held = false → Comes s (.serialWrapRelease rid) .serialWrapRelease (Idle s)) ∧
      (q.held = true → q.win = none → (s.flight.reqs.filter (fun p => p.2.fid = q.fid && p.2.held)).map (·.1) = [rid] →
        (q.nonIdem = false ∨ s.wrapUntil q = none →
          (s.reqBehind rid q = true → Comes s (.serialWrapRelease rid) .serialWrapRelease (Idle s)) ∧
          (s.reqBehind rid q = false → Comes s (.serialWrapRelease rid) .serialWrapRelease (fun t => Still s t ∧
            ∃ p, tget? t.flight.reqs rid = some p ∧ p.first = now ∧ p.held = false))) ∧
        (∀ u, q.nonIdem = true → s.wrapUntil q = some u → Comes s (.serialWrapRelease rid) .serialWrapRelease (fun t =>
          t = { s with now := none, timers := s.timers ++ [(u, .serialWrapRelease rid)] }))) ∧
      (q.held = true → Comes s (.requestLastDeadline rid) .requestLastDeadline (Idle s)) ∧
      (q.held = false → now < q.first + 312000 → Comes s (.requestLastDeadline rid) .requestLastDeadline (fun t =>
        ∃ l, t = { s with now := none, timers := l })) ∧
      (q.held = false → q.first + 312000 ≤ now → s.paused (q.core / 16) = true →
        Comes s (.requestLastDeadline rid) .requestLastDeadline (fun t =>
          t = { s with now := none, timers := s.timers ++ [(s.gtime + 10, .requestLastDeadline rid)] })) ∧
      (q.held = false → q.first + 312000 ≤ now → s.paused (q.core / 16) = false → q.op.nr = false → s.hartOf q.fid = some h →
        s.quiet (h / 64) = false → (s.ctx h).pend = [{ reg := d, id := q.id }] → 0 < d → d < 32 → (s.ctx h).sys.pendEi = false →
        Comes s (.requestLastDeadline rid) .requestLastDeadline (fun t => OthersStill s t h ∧ (∀ a, t.byte a = s.byte a) ∧
          tget? t.flight.reqs rid = none ∧ (t.ctx h).pend = [] ∧ (t.ctx h).sys.pendEi = true ∧
          (t.aux h).eiVal = word (5 * 2 ^ 60 + q.va.toNat % 2 ^ 60) ∧
          ∀ k, (t.ctx h).regs.getX k = if k = d then 0 else (s.ctx h).regs.getX k)))

/-- R61, R64, R82, R83, R130, R235, R237, R265 to R267, R397, R414, R463: a write of a register that has a happening of its own: what
it stores, what it starts, and that nothing else of the contexts or of memory differs; a write to what is no register is refused or
without effect. R391: a function's MSI-X table takes 4-byte writes. R130: PTROOT and TLBINV wait for the engines that hold a
translation. The layout and the mask bit of an MSI-X entry, and that an unmasked pending vector is sent, are the family's (log 4); that a
write of FINJ keeps DONE is log 30, that a context which is reserved as its core is added stays so is log 85, and that a write which would
change nothing has no effect is log 75: the model's choices. -/
def Obligations.RegisterWrites : Prop :=
  ∀ (s : State) (L n a : Nat) (v : Word) (posted fromM : Bool),
    let k := s.core L
    let emptied (g : Nat) : Ctx :=
      { st := if (s.ctx g).st = .reserved then .reserved else .free, resv := (s.ctx g).resv, floor := (s.ctx g).floor }
    let refusal (t : State) : Prop := Still s t ∧ t.cores = s.cores ∧ t.sori = s.sori ∧ t.parts = s.parts ∧ t.agenda = s.agenda ∧
      t.out = s.out ++ [if posted then .nonFatal n else .completerAbort]
    (2560 ≤ L ∨ k.post.go = true → Comes s (.postGo L v) .postGo (Idle s)) ∧
    (L < 2560 → k.post.go = false → Comes s (.postGo L v) .postGo (fun t => Still s t ∧ (t.core L).post.ch = bits v 3 0 ∧
      (t.core L).post.w0 = k.post.w0 ∧ (t.core L).post.w1 = k.post.w1 ∧ (∀ M, M ≠ L → t.core M = s.core M) ∧
      (bit v 4 = false → (t.core L).post.go = false ∧ (t.core L).post.err = k.post.err ∧ t.flight = s.flight) ∧
      (bit v 4 = true → s.present L = false ∨ bits v 3 0 < 2 →
        (t.core L).post.go = false ∧ (t.core L).post.err = true ∧ t.flight = s.flight) ∧
      (bit v 4 = true → s.present L = true → 2 ≤ bits v 3 0 → (t.core L).post.go = true ∧ (t.core L).post.err = false ∧
        ∃ m, tget? t.flight.msgs s.flight.ids = some m ∧ m.core = L ∧ m.ch = bits v 3 0 ∧ m.words = [k.post.w0, k.post.w1] ∧
          m.left = false ∧ t.agenda = s.agenda ++ [.messageSendRelease s.flight.ids]))) ∧
    (L < 2560 → n < 16 → Comes s (.hteHubWrite L n v) .hteHubWrite (fun t => Still s t ∧
      (t.core L).entry n = hteStore n (k.entry n) v true ∧ (∀ j, j ≠ n → (t.core L).entry j = k.entry j) ∧
      (∀ j, j < 16 → (bit (t.core L).chmask j = bit ((t.core L).entry j) 61)) ∧
      (∀ M, M ≠ L → t.core M = s.core M) ∧ t.agenda = s.agenda ++ [.selection L])) ∧
    (hubReg a = none → Comes s (.hcdataWrite a v) .hcdataWrite (Idle s)) ∧
    (n < 160 → Comes s (.hcdataWrite (0x10000 + 16 * n) v) .hcdataWrite (fun t => Still s t ∧ t.cores = s.cores ∧
      (t.sorus n).pwrcfg = v &&& 0xFFFFFFF ∧ ∀ m, m ≠ n → t.sorus m = s.sorus m)) ∧
    (n < 64 → Comes s (.hcdataWrite (0x40000 + 64 * n) v) .hcdataWrite (fun t => Still s t ∧ t.cores = s.cores ∧
      t.part n = { s.part n with lqcfg := v } ∧ ∀ m, m ≠ n → t.part m = s.part m)) ∧
    (n < 64 → s.hub.ready = true → Comes s (.hubWindowWrite 0 (0x1040000 + 64 * n) 8 v posted) .hubWindowWrite (fun t =>
      Still s t ∧ t.out = s.out ∧ t.part n = { s.part n with lqcfg := v } ∧ ∀ m, m ≠ n → t.part m = s.part m)) ∧
    Comes s (.hubWindowWrite 0 0x10 8 v posted) .hubWindowWrite (fun t =>
      t = { s with now := none, hub := { s.hub with dltime := max 1 (min 1000000 (bits v 19 0)) } }) ∧
    (0 < n → n < 16 → a < 0x400 → a % 4 = 0 → Comes s (.hubWindowWrite n (0x2000 + a) 4 v posted) .hubWindowWrite (fun t =>
      let w := setBits ((s.slot n).msixWord (a / 8)) (8 * (a % 8)) 32 (bits v 31 0)
      let sent : Bool := a / 8 % 2 = 1 && !bit w 32 && bit (s.slot n).pba (a / 16)
      Still s t ∧ (t.slot n).msixWord (a / 8) = w ∧ (∀ j, j ≠ a / 8 → (t.slot n).msixWord j = (s.slot n).msixWord j) ∧
      (∀ m, m ≠ n → t.slot m = s.slot m) ∧ t.out = if sent then s.out ++ [.msix n (a / 16)] else s.out)) ∧
    (∀ m, m ≠ 8 → msixPart n a m = false → Comes s (.hubWindowWrite n a m v posted) .hubWindowWrite refusal) ∧
    (n ≠ 0 → a % 8 ≠ 0 ∨ 16 ≤ n → Comes s (.hubWindowWrite n a 8 v posted) .hubWindowWrite refusal) ∧
    (n = 0 → s.hub.ready = false ∨ hubReg a = none → a % 8 = 0 → a < 0x1000000 →
      Comes s (.hubWindowWrite 0 (0x1000000 + a) 8 v posted) .hubWindowWrite refusal) ∧
    (64 ≤ n → Comes s (.ptrootWrite n v) .ptrootWrite (Idle s) ∧ Comes s (.tlbinvWrite n v) .tlbinvWrite (Idle s)) ∧
    (n < 64 → s.transBusy n = true → Comes s (.ptrootWrite n v) .ptrootWrite (fun t =>
        t = { s with now := none, timers := s.timers ++ [(s.gtime + 3, .ptrootWrite n v)] }) ∧
      Comes s (.tlbinvWrite n v) .tlbinvWrite (fun t =>
        t = { s with now := none, timers := s.timers ++ [(s.gtime + 3, .tlbinvWrite n v)] })) ∧
    (n < 64 → s.transBusy n = false → Comes s (.ptrootWrite n v) .ptrootWrite (fun t => Still s t ∧
      t.part n = { s.part n with ptroot := word (bits v 51 12 * 2 ^ 12) } ∧ (∀ m, m ≠ n → t.part m = s.part m) ∧
      ∀ x e, e ∈ (t.sx x).tlb ↔ e ∈ (s.sx x).tlb ∧ e.1 / 2 ^ 32 ≠ n)) ∧
    (n < 64 → s.transBusy n = false → Comes s (.tlbinvWrite n v) .tlbinvWrite (fun t => Still s t ∧ (t.part n).ptroot = (s.part n).ptroot ∧
      (bit v 0 = true → ∀ x e, e ∈ (t.sx x).tlb ↔ e ∈ (s.sx x).tlb ∧ e.1 / 2 ^ 32 ≠ n) ∧
      (bit v 0 = false → ∀ x e, e ∈ (t.sx x).tlb ↔ e ∈ (s.sx x).tlb ∧
        ¬ (e.1 / 2 ^ 32 = n ∧ e.1 % 2 ^ 32 * 2 ^ 16 / 2 ^ e.2.1 = bits v 47 16 * 2 ^ 16 / 2 ^ e.2.1)))) ∧
    Comes s (.boostlvlWrite n v) .boostlvlWrite (fun t => Still s t ∧ (∀ g, g ≠ n → t.aux g = s.aux g) ∧ t.aux n = { s.aux n with
      req := if bits v 1 0 = 3 then (s.aux n).req else bits v 1 0, bpri := bits v 10 8 }) ∧
    (n < 16 → Comes s (.ppoolWrite n v) .ppoolWrite (fun t => Still s t ∧
      t.slot n = { s.slot n with ppend := (s.slot n).ppend ++ [v] } ∧ ∀ m, m ≠ n → t.slot m = s.slot m)) ∧
    (16 ≤ n → Comes s (.ppoolWrite n v) .ppoolWrite (Idle s)) ∧
    Comes s (.finjWrite L fromM v) .finjWrite (fun t => Still s t ∧ (∀ M, M ≠ L → t.core M = s.core M) ∧
      let f := (t.core L).finj
      bits f 47 40 = bits k.finj 47 40 ∧ bits f 39 32 = bits v 39 32 ∧ bits f 19 16 = bits v 19 16 ∧
      bits f 9 8 = (if bits v 9 8 = 3 then bits k.finj 9 8 else bits v 9 8) ∧ (fromM = true → bits f 63 48 = 0xFFFF) ∧
      (fromM = false → s.partOf L = some n → bits f 63 48 = bits (s.slot (s.slotOf n)).tencfg 47 32)) ∧
    Comes s (.finjRead L) .finjRead (fun t => Still s t ∧ t.out = s.out ++ [.data k.finj] ∧
      t.core L = { k with finj := setBits k.finj 40 8 0 } ∧ bits (t.core L).finj 47 40 = 0 ∧ ∀ M, M ≠ L → t.core M = s.core M) ∧
    (s.present L = false → Comes s (.lcmapAbsentSet L) .lcmapAbsentSet (Idle s)) ∧
    (s.present L = true → s.scanOn L = none → Comes s (.lcmapAbsentSet L) .lcmapAbsentSet (fun t => Still s t ∧
      t.present L = false ∧ (∀ M, M ≠ L → t.present M = s.present M) ∧ (s.hub.ready = true → L ∈ t.hub.removed) ∧
      ((∀ M, M / 16 = L / 16 → t.present M = false) → (t.sorus (L / 16)).cache = [] ∧
        (t.sorus (L / 16)).epoch = nextEpoch (s.sorus (L / 16)).epoch))) ∧
    (2560 ≤ L ∨ s.present L = true ∨ L ∈ s.hub.selffail → Comes s (.lcmapAbsentClear L) .lcmapAbsentClear (Idle s)) ∧
    (L < 2560 → s.present L = false → L ∉ s.hub.selffail → Comes s (.lcmapAbsentClear L) .lcmapAbsentClear (fun t =>
      t.present L = true ∧ (∀ M, M ≠ L → t.present M = s.present M) ∧ L ∉ t.hub.removed ∧ (t.core L).test = .none ∧
      (∀ g, g / 4 ≠ L → t.ctx g = s.ctx g) ∧ (∀ g, g / 4 = L → (s.ctx g).firing = none → t.ctx g = emptied g) ∧
      ∀ x, x < spadKey L 0 ∨ spadKey L 0x50000 ≤ x → x < accKey L 0 ∨ accKey L 0x10000 ≤ x → t.byte x = s.byte x)) ∧
    (let x := s.sorus n
     (160 ≤ n → Comes s (.spartWrite n v) .spartWrite (Idle s)) ∧
     (x.leaving = false → bit v 7 = x.pvalid → bit v 7 = false ∨ bits v 5 0 = x.part →
       Comes s (.spartWrite n v) .spartWrite (Idle s)) ∧
     (n < 160 → x.leaving = true ∨ bit v 7 ≠ x.pvalid ∨ (bit v 7 = true ∧ bits v 5 0 ≠ x.part) →
       Comes s (.spartWrite n v) .spartWrite (fun t => Still s t ∧ t.sorus n = { x with leaving := true, nvalid := bit v 7
                                                                                        next := if bit v 7 then bits v 5 0 else 0 }))) ∧
    ((s.sx (n / 64)).halted = false ∨ (s.ctx n).st = .free → ∀ sel, Comes s (.dbgrdatWrite n sel v) .dbgrdatWrite (Idle s)) ∧
    ((s.sx (n / 64)).halted = true → (s.ctx n).st ≠ .free →
      (∀ r, 0 < r → r < 32 → Comes s (.dbgrdatWrite n (word (r * 2 ^ 9)) v) .dbgrdatWrite (fun t => OthersStill s t n ∧
        (∀ b, t.byte b = s.byte b) ∧ (t.ctx n).pc = (s.ctx n).pc ∧
        ∀ j, (t.ctx n).regs.getX j = if j = r then v else (s.ctx n).regs.getX j)) ∧
      Comes s (.dbgrdatWrite n (word (4 * 2 ^ 21)) v) .dbgrdatWrite (fun t => OthersStill s t n ∧ (∀ b, t.byte b = s.byte b) ∧
        t.ctx n = { s.ctx n with pc := setBits v 0 2 0 }))

/-- R143, R237, R389, R391 to R393, R396 to R399: a host write to a device line is granted as one commit and broadcast, unless the line
is pending; a host read answers what memory holds; a header arrives with its last word; an access that nothing lists is refused and
logged. R396, R403: the reset of a function shuts its launch windows, completes a queued launch and a resident one with ABORTED, their
records written and no MSI-X sent, kills its firings, cancels its copies, revokes its export windows, and ends after 100 ms. The controller
marks at most one sorus. That a host write to a held line waits 10 ns before it is tried again is the model's choice (log 68). -/
def Obligations.HostLink : Prop :=
  ∀ (s : State) (line t0 k first off fn n : Nat) (data : BitVec 512) (ws : List Word) (posted : Bool),
    let answer : Output := if posted then .nonFatal fn else .completerAbort
    (s.deviceLine line = false → Comes s (.hostCxlMemWrite line data) .hostCxlMemWrite (Idle s) ∧
      Comes s (.hostCxlMemRead line) .hostCxlMemRead (Idle s)) ∧
    (s.deviceLine line = true → s.lineHeld line = true → Comes s (.hostCxlMemWrite line data) .hostCxlMemWrite (fun t =>
      t = { s with now := none, timers := s.timers ++ [(s.gtime + 10, .hostCxlMemWrite line data)] })) ∧
    (s.deviceLine line = true → s.lineHeld line = false → Comes s (.hostCxlMemWrite line data) .hostCxlMemWrite (fun t =>
      (∀ h, t.ctx h = s.ctx h) ∧ t.thallus.csn = s.thallus.csn + 1 ∧
      (∀ a, t.byte a = if 64 * line ≤ a ∧ a < 64 * line + 64 then BitVec.ofNat 8 (data.toNat / 256 ^ (a - 64 * line))
        else s.byte a) ∧
      ∀ h, s.ctx h ≠ {} → s.thallus.csn + 1 ∈ (t.core (h / 4)).inbox)) ∧
    (s.deviceLine line = true → Comes s (.hostCxlMemRead line) .hostCxlMemRead (fun t => Still s t ∧ t.thallus.csn = s.thallus.csn ∧
      ∃ w, t.out = s.out ++ [.line w] ∧ ∀ i, i < 64 → w.extractLsb' (8 * i) 8 = s.byte (64 * line + i))) ∧
    (s.windowPart t0 k = none ∨ bit (s.slot t0).tencfg 63 = false ∨ s.hub.ready = false ∨ (s.slot t0).flr = true →
      t0 = fn → Comes s (.launchWindowWrite t0 k first ws posted) .launchWindowWrite (fun t => Still s t ∧
        t.out = s.out ++ [answer] ∧ t.agenda = s.agenda)) ∧
    (∀ p, t0 < 16 → k < 4 → s.windowPart t0 k = some p → bit (s.slot t0).tencfg 63 = true → s.hub.ready = true →
      s.hub.stopped = false → (s.slot t0).flr = false →
      (first < 7 → ws.length = 1 → Comes s (.launchWindowWrite t0 k first ws posted) .launchWindowWrite (fun t => Still s t ∧
        t.agenda = s.agenda ∧ tget? (tget [] (t.slot t0).windows k) first = ws[0]?)) ∧
      (first = 0 → ws.length = 8 → Comes s (.launchWindowWrite t0 k first ws posted) .launchWindowWrite (fun t => Still s t ∧
        t.out = s.out ∧ t.agenda = s.agenda ++ [.launchHeaderArrival p ws
          (.window t0 (if t0 = 0 then 0x180000 + 0x100 * k else 0x100 * k) posted)])) ∧
      (first = 7 → ws.length = 1 → (∀ i, i < 7 → thas (tget [] (s.slot t0).windows k) i = true) →
        Comes s (.launchWindowWrite t0 k first ws posted) .launchWindowWrite (fun t => Still s t ∧ ∃ hdr src,
          t.agenda = s.agenda ++ [.launchHeaderArrival p hdr src] ∧ hdr.length = 8 ∧ hdr[7]? = ws[0]? ∧
          ∀ i, i < 7 → hdr[i]? = tget? (tget [] (s.slot t0).windows k) i))) ∧
    (∀ m, msixPart fn off m = false → m ≠ 8 ∨ barLists fn off = false ∨ off % 8 ≠ 0 →
      Comes s (.hostBarInvalidAccess fn off m posted) .hostBarInvalidAccess (fun t =>
      Still s t ∧ t.out = s.out ++ [answer] ∧ (s.hub.stopped = false → s.hub.elog = [] → (s.hub.elogHead + 1) % 256 ≠ s.hub.elogTail →
        ∃ e, tget? t.hub.elog s.hub.elogHead = some e ∧ e.kind = 8 ∧ e.tslot = fn ∧ e.addr = word off ∧ e.count = 1))) ∧
    (∀ m, msixPart fn off m = true ∨ (m = 8 ∧ barLists fn off = true ∧ off % 8 = 0) →
      Comes s (.hostBarInvalidAccess fn off m posted) .hostBarInvalidAccess (Idle s)) ∧
    (n = 0 ∨ 16 ≤ n → Comes s (.vfFunctionLevelReset n) .vfFunctionLevelReset (Idle s)) ∧
    (0 < n → n < 16 →
      let reset (P : State → Prop) : Prop := Comes s (.vfFunctionLevelReset n) .vfFunctionLevelReset P
      (s.flight.copies = [] → s.partsOf n = [] → s.fabric.expw1 = [] → s.ctxs = [] → reset (fun t => Still s t ∧
        (t.slot n).flr = true ∧ (t.slot n).windows = [] ∧ t.timers = s.timers ++ [(s.gtime + 100000000, .vfResetEnd n)])) ∧
      (∀ p d u, s.flight.copies = [] → s.partsOf n = [p] → (s.part p).hubq = [d] → (s.part p).ov = [] → (s.part p).launches = [] →
        s.ctxs = [] → s.fabric.expw1 = [] → hdrSigkind d.words ≠ 2 → hdrCompl d.words ≠ 0 →
        s.partWrite p (hdrCompl d.words) [5, 0, word s.gtime, word s.gtime, 0, word (s.tenantOf d.slot), 0, 1] = some u →
        reset (fun t => (∀ a, t.byte a = u.byte a) ∧ (t.part p).hubq = [] ∧ t.out = s.out)) ∧
      (∀ p slot l h c f, s.flight.copies = [] → s.partsOf n = [p] → (s.part p).hubq = [] → (s.part p).ov = [] → (s.part p).saved = [] →
        slot < 64 → (s.part p).launches = [(slot, l)] → s.ctxs = [(h, c)] → c.firing = some f → f.key = some (64 * p + slot) →
        reset (fun t => (t.ctx h).firing = none ∧ (t.ctx h).st = .free ∧ .launchCompletion p slot ∈ t.agenda ∧
          ∃ m, tget? (t.part p).launches slot = some m ∧ m.force = some 5 ∧ m.silent = true ∧ m.ended = l.ended + 1 ∧ m.hdr = l.hdr)) ∧
      (∀ h c f, s.flight.copies = [] → s.partsOf n = [] → s.ctxs = [(h, c)] → c.firing = some f → f.slot = n → f.owner = none →
        reset (fun t => (t.slot n).flr = true ∧ t.ctx h = { floor := c.floor })) ∧
      (∀ c : Copy, s.flight.copies = [(c.id, c)] → c.slot = n → s.partsOf n = [] → s.ctxs = [] → reset (fun t =>
        (c.checked = true → c.parked = false → s.copyHead (c.h / 4) = some c →
          tget? t.flight.copies c.id = some { c with cancel := true }) ∧
        (c.checked = false → tget? t.flight.copies c.id = none))) ∧
      (∀ w e, s.flight.copies = [] → s.partsOf n = [] → s.ctxs = [] → s.fabric.expw1 = [(w, e)] → reset (fun t =>
        let g := tget 0 t.fabric.expw1 w
        (bits e 27 24 = n → bits g 47 32 = (bits e 47 32 + 1) % 2 ^ 16 ∧ bit g 31 = s.fabric.admits.any (fun p => p.1 = w)) ∧
        (bits e 27 24 ≠ n → g = e)))) ∧
    (∀ p slot l u, tget? (s.part p).launches slot = some l → l.isOver = true → l.force = some 5 → l.silent = true → l.keep = [] →
      0 < l.ended → hdrSigkind l.hdr.words ≠ 2 → hdrCompl l.hdr.words ≠ 0 →
      s.partWrite p (hdrCompl l.hdr.words) [word (l.faults * 2 ^ 32 + 5), word l.halted, word (l.tstart.getD l.tend), word l.tend,
        word l.cycles, word (s.tenantOf l.hdr.slot), 0, 1] = some u →
      Comes s (.launchCompletion p slot) .launchCompletion (fun t => (∀ a, t.byte a = u.byte a) ∧ t.out = s.out ∧
        tget? (t.part p).launches slot = none)) ∧
    ((s.slot n).flr = false → Comes s (.vfResetEnd n) .vfResetEnd (Idle s)) ∧
    ((s.slot n).flr = true → (∀ p ∈ s.partsOf n, ∀ l ∈ (s.part p).launches, l.2.silent = false) →
      Comes s (.vfResetEnd n) .vfResetEnd (fun t => Still s t ∧ t.slot n = { s.slot n with flr := false })) ∧
    Comes s .partitionControllerStep .partitionControllerStep (fun t => Still s t ∧
      (∀ m, m < 16 → (t.slot m).achieved = min (2 ^ 24 - 1) (s.slot m).groupsNow ∧ (t.slot m).groupsNow = 0) ∧
      (∀ m, t.sorus m ≠ s.sorus m → (t.sorus m).leaving = true ∧ (t.sorus m).nvalid = true ∧
        ∀ j, j ≠ m → t.sorus j = s.sorus j))

/-- R401 to R405, R407, R476, R482: a datagram comes in only at a trained port, with a key the port lets pass and this module as its
destination; a window answers a request that its generation, tag, bounds or rights turn away, and carries out any other; a revocation
advances the generation; buckets repay debt, refill and spill over each microsecond; the head request leaves once tokens cover it, by
the route as it then stands; a reply that comes in adds to the debt of the slot whose request it answers, be that complete or not; a
checkpoint starts once, where its import slots and a port suit, with a unit to each port, ends with its last unit, and resends what is
late, at most eight times. The model's choices: that the tag is looked at first, then the generation, then bounds and rights, and the port
that a window's reply takes (log 69); that an atomic on a datum that no core can own is answered DENIED (log 91). -/
def Obligations.FabricTraffic : Prop :=
  ∀ (s : State) (n w unit : Nat) (v : Word) (dg : Datagram) (rq : WinReq),
    let f := s.fabric
    let comes := Comes s (.datagramArrival n dg) .datagramArrival
    let dropped (key : Bool) (t : State) : Prop := Still s t ∧ t.flight = s.flight ∧ t.agenda = s.agenda ∧ t.out = s.out ∧
      (n < 16 → tget 0 t.fabric.keydrop n = (if key then min (2 ^ 32 - 1) (tget 0 f.keydrop n + 1) else tget 0 f.keydrop n) ∧
        tget 0 t.fabric.otherdrop n = if key then tget 0 f.otherdrop n else min (2 ^ 32 - 1) (tget 0 f.otherdrop n + 1))
    let up := n ∈ f.portsUp ∧ 64 + n ∉ f.retrain
    let e0 := tget 0 f.expw0 w
    let e1 := tget 0 f.expw1 w
    let base := bits e0 51 16 * 65536 + rq.off
    let size : Nat := match rq.kind with | .read n => n | .write bs => bs.length | .atomic a _ _ _ _ _ _ _ => if a.narrow then 4 else 8
    let right : Nat := match rq.kind with | .read _ => 0 | .write _ => 1 | .atomic _ _ _ _ _ _ _ _ => 2
    let lets := w < 1024 ∧ bit e1 63 = true ∧ bits e1 59 48 = rq.otag
    let fits := base + size ≤ bits e0 51 16 * 65536 + (bits e0 15 0 + 1) * 65536 ∧ bit e1 right = true
    let ask := Comes s (.exportRequest w rq) .exportRequest
    let replies (code : Nat) (bytes : List Byte) (t : State) : Prop := (∀ h, t.ctx h = s.ctx h) ∧
      ∀ p, s.portFor rq.src 0 0 = some p → s.fabric.retrain.contains (64 + p) = false →
        s.portPasses p (bits (s.slot (bits e1 27 24)).tencfg 59 48) (bits (s.slot (bits e1 27 24)).tencfg 31 0) = true →
        ∃ d, t.out = s.out ++ [.datagram p d] ∧ d.dst = rq.src ∧ d.body = .reply rq.tag code 0 0 bytes
    (¬ up → comes (dropped false)) ∧
    (up → s.portPasses n dg.otag dg.key = false → comes (dropped true)) ∧
    (up → s.portPasses n dg.otag dg.key = true → dg.dst ≠ s.modId → comes (dropped false)) ∧
    (up → s.portPasses n dg.otag dg.key = true → dg.dst = s.modId →
      (∀ x r, dg.body = .request x r → comes (fun t =>
        t = { s with now := none, agenda := s.agenda ++ [.exportRequest x { r with src := dg.src, otag := dg.otag }] })) ∧
      (∀ L ch ws src, dg.body = .message L ch ws src → s.present L = false → comes (dropped false)) ∧
      (∀ L ch ws src p, dg.body = .message L ch ws src → s.present L = true → s.partOf L = some p →
        (bits (s.slot (s.slotOf p)).tencfg 59 48 ≠ dg.otag → comes (dropped false)) ∧
        (bits (s.slot (s.slotOf p)).tencfg 59 48 = dg.otag → comes (fun t => Still s t ∧ ∃ m,
          tget? t.flight.msgs s.flight.ids = some m ∧ m.core = L ∧ m.ch = ch % 16 ∧ m.words = ws ∧
          bits m.srcw 63 48 = dg.src % 2 ^ 16 ∧ bit m.srcw 47 = true))) ∧
      (∀ tag code x e bs m, dg.body = .reply tag code x e bs → tag < 2 ^ 40 → tget? s.flight.sentFor tag = some m → comes (fun t =>
        Still s t ∧ t.slot m = { s.slot m with bdebt := min (2 ^ 24 - 1) ((s.slot m).bdebt + max 1 ((bs.length + 63) / 64)) } ∧
        ∃ r, tget? t.flight.replies s.flight.ids = some r ∧ r.rid = tag ∧ r.code = code ∧ r.v = x ∧ r.epoch = e))) ∧
    (¬ lets → ask (fun t => replies 1 [] t ∧ ∀ a, t.byte a = s.byte a)) ∧
    (lets → bits e1 47 32 ≠ rq.gen → ask (fun t => replies 2 [] t ∧ ∀ a, t.byte a = s.byte a)) ∧
    (lets → bits e1 47 32 = rq.gen → ¬ fits → ask (fun t => replies 1 [] t ∧ ∀ a, t.byte a = s.byte a)) ∧
    (lets → bits e1 47 32 = rq.gen → fits →
      (∀ m, rq.kind = .read m → ask (fun t => (∀ a, t.byte a = s.byte a) ∧
        replies 0 ((List.range m).map (fun i => s.byte (base + i))) t)) ∧
      (∀ bs, rq.kind = .write bs → ask (fun t => replies 0 [] t ∧ ∀ a, t.byte a =
        if base ≤ a ∧ a < base + bs.length then bs.getD (a - base) 0 else s.byte a)) ∧
      (∀ a x y z b c d e L, rq.kind = .atomic a x y z b c d e → s.ownerOf base = some L → ask (fun t => Still s t ∧
        ∃ r, tget? t.flight.rcopies s.flight.ids = some r ∧ r.core = L ∧ r.op = a ∧ r.key = base ∧ r.copyn = d ∧ r.age = e ∧ r.sent = s.gtime ∧
          r.remote = some (rq.src, rq.tag) ∧
          t.agenda = s.agenda ++ [.ownerRequestArrival s.flight.ids])) ∧
      (∀ a x y z b c d e, rq.kind = .atomic a x y z b c d e → s.ownerOf base = none → ask (fun t => replies 1 [] t ∧
        ∀ a, t.byte a = s.byte a))) ∧
    (1024 ≤ w → Comes s (.revoke w) .revoke (Idle s)) ∧
    (w < 1024 → Comes s (.revoke w) .revoke (fun t => Still s t ∧ tget 0 t.fabric.expw0 w = e0 ∧
      bits (tget 0 t.fabric.expw1 w) 47 32 = (bits e1 47 32 + 1) % 2 ^ 16 ∧
      bit (tget 0 t.fabric.expw1 w) 31 = f.admits.any (fun p => p.1 = w) ∧ bit (tget 0 t.fabric.expw1 w) 63 = bit e1 63)) ∧
    Comes s (.revokeDrainEnd w) .revokeDrainEnd (fun t => Still s t ∧
      ((∃ p ∈ f.admits, p.1 = w ∧ p.2.2 ≠ bits e1 47 32) → Idle s t) ∧
      ((∀ p ∈ f.admits, p.1 = w → p.2.2 = bits e1 47 32) → tget 0 t.fabric.expw1 w = setBits e1 31 1 0)) ∧
    Comes s .bucketRefill .bucketRefill (fun t => Still s t ∧ ∀ m, m < 16 →
      let q := s.slot m
      let r := bits q.tbkt 43 24
      let pay := min q.bdebt (r / 2)
      (bit q.tencfg 63 = false → t.slot m = q) ∧
      (bit q.tencfg 63 = true → (t.slot m).bdebt = q.bdebt - pay ∧
        (q.tokens + (r - pay) ≤ bits q.tbkt 63 44 → (t.slot m).tokens = q.tokens + (r - pay)) ∧
        (q.tokens ≤ bits q.tbkt 63 44 → bits q.tbkt 63 44 ≤ q.tokens + (r - pay) → (t.slot m).tokens = bits q.tbkt 63 44))) ∧
    (let q := s.trimmed n
     let head (P : State → Prop) : Prop := Comes s (.headRequestRelease n) .headRequestRelease (fun t => Still s t ∧ P t)
     let waits : Prop := head (fun t => t.out = s.out ∧ t.fabric = f ∧ (t.slot n).queue = q.queue ∧ (t.slot n).tokens = q.tokens ∧
       (t.slot n).stall = true)
     (q.queue = [] → head (fun t => t.out = s.out ∧ t.agenda = s.agenda ∧ t.fabric = f ∧ t.slot n = q)) ∧
     (∀ c fid m x y body rest, q.queue = (c, .datagram fid m x y body) :: rest →
       (∀ p why, s.exitPort n m x y = .error (p, why) → head (fun t => t.out = s.out ∧ t.fabric.spare = f.spare ∧
         (t.slot n).queue = rest ∧ (t.slot n).tokens = q.tokens ∧ (t.slot n).bdebt = q.bdebt)) ∧
       (∀ p, s.exitPort n m x y = .ok p →
         (chargeTokens q f.spare c = none → waits) ∧
         (∀ q' sp, chargeTokens q f.spare c = some (q', sp) → rest = [] → head (fun t => t.fabric.spare = sp ∧
           t.slot n = { q' with queue := [], stall := false } ∧ t.out = s.out ++ [.datagram p
             { dst := m, src := s.modId, otag := bits q.tencfg 59 48, key := bits q.tencfg 31 0, body := body }])))) ∧
     (∀ c who mk rest, q.queue = (c, .turn who mk) :: rest →
       (chargeTokens q f.spare c = none → waits) ∧
       (∀ q' sp, chargeTokens q f.spare c = some (q', sp) → rest = [] → head (fun t => t.out = s.out ∧ t.fabric.spare = sp ∧
         t.slot n = { q' with queue := [], stall := false, granted := q'.granted ++ [(who, mk)] } ∧
         t.agenda = s.agenda ++ [who])))) ∧
    ((s.trimmed n).stall = false ∨ (s.slot n).stallAt ≠ w ∨ s.gtime < w + 10000000 →
      Comes s (.debtstallTimer n w) .debtstallTimer (Idle s)) ∧
    ((s.trimmed n).stall = true → (s.slot n).stallAt = w → w + 10000000 ≤ s.gtime → s.hub.stopped = false → s.hub.elog = [] →
      (s.hub.elogHead + 1) % 256 ≠ s.hub.elogTail → Comes s (.debtstallTimer n w) .debtstallTimer (fun t => Still s t ∧ ∃ e, tget? t.hub.elog s.hub.elogHead = some e ∧
        e.kind = 19 ∧ e.tslot = n ∧ e.detail = word (s.slot n).bdebt)) ∧
    (f.ckstate = 1 → Comes s (.checkpointGo v) .checkpointGo (fun t =>
      t = { s with now := none, fabric := { f with ckcfg := setBits (word (bits v 58 32 * 2 ^ 32)) 63 1 1 } })) ∧
    (f.ckstate ≠ 1 → bit v 63 = false → Comes s (.checkpointGo v) .checkpointGo (fun t =>
      t = { s with now := none, fabric := { f with ckcfg := word (bits v 58 32 * 2 ^ 32) } })) ∧
    (f.ckstate ≠ 1 → bit v 63 = true → 0 < s.capacity → f.portsUp = [] → Comes s (.checkpointGo v) .checkpointGo (fun t =>
      Still s t ∧ t.fabric.ckstate = 3 ∧ t.fabric.ckunits = [] ∧ bit t.fabric.ckcfg 63 = false)) ∧
    (let c := word (bits v 58 32 * 2 ^ 32)
     let u : State := { s with fabric := { f with ckcfg := c, ckrun := c } }
     let units := (s.capacity + 65535) / 65536
     f.ckstate ≠ 1 → bit v 63 = true →
       (u.ckReady = false → Comes s (.checkpointGo v) .checkpointGo (fun t => Still s t ∧ t.fabric.ckstate = 3 ∧
         t.fabric.ckunits = [] ∧ bit t.fabric.ckcfg 63 = false ∧ t.out = s.out)) ∧
       (u.ckReady = true → 0 < s.capacity → Comes s (.checkpointGo v) .checkpointGo (fun t => Still s t ∧ t.fabric.ckstate = 1 ∧
         t.fabric.ckcfg = setBits c 63 1 1 ∧ t.fabric.ckdone = 0 ∧ t.fabric.cknext = min units u.ckPorts.length ∧
         t.fabric.ckunits = ((List.range units).zip u.ckPorts).map (fun p => (p.1, p.2, 0, s.gtime)) ∧
         t.timers = s.timers ++ (List.range (min units u.ckPorts.length)).map (fun k => (s.gtime + 8000, .checkpointResend k)) ∧
         ∀ p ∈ (List.range units).zip u.ckPorts,
           s.portPasses p.2 (bits (s.slot 0).tencfg 59 48) (bits (s.slot 0).tencfg 31 0) = true →
           ∃ d x r, .datagram p.2 d ∈ t.out ∧ d.body = .request x r ∧ r.off = p.1 * 65536 % 2 ^ 32 ∧
             r.kind = .write (cellsAt s.mem (devKey (p.1 * 65536)) 65536)))) ∧
    (f.ckstate ≠ 1 ∨ (∀ u ∈ f.ckunits, u.1 ≠ unit) → Comes s (.checkpointUnitAck unit n) .checkpointUnitAck (Idle s)) ∧
    (f.ckstate = 1 → (∃ u ∈ f.ckunits, u.1 = unit) →
      (n ≠ 0 → Comes s (.checkpointUnitAck unit n) .checkpointUnitAck (fun t => Still s t ∧ t.fabric.ckstate = 3 ∧
        t.fabric.ckunits = [])) ∧
      (s.capacity ≤ (f.ckdone + 1) * 65536 → Comes s (.checkpointUnitAck unit 0) .checkpointUnitAck (fun t => Still s t ∧
        t.fabric.ckstate = 2 ∧ t.fabric.ckdone = f.ckdone + 1)) ∧
      ((f.ckdone + 1) * 65536 < s.capacity → Comes s (.checkpointUnitAck unit 0) .checkpointUnitAck (fun t => Still s t ∧
        t.fabric.ckstate = 1 ∧ t.fabric.ckdone = f.ckdone + 1))) ∧
    (∀ p m at0, f.ckunits.find? (fun u => u.1 = unit) = some (unit, p, m, at0) →
      (f.ckstate ≠ 1 → Comes s (.checkpointResend unit) .checkpointResend (Idle s)) ∧
      (s.gtime < at0 + 8000 → p ∈ s.ckPorts ∨ 8 ≤ m → Comes s (.checkpointResend unit) .checkpointResend (Idle s)) ∧
      (f.ckstate = 1 → m < 8 → p ∉ s.ckPorts → s.ckPorts = [] → Comes s (.checkpointResend unit) .checkpointResend (fun t =>
        t = { s with now := none, timers := s.timers ++ [(s.gtime + 1000, .checkpointResend unit)] })) ∧
      (∀ q qs, f.ckstate = 1 → m < 8 → p ∉ s.ckPorts → s.ckPorts = q :: qs → Comes s (.checkpointResend unit) .checkpointResend (fun t =>
        Still s t ∧ t.fabric.ckstate = 1 ∧ (unit, q, m + 1, s.gtime) ∈ t.fabric.ckunits)) ∧
      (f.ckstate = 1 → at0 + 8000 ≤ s.gtime → 8 ≤ m → Comes s (.checkpointResend unit) .checkpointResend (fun t => Still s t ∧
        t.fabric.ckstate = 3)) ∧
      (f.ckstate = 1 → at0 + 8000 ≤ s.gtime → m < 8 → p ∈ s.ckPorts → Comes s (.checkpointResend unit) .checkpointResend (fun t =>
        Still s t ∧ t.fabric.ckstate = 1 ∧ (unit, p, m + 1, s.gtime) ∈ t.fabric.ckunits ∧
        t.timers = s.timers ++ [(s.gtime + 8000, .checkpointResend unit)]))) ∧
    ((∀ u ∈ f.ckunits, u.1 ≠ unit) → Comes s (.checkpointResend unit) .checkpointResend (Idle s))

/-- R411 to R414, R416 to R418, R420 to R422: a halt stops the sorus and every sorus that one of its channels reaches, and no context
changes; a resume undoes it, what the halt has held back in an interface reaches its context (R412), and a pre-emption request that it has
held takes effect; a step lets one Running context of a halted sorus issue once; a SYNC record, where none of a setpoint boundary falls
together with it on the core's copy of the time, moves the offset of the next one, to 0 at the end of a ring that goes round; a period of
the router grid stores its slot, the time, the flits counted and the sequence number, and no byte outside the slot differs. That a ring
begins anew at offset 0 is log 20, and that the slot of a period is stored at its boundary is log 77: the model's choices. -/
def Obligations.DebugAndTrace : Prop :=
  ∀ (s : State) (n : Nat),
    let x := s.sx n
    let h := 64 * n + bits x.dbgsel 5 0
    let slots := bits s.fabric.rgcfg 11 4
    let p := s.gtime / 10000
    let together : Bool := x.syncAt.any (fun b => b ≤ s.localTime (16 * n) && s.localTime (16 * n) < b + 1000)
    let base := bits s.fabric.rgcfg 51 12 * 4096 + 0x8000 * (p % slots)
    (x.halted = true → Comes s (.debugHalt n) .debugHalt (Idle s)) ∧
    (x.halted = false → Comes s (.debugHalt n) .debugHalt (fun t => (∀ g, t.ctx g = s.ctx g) ∧ (t.sx n).halted = true ∧
      (∀ m, (s.sx m).halted = true → (t.sx m).halted = true) ∧
      (∀ m, (s.sx m).xin &&& x.xout ≠ 0 → (t.sx m).halted = true) ∧
      ((∀ m, (s.sx m).xin &&& x.xout = 0) → ∀ m, m ≠ n → (t.sx m).halted = (s.sx m).halted) ∧
      ((∀ m, bits (s.sx m).trsize 19 0 = 0) → ∀ a, t.byte a = s.byte a))) ∧
    (x.halted = false → Comes s (.debugResume n) .debugResume (Idle s)) ∧
    (x.halted = true → Comes s (.debugResume n) .debugResume (fun t => (∀ a, t.byte a = s.byte a) ∧
      ((∀ q ∈ s.ctxs, q.1 / 64 = n → (s.aux q.1).preqs = []) → (∀ c, c < 64 → (s.aux (64 * n + c)).inq = []) → ∀ g, t.ctx g = s.ctx g) ∧
      (∀ g c, s.ctxs.filter (fun q => q.1 / 64 == n) = [(g, c)] → (s.aux g).preqs ≠ [] → (s.aux g).fence = none → c.st = .running →
        (∀ c, c < 64 → (s.aux (64 * n + c)).inq = []) → t.ctx g = { c with st := .draining }) ∧
      (∀ g w, g / 64 = n → (∀ q ∈ s.ctxs, q.1 / 64 = n → (s.aux q.1).preqs = []) → Waits s g w → (s.aux g).inq = [.wake] →
        (∀ c, c < 64 → 64 * n + c ≠ g → (s.aux (64 * n + c)).inq = []) →
        t.ctx g = { s.ctx g with st := .running, wait := .none, waitOk := false } ∧ (t.aux g).inq = []) ∧
      t.sx n = { x with halted := false } ∧ ∀ m, m ≠ n → t.sx m = s.sx m)) ∧
    (x.halted = false ∨ (s.ctx h).st ≠ .running → Comes s (.debugStep n) .debugStep (Idle s)) ∧
    (x.halted = true → (s.ctx h).st = .running → Comes s (.debugStep n) .debugStep (fun t => Still s t ∧
      t.script = .issue (h / 4) :: s.script ∧ t.sx n = { x with stepping := some h } ∧ ∀ m, m ≠ n → t.sx m = s.sx m)) ∧
    ((∀ c, c < 64 → (s.aux (64 * n + c)).trace = false) ∨ x.halted = true ∨ bits x.trsize 19 0 = 0 ∨
      together = true → Comes s (.syncPeriod n) .syncPeriod (Idle s)) ∧
    (∀ c, c < 16 → x.halted = false → together = false → (∀ d, d < 16 → d ≠ c → ∀ i, i < 4 → (s.aux (64 * n + 4 * d + i)).trace = false) →
      (∃ i, i < 4 ∧ (s.aux (64 * n + 4 * c + i)).trace = true) → 0 < bits x.trsize 19 0 → x.troff + 16 ≤ bits x.trsize 19 0 * 4096 →
      Comes s (.syncPeriod n) .syncPeriod (fun t => (∀ g, t.ctx g = s.ctx g) ∧
        (t.sx n).troff = (if x.troff + 16 = bits x.trsize 19 0 * 4096 ∧ bit x.trbase 0 = false then 0 else x.troff + 16) ∧
        (let a := bits x.trbase 51 12 * 4096 + x.troff
         t.readNat (a + 8) 8 = (word (s.localTime (16 * n + c))).toNat ∧ ∀ b, b < a ∨ a + 16 ≤ b → t.byte b = s.byte b))) ∧
    (slots = 0 ∨ s.gtime = 0 → Comes s .routerGridPeriod .routerGridPeriod (fun t =>
      t = { s with now := none, fabric := { s.fabric with grid := [] } })) ∧
    (0 < slots → 10000 ≤ s.gtime → s.gtime < 2 ^ 64 → Comes s .routerGridPeriod .routerGridPeriod (fun t =>
      (∀ g, t.ctx g = s.ctx g) ∧ t.fabric.rgseq = p ∧ t.readNat base 8 = p ∧ t.readNat (base + 8) 8 = s.gtime ∧ t.fabric.grid = [] ∧
      (∀ i, i < 3200 → t.readNat (base + 64 + 8 * i) 4 = tget 0 s.fabric.grid i % 2 ^ 32) ∧ ∀ a, a < base ∨ base + 64 + 25600 ≤ a → t.byte a = s.byte a))

/-- R60 to R66, R70, R71, R73, R74: the sample takes each sorus's largest request, under the cap of its slot; a boundary first takes the
writes of PPOOL that waited, gives no sorus more than it asks for, nor lets it fall by more than one level where it still asks, and
records who pays; every 100 ns the duty falls toward its target as far as the power then falls by no more than SLOPE, and where the work's
own power would fall further, ballast holds the power at the bound, for 2 µs at most, and is charged; the controller takes the mean of the
tenths, integrates the error, and sets the target within its bounds, a rise at once; the head burst is admitted when the test holds, and
its context goes on, but in a pause of its clock the grant waits in the interface (R58); ballast ends. The power of the work at a duty is a
free value (log 8). The tenths of R74, at multiples of 100 ns, and what ballast makes up in them are log 55, and the payer of a level is
log 61: the model's choices. -/
def Obligations.PowerManagement : Prop :=
  ∀ (s : State) (n h id : Nat),
    let cap (t : State) (m : Nat) : Nat := match s.ownerSlot m with | some q => (t.slot q).lcap | none => 0
    let x := s.sorus n
    let pool (m : Nat) : Slot := (s.slot m).ppend.foldl Slot.setPool (s.slot m)
    Comes s .boostRequestSample .boostRequestSample (fun t => Still s t ∧ t.slots = s.slots ∧
      ∀ m, m < 160 → (t.sorus m).rreq ≤ cap t m ∧ (t.sorus m).level = (s.sorus m).level ∧
        (∀ g, g / 64 = m → (s.ctx g).firing ≠ none → min (s.aux g).req (cap t m) ≤ (t.sorus m).rreq) ∧
        ((∀ p ∈ s.ctxs, p.1 / 64 = m → p.2.firing = none) → (t.sorus m).rreq = 0 ∧ (t.sorus m).rpri = 0)) ∧
    (NoTrace s → (∀ m, (s.sorus m).rpri ≤ 7) → Comes s .permitBoundary .permitBoundary (fun t => Still s t ∧
      (∀ m, m < 16 → (t.slot m).ppend = [] ∧ (t.slot m).lcap = (pool m).lcap ∧ (t.slot m).cap = (pool m).cap) ∧ ∀ m, m < 160 →
      let y := s.sorus m
      let want := match s.ownerSlot m with | some q => min y.rreq (pool q).lcap | none => 0
      let prev := if y.newTenant then 0 else y.level
      (t.sorus m).level ≤ want ∧ min want (prev - 1) ≤ (t.sorus m).level ∧ (t.sorus m).payer = s.ownerSlot m ∧
      (t.sorus m).newTenant = false ∧ (bits s.hub.mpwrcfg 54 42 < 72 → (t.sorus m).level ≤ prev - 1))) ∧
    ((∀ m, (s.sorus m).admq = []) → Comes s .controllerStep .controllerStep (fun t => Still s t ∧ ∀ m, m < 160 →
      let y := s.sorus m
      let z := t.sorus m
      let step := powerStep y.pwrcfg (t.budget m) (y.drawSum / 10) y.integ
      z.pest = y.drawSum / 10 ∧ z.drawSum = 0 ∧ z.draw = y.draw ∧ z.ballast = y.ballast ∧
      z.ballastSum = (if s.gtime % 10000 = 0 then 0 else y.ballastSum) ∧
      z.ballastCharge = (if s.gtime % 10000 = 0 then y.ballastSum / 100 else y.ballastCharge) ∧
      z.integ = step.1 ∧ z.target = step.2 ∧ z.duty = max y.duty step.2 ∧ z.rsum = 0 ∧ z.level = y.level ∧
      16 ≤ z.target ∧ z.target ≤ 256 ∧ z.integ ≤ 1048576)) ∧
    (∀ ts, s.script = .tick 1 :: ts → s.agenda = [] → s.running = true → (s.gtime + 1) % 100 = 0 → ∃ t, step s = .next t ∧
      t.gtime = s.gtime + 1 ∧ ∀ m, m < 160 →
      let y := s.sorus m
      let z := t.sorus m
      let own (d : Nat) : Nat := Config.powerEstimate m t.gtime d % 4096
      let slope := bits s.hub.mpwrcfg 23 16
      z.target = y.target ∧ z.pest = y.pest ∧ z.level = y.level ∧
      (y.duty ≤ y.target → z.duty = y.duty) ∧ (y.target ≤ y.duty → y.target ≤ z.duty ∧ z.duty ≤ y.duty) ∧
      (z.duty < y.duty → y.draw ≤ own z.duty + slope) ∧ (∀ d, y.target ≤ d → d < z.duty → own d + slope < y.draw) ∧
      (z.ballast = true ↔ own z.duty + slope < y.draw ∧ (y.ballast = true → t.gtime < y.ballastAt + 2000)) ∧
      z.draw = (if z.ballast then y.draw - slope else own z.duty) ∧ z.drawSum = y.drawSum + z.draw ∧
      z.ballastSum = y.ballastSum + (z.draw - own z.duty) ∧
      (z.ballast = true → y.ballast = false → z.ballastAt = t.gtime ∧ (t.gtime + 2000, .ballastLimit m) ∈ t.timers)) ∧
    ((∀ r, (s.sorus (h / 64)).admq.head? = some r → r.at' + 10 < s.gtime) ∨ s.admits (h / 64) = false →
      Comes s (.admissionRequest h) .admissionRequest (Idle s)) ∧
    (∀ at0, (s.sorus (h / 64)).admq = [AdmReq.mk h id at0] → s.gtime ≤ at0 + 10 → s.admits (h / 64) = true → (s.ctx h).wait = .admission →
      Comes s (.admissionRequest h) .admissionRequest (fun t => OthersStill s t h ∧ (∀ a, t.byte a = s.byte a) ∧
        (s.paused (h / 64) = true → t.ctx h = s.ctx h ∧ (t.aux h).inq = (s.aux h).inq ++ [.letIn]) ∧
        (s.paused (h / 64) = false → t.ctx h = { s.ctx h with
          st := if (s.aux h).preqs.isEmpty || (s.sx (h / 64)).halted then .running else .draining, wait := .none, waitOk := false }) ∧
        t.sorus (h / 64) = { s.sorus (h / 64) with
          rsum := (s.sorus (h / 64)).rsum + 20, admitted := (s.sorus (h / 64)).admitted + 1, admq := [] } ∧
        ∀ u ∈ (t.core (h / 4)).matq, u.id = id → u.admitted = true)) ∧
    (s.gtime < x.ballastAt + 2000 → Comes s (.ballastLimit n) .ballastLimit (Idle s)) ∧
    (x.ballastAt + 2000 ≤ s.gtime → Comes s (.ballastLimit n) .ballastLimit (fun t => Still s t ∧
      t.sorus n = { x with ballast := false } ∧ ∀ m, m ≠ n → t.sorus m = s.sorus m))

/-- R427, R428, R438 to R440, R446, R450, R452, R453, R461, R480: a trap that waited is taken once nothing is uncommitted; the error
interrupt, an engine page fault and COPYLATE are taken between instructions; a detection timer that is due while every firing of its
launch still waits ends a launch that can never go on with DEADLOCK, and kills a firing in a wait that only its own launch can end,
but takes no effect while a clock of theirs is paused (R468); a corrected error is logged where the log has room; the source of a copy with
an error ends it with ABORT and sets EI; a datum or a cache entry with an error becomes an abort or is dropped with its epoch. In a pause of
the clock an entry waits (R49). The model's choices: a trap of an ordered task waits until the task could commit (log 102); the kill that a
load with an error brings, and that an error in the range of a result cache clears all of it, are log 72; a firing that stalls on a combine
for ever counts with those that wait (log 86); the address of a copy's EI is the one that the copy gives (log 106). -/
def Obligations.FaultsAndErrors : Prop :=
  ∀ (s : State) (h : Nat) (f : Firing) (int : Bool) (c : Nat) (v : Word),
    let k := s.ctx h
    let plain := k.firing = some f ∧ f.rtc = false ∧ f.order = none
    let runs := s.paused (h / 64) = false
    let around (t : State) : Prop := OthersStill s t h ∧ ∀ a, t.byte a = s.byte a
    (s.paused (h / 64) = true →
      Comes s (.trapEntry h int c v) .trapEntry (fun t => t = { s with now := none, timers := s.timers ++ [(s.gtime + 1, .trapEntry h int c v)] }) ∧
      Comes s (.interruptEntry h) .interruptEntry (fun t => t = { s with now := none, timers := s.timers ++ [(s.gtime + 1, .interruptEntry h)] }) ∧
      Comes s (.enginePageFault h) .enginePageFault (fun t =>
        t = { s with now := none, timers := s.timers ++ [(s.gtime + 1, .enginePageFault h)] })) ∧
    (k.trapReq = some { int := int, cause := c, val := v } → runs →
      (k.clean = false → plain ∨ k.older ≠ none ∨ s.taskReady h = false → Comes s (.trapEntry h int c v) .trapEntry (Idle s)) ∧
      (k.firing = some f → f.order ≠ none → k.older = none → k.clean = true ∨ s.taskReady h = true → Comes s (.trapEntry h int c v) .trapEntry (fun t =>
        t.ctx h = { floor := k.floor })) ∧
      (plain → k.clean = true → (int = true ∨ c ≠ 28) → HasHandler s h int c → Comes s (.trapEntry h int c v) .trapEntry (fun t =>
        Trapped s t h int c v ∧ (t.ctx h).trapReq = none ∧ around t))) ∧
    (∀ vs, plain → runs → k.clean = true → s.ownLevel h = true → (s.aux h).lates = v :: vs → HasHandler s h false 30 →
      Comes s (.trapEntry h false 30 v) .trapEntry (fun t => Trapped s t h false 30 v ∧ (t.aux h).lates = vs ∧ around t)) ∧
    (runs → s.eiDue h = false → Comes s (.interruptEntry h) .interruptEntry (Idle s)) ∧
    (plain → runs → s.eiDue h = true → k.clean = true → HasHandler s h true 9 → Comes s (.interruptEntry h) .interruptEntry (fun t =>
      Trapped s t h true 9 (s.aux h).eiVal ∧ (t.ctx h).sys.pendEi = false ∧ around t)) ∧
    (runs → s.ownLevel h = false ∨ (s.aux h).faults = [] → Comes s (.enginePageFault h) .enginePageFault (Idle s)) ∧
    (∀ e es, let code := if e.store then 15 else 13
      plain → runs → s.ownLevel h = true → k.clean = true → (s.aux h).faults = e :: es → HasHandler s h false code →
      Comes s (.enginePageFault h) .enginePageFault (fun t => Trapped s t h false code e.va ∧ (t.aux h).faults = es ∧ around t)) ∧
    (∀ p slot due, slot < 64 →
      let timer := Comes s (.detectionTimerExpiry p slot due) .detectionTimerExpiry
      (tget? (s.part p).launches slot = none → timer (Idle s)) ∧
      (∀ l, tget? (s.part p).launches slot = some l →
        let l0 := { l with dlDue := none, dlLeft := none }
        let u := ({ s with now := none }).setLaunch (64 * p + slot) l0
        (l.dlDue ≠ some due ∨ s.gtime < due → timer (Idle s)) ∧
        (l.dlDue = some due → due ≤ s.gtime →
          (u.allStuck (64 * p + slot) = false → timer (fun t => t = u)) ∧
          (u.allStuck (64 * p + slot) = true → s.launchPaused (64 * p + slot) = true → timer (fun t => ∃ ts,
            t = { s with now := none, timers := ts })) ∧
          (s.launchPaused (64 * p + slot) = false → l.pending = true → u.allStuck (64 * p + slot) = true → u.nextPlaces p slot l0 l0.trial = none →
            hdrFlag l.hdr.words 3 = true → hdrFlag l.hdr.words 2 = false → s.ctxs = [(h, k)] → k.firing = some f →
            f.key = some (64 * p + slot) → l.keep = [] → (s.part p).saved = [] →
            timer (fun t => t.ctx h = { floor := k.floor } ∧ .launchCompletion p slot ∈ t.agenda ∧
              ∃ m, tget? (t.part p).launches slot = some m ∧ m.force = some 2 ∧ m.ended = l.ended + 1)) ∧
          (l.pending = true → u.nextPlaces p slot l0 l0.trial ≠ none → timer (fun t => Still s t ∧
            (tget? (t.part p).launches slot).map (·.force) = some l.force)) ∧
          (s.launchPaused (64 * p + slot) = false → l.pending = false → u.allStuck (64 * p + slot) = true → s.launchHarts (64 * p + slot) = [h] → k.firing = some f →
            k.wait.own = true ∨ u.crzStalled (64 * p + slot) h = true → (s.part p).saved = [] →
            timer (fun t => t.ctx h = { floor := k.floor }))))) ∧
    (let err (e : ErrSite) := Comes s (.uncorrectableError e) .uncorrectableError
     (s.hub.stopped = false → s.hub.elog = [] → (s.hub.elogHead + 1) % 256 ≠ s.hub.elogTail → err (.corrected h v.toNat) (fun t => Still s t ∧ t.cores = s.cores ∧
       ∃ e, tget? t.hub.elog s.hub.elogHead = some e ∧ e.kind = 1 ∧ e.core = h ∧ e.addr = v ∧ e.count = 1)) ∧
     (k.firing = none → err (.load h v) (Idle s)) ∧
     (k.firing = some f → err (.load h v) (fun t => t.ctx h = { floor := k.floor })) ∧
     (∀ a, s.copyHead h = none → err (.copySource h a) (Idle s)) ∧
     (∀ a q, s.copyHead h = some q → q.checked = false ∨ q.parked = true ∨ q.made ≠ none ∨ q.reads a = false →
       err (.copySource h a) (Idle s)) ∧
     (∀ a q, s.copyHead h = some q → q.checked = true → q.parked = false → q.made = none → q.reads a = true → q.follow = none →
       err (.copySource h a) (fun t => (∀ b, t.byte b = s.byte b) ∧ tget? t.flight.copies q.id = none ∧
         ∀ g, s.hartOf q.fid = some g → s.paused (g / 64) = false → (s.ctx g).sys.pendEi = false → (t.ctx g).sys.pendEi = true ∧
           (t.aux g).eiVal = word (2 * 2 ^ 60 + (if q.sp false = 3 then 0 else a) % 2 ^ 60))) ∧
     ((s.core h).matq = [] → err (.tile h c) (Idle s)) ∧
     (∀ r, tget? s.flight.rcopies h = some r → err (.datum h) (fun t => (∀ b, t.byte b = s.byte b) ∧
       tget? t.flight.rcopies h = some { r with abort := true } ∧
       let serves (p : Nat × Ctx) : Bool := p.2.firing.any (fun f => f.owner = some h)
       (s.ctxs.find? serves = none → ∀ g, t.ctx g = s.ctx g) ∧
       (∀ g d, s.ctxs.find? serves = some (g, d) → OthersStill s t g ∧ (t.ctx g).young.wbuf = [] ∧ ∀ o, (t.ctx g).older = some o → o.wbuf = []))) ∧
     (c < (s.sorus h).cache.length → err (.cacheEntry h c) (fun t => Still s t ∧
       (t.sorus h).cache = (s.sorus h).cache.eraseIdx c ∧ (t.sorus h).epoch = nextEpoch (s.sorus h).epoch ∧
       (t.sorus h).epochAt = s.gtime)) ∧
     ((s.sorus h).cache.length ≤ c → err (.cacheEntry h c) (Idle s)) ∧
     (h < 160 → err (.cacheRange h) (fun t => Still s t ∧ (t.sorus h).cache = [] ∧ (t.sorus h).floors = [] ∧
       (t.sorus h).epoch = nextEpoch (s.sorus h).epoch)) ∧
     (160 ≤ h → err (.cacheRange h) (Idle s)))

/-- R262 to R264: an accepted scan starts its pattern once the four contexts of its core are Free, ends with DRAINTO where that has not
come within 1 ms, and else after 200,000 ns with the result of the signature, written behind its descriptor; a core that failed is
held, another returns to service. The signature is a free value (log 8); that a context which is reserved stays so is the model's choice
(log 85). -/
def Obligations.ScanTests : Prop :=
  ∀ (s : State) (L sid : Nat) (k : Scan),
    let free := ∀ c, c < 4 → (s.ctx (4 * L + c)).st = .free
    let ends (r : Nat) (obs : Nat) (t : State) : Prop :=
      t.readNat (k.key + 16) 8 = obs ∧ t.readNat (k.key + 24) 8 = r * 2 ^ 61 + s.gtime % 2 ^ 61 ∧
      tget? t.flight.scans sid = some { k with state := 3, result := r, hold := r = 2 } ∧
      (t.core k.core).test = (if r = 2 then .held else .none) ∧ (∀ g, g / 4 ≠ k.core → t.ctx g = s.ctx g)
    let obs := Config.scanSignature k.pat L s.gtime
    let emptied (g : Nat) : Ctx :=
      { st := if (s.ctx g).st = .reserved then .reserved else .free, resv := (s.ctx g).resv, floor := (s.ctx g).floor }
    (s.scanOn L = none → Comes s (.scanDrainEnd L) .scanDrainEnd (Idle s)) ∧
    (s.scanOn L = some (sid, k) →
      (k.state ≠ 1 ∨ ¬ free → Comes s (.scanDrainEnd L) .scanDrainEnd (Idle s)) ∧
      (k.state = 1 → free → Comes s (.scanDrainEnd L) .scanDrainEnd (fun t => Still s t ∧
        tget? t.flight.scans sid = some { k with state := 2, since := s.gtime } ∧ (t.core L).test = .running ∧
        t.timers = s.timers ++ [(s.gtime + 200000, .scanPatternEnd L sid)]))) ∧
    (tget? s.flight.scans sid = none → Comes s (.scanDrainTimeout L sid) .scanDrainTimeout (Idle s) ∧
      Comes s (.scanPatternEnd L sid) .scanPatternEnd (Idle s)) ∧
    (tget? s.flight.scans sid = some k →
      (k.state ≠ 1 → Comes s (.scanDrainTimeout L sid) .scanDrainTimeout (Idle s)) ∧
      (k.state = 1 → Comes s (.scanDrainTimeout L sid) .scanDrainTimeout (ends 5 0)) ∧
      (k.state ≠ 2 → Comes s (.scanPatternEnd L sid) .scanPatternEnd (Idle s)) ∧
      (k.state = 2 → pausedIn (s.sx (L / 16)).clk k.since s.gtime = true →
        Comes s (.scanPatternEnd L sid) .scanPatternEnd (ends 4 0)) ∧
      (k.state = 2 → pausedIn (s.sx (L / 16)).clk k.since s.gtime = false →
        Comes s (.scanPatternEnd L sid) .scanPatternEnd (ends (if obs = k.expect then 1 else 2) obs.toNat))) ∧
    ((s.core L).test = .none ∨ s.scanOn L ≠ none → Comes s (.returnToService L) .returnToService (Idle s)) ∧
    ((s.core L).test ≠ .none → s.scanOn L = none → Comes s (.returnToService L) .returnToService (fun t =>
      (t.core L).test = .none ∧ (∀ g, g / 4 ≠ L → t.ctx g = s.ctx g) ∧
      (∀ g, g / 4 = L → (s.ctx g).firing = none → t.ctx g = emptied g) ∧
      ∀ x, x < spadKey L 0 ∨ spadKey L 0x50000 ≤ x → x < accKey L 0 ∨ accKey L 0x10000 ≤ x → t.byte x = s.byte x))

/-! ### Encodings, the step, reset, memory -/

/-- R216, R244, R231, R441: what a step adds around `exec`. With nothing due, the context whose turn it is fetches the four bytes at its
pc; the instruction they decode to is executed, a word that is none takes ILLEGAL with the word as its value, a fetch that faults takes
its cause with the pc; a used turn passes on; what is due comes first, and before all else what comes at a time of its own (R408). That the
turns of the surroundings come before what is due, and that before the context's issue, is log 7; that a step with a context number that no
context has stops with noSuchContext is log 80: the model's choices. -/
def Obligations.StepRunsTheDecodedInstruction : Prop :=
  ∀ (s : State) (f : Firing) (i : Instr) (e : Event) (es : List Event) (ts : List Turn),
    let c := s.hart
    let untimed := s.agenda.find? Event.onTime = none
    let ready := s.script = [] ∧ s.agenda = [] ∧ s.spent = false ∧ s.cur < 10240
    let issues := c.firing = some f ∧ s.runnable s.cur = true ∧ c.st = .running ∧ c.sync = false ∧ c.trapReq = none ∧
      c.young.ended = false ∧ f.inject = false ∧ f.owner = none ∧ (s.aux s.cur).fence = none ∧ s.sendStalls f = false ∧ s.eiDue s.cur = false ∧
      (s.aux s.cur).faults = [] ∧ (s.aux s.cur).lates = [] ∧ (f.rtc = true → c.retiredNow < 256)
    let bytes (p : Place) : List Byte := [s.byte p.key, s.byte (p.key + 1), s.byte (p.key + 2), s.byte (p.key + 3)]
    (ready → s.preIssue = .go i → step s = exec i s) ∧
    (∀ p, ready → issues → s.resolve s.cur .fetch c.pc = .ok p → tget? (s.core s.lcore).icache p.key = none →
      (decode (bytes p) = .ok (i, []) → (∀ r ∈ c.pend, usesAny i [r.reg] = false) → step s = exec i s) ∧
      (∀ w x, bytes p = [w.extractLsb' 0 8, w.extractLsb' 8 8, w.extractLsb' 16 8, w.extractLsb' 24 8] →
        decodeWord w = .error x → step s = .next (s.raise 2 (word w.toNat)))) ∧
    (∀ n, ready → issues → s.resolve s.cur .fetch c.pc = .error n → step s = .next (s.raiseAt n c.pc)) ∧
    (ready → c.firing = none → step s = .next s.giveUp) ∧
    (s.script = [] → s.agenda = [] → s.spent = true → step s = .next s.timeStep) ∧
    (s.agenda.find? Event.onTime = some e → ({ s with agenda := s.agenda.eraseP Event.onTime }).lets e = true →
      step s = exec e.instr { s with agenda := s.agenda.eraseP Event.onTime, now := some e }) ∧
    (untimed → s.script = [] → s.agenda = e :: es → ({ s with agenda := es }).lets e = true →
      step s = exec e.instr { s with agenda := es, now := some e }) ∧
    (untimed → s.script = .event e :: ts → ({ s with script := ts }).lets e = true →
      step s = exec e.instr { s with script := ts, now := some e }) ∧
    (s.script = [] → s.agenda = [] → s.spent = false → 10240 ≤ s.cur → step s = .fault .noSuchContext)

/-- Words written out from the encoding tables (R217, R218, R223 to R230), with the two that the spec itself writes out, and words that
it lists as no instruction (R231). -/
def Obligations.EncodingsDecode : Prop :=
  decodeWord 0x9A0A418B = .ok (.vfma 2 .f32 3 4 5) ∧ decodeWord 0xA800105B = .ok (.fenceX 1 0) ∧
  decodeWord 0b11111111111100110000001010010011 = .ok (.addi 5 6 0xFFF) ∧
  decodeWord 0b01000000100101000000001110110011 = .ok (.sub 7 8 9) ∧
  decodeWord 0b11111110001100100011110000100011 = .ok (.sd 3 4 0xFF8) ∧
  decodeWord (0b00000#5 ++ 0b01010#5 ++ 3#5 ++ 6#5 ++ 5#5 ++ 0b0001011#7) = .ok (.vadd 2 .i32 5 6 3) ∧
  decodeWord (0b00000#5 ++ 0b01110#5 ++ 12#5 ++ 11#5 ++ 10#5 ++ 0b0101011#7) = .ok (.mma .bf16bf16 10 11 12) ∧
  decodeWord (0b01010#5 ++ 0#5 ++ 0#5 ++ 9#5 ++ 3#5 ++ 0b0101011#7) = .ok (.qbind 3 9) ∧
  decodeWord (0b00000#5 ++ 0b10101#5 ++ 14#5 ++ 13#5 ++ 12#5 ++ 0b1011011#7) = .ok (.send true 5 12 13 14) ∧
  decodeWord (0b00111#5 ++ 0b10000#5 ++ 4#5 ++ 3#5 ++ 0#5 ++ 0b1011011#7) = .ok (.rmadd true 0 4 3) ∧
  decodeWord (0b00000#5 ++ 0#5 ++ 0#5 ++ 5#5 ++ 0#5 ++ 0b1111011#7) = .ok (.waitC 5) ∧
  decodeWord 0x00000073 = .ok .ecall ∧ decodeWord 0x00100073 = .ok .ebreak ∧
  (∀ w ∈ ([0x00000000, 0xFFFFFFFF, 0x00300073, 0x30200073, 0x0000100F, 0xA800505B] : List (BitVec 32)), ∀ i, decodeWord w ≠ .ok i)

/-- Decoding the word that the encoder gives a well-formed instruction gives the instruction back, with every operand at every value. -/
def Obligations.DecodeOfEncode : Prop := ∀ (i : Instr) (w : BitVec 32), encode i = some w → decodeWord w = .ok i

/-- R38, R40, R51, R68, R69, R71, R76, R80 to R82, R86, R88, R176, R416, R426, R437, R461: what reset leaves: phase 0, the counters at
0, every context Free, the handler tables, the trap registers, the power registers, the format registers. What the spec gives no reset
value is the model's choice (log 1, log 2, log 79): a register is 0 before a firing holds the context, memory that nothing has
written reads 0, and the raw rail is at its nominal 780 mV. -/
def Obligations.ResetLeaves : Prop :=
  let s := State.reset
  s.hub.phase = 0 ∧ s.hub.ready = false ∧ s.hub.go = false ∧ s.hub.stopped = false ∧ s.hub.raw = 780 ∧ s.hub.dltime = 100 ∧
  s.gtime = 0 ∧ s.running = false ∧ s.script = [] ∧ s.agenda = [] ∧ s.timers = [] ∧ s.out = [] ∧ s.mstat = 0 ∧
  (bits s.hub.mpwrcfg 54 42 = 6000 ∧ bits s.hub.mpwrcfg 41 32 = 40 ∧ bits s.hub.mpwrcfg 31 24 = 8 ∧ bits s.hub.mpwrcfg 23 16 = 64) ∧
  (∀ h, (s.ctx h).st = .free ∧ (s.ctx h).firing = none ∧ (s.ctx h).sys.status = 0 ∧ (s.ctx h).sys.mepc = 0 ∧ (s.ctx h).sys.mcause = 0 ∧
    (s.ctx h).sys.mtval = 0 ∧ (s.ctx h).sys.sepc = 0 ∧ (s.ctx h).sys.scause = 0 ∧ (s.ctx h).sys.stval = 0) ∧
  (∀ L, (s.core L).chmask = 0xFFFE ∧ (s.core L).last = 15 ∧ (s.core L).stvec = 0 ∧ (s.core L).mtvec = 0 ∧ (s.core L).medeleg = 0 ∧
    (s.core L).mideleg = 0 ∧ (s.core L).fmt = [] ∧ (s.core L).finj = 0 ∧ (s.core L).entry 0 = 0 ∧
    ∀ n, 0 < n → n < 16 → bits ((s.core L).entry n) 57 52 = 1 ∧ bit ((s.core L).entry n) 61 = true ∧
      bit ((s.core L).entry n) 62 = decide (n = 1) ∧ bit ((s.core L).entry n) 63 = false) ∧
  (∀ n, bits (s.sorus n).pwrcfg 27 20 = 16 ∧ bits (s.sorus n).pwrcfg 19 12 = 64 ∧ bits (s.sorus n).pwrcfg 11 0 = 416 ∧
    (s.sorus n).duty = 256 ∧ (s.sorus n).pest = 0 ∧ (s.sorus n).integ = 1048576 ∧ (s.sorus n).epoch = 1 ∧ (s.sorus n).pvalid = false ∧
    (s.sorus n).level = 0 ∧ (s.sx n).halted = false) ∧
  (∀ n, (s.part n).ptroot = 0 ∧ (s.part n).lqcfg = 0 ∧ (s.slot n).tencfg = 0 ∧ (s.slot n).tallot = 0) ∧
  (∀ h r, (s.ctx h).regs.getX r = 0 ∧ (s.ctx h).regs.getV r = 0 ∧ (s.ctx h).regs.getA r = 0) ∧ ∀ a, s.byte a = 0

/-- Every step keeps the canonical form of memory: the keys of the list rise, and it lists no byte that is what an unlisted key reads
as. -/
def Obligations.MemoryStaysCanonical : Prop :=
  ∀ s t : State, Memory.wf s.mem = true → step s = .next t → Memory.wf t.mem = true

/-- Reset memory has the canonical form. -/
def Obligations.ResetMemoryCanonical : Prop := Memory.wf State.reset.mem = true ∧ State.reset.mem = []

end
end

