-- ==== Sys2Proof/Laws/Arms.lean ====
section
/-! SUPPORT. The arm of each constructor: what `exec` calls. -/

namespace Sys2Proof.Machine

section
variable (s : State)

@[simp] theorem exec_lb (rd rs : Reg) (imm : BitVec 12) : exec (.lb rd rs imm) s = execLb rd rs imm s := rfl
@[simp] theorem exec_lh (rd rs : Reg) (imm : BitVec 12) : exec (.lh rd rs imm) s = execLh rd rs imm s := rfl
@[simp] theorem exec_lw (rd rs : Reg) (imm : BitVec 12) : exec (.lw rd rs imm) s = execLw rd rs imm s := rfl
@[simp] theorem exec_ld (rd rs : Reg) (imm : BitVec 12) : exec (.ld rd rs imm) s = execLd rd rs imm s := rfl
@[simp] theorem exec_lbu (rd rs : Reg) (imm : BitVec 12) : exec (.lbu rd rs imm) s = execLbu rd rs imm s := rfl
@[simp] theorem exec_lhu (rd rs : Reg) (imm : BitVec 12) : exec (.lhu rd rs imm) s = execLhu rd rs imm s := rfl
@[simp] theorem exec_lwu (rd rs : Reg) (imm : BitVec 12) : exec (.lwu rd rs imm) s = execLwu rd rs imm s := rfl
@[simp] theorem exec_sb (rt rs : Reg) (imm : BitVec 12) : exec (.sb rt rs imm) s = execSb rt rs imm s := rfl
@[simp] theorem exec_sh (rt rs : Reg) (imm : BitVec 12) : exec (.sh rt rs imm) s = execSh rt rs imm s := rfl
@[simp] theorem exec_sw (rt rs : Reg) (imm : BitVec 12) : exec (.sw rt rs imm) s = execSw rt rs imm s := rfl
@[simp] theorem exec_sd (rt rs : Reg) (imm : BitVec 12) : exec (.sd rt rs imm) s = execSd rt rs imm s := rfl
@[simp] theorem exec_beq (rs rt : Reg) (imm : BitVec 12) : exec (.beq rs rt imm) s = execBeq rs rt imm s := rfl
@[simp] theorem exec_bne (rs rt : Reg) (imm : BitVec 12) : exec (.bne rs rt imm) s = execBne rs rt imm s := rfl
@[simp] theorem exec_blt (rs rt : Reg) (imm : BitVec 12) : exec (.blt rs rt imm) s = execBlt rs rt imm s := rfl
@[simp] theorem exec_bge (rs rt : Reg) (imm : BitVec 12) : exec (.bge rs rt imm) s = execBge rs rt imm s := rfl
@[simp] theorem exec_bltu (rs rt : Reg) (imm : BitVec 12) : exec (.bltu rs rt imm) s = execBltu rs rt imm s := rfl
@[simp] theorem exec_bgeu (rs rt : Reg) (imm : BitVec 12) : exec (.bgeu rs rt imm) s = execBgeu rs rt imm s := rfl
@[simp] theorem exec_jalr (rd rs : Reg) (imm : BitVec 12) : exec (.jalr rd rs imm) s = execJalr rd rs imm s := rfl
@[simp] theorem exec_jal (rd : Reg) (imm : BitVec 20) : exec (.jal rd imm) s = execJal rd imm s := rfl
@[simp] theorem exec_lui (rd : Reg) (imm : BitVec 20) : exec (.lui rd imm) s = execLui rd imm s := rfl
@[simp] theorem exec_auipc (rd : Reg) (imm : BitVec 20) : exec (.auipc rd imm) s = execAuipc rd imm s := rfl
@[simp] theorem exec_addi (rd rs : Reg) (imm : BitVec 12) : exec (.addi rd rs imm) s = execAddi rd rs imm s := rfl
@[simp] theorem exec_slti (rd rs : Reg) (imm : BitVec 12) : exec (.slti rd rs imm) s = execSlti rd rs imm s := rfl
@[simp] theorem exec_sltiu (rd rs : Reg) (imm : BitVec 12) : exec (.sltiu rd rs imm) s = execSltiu rd rs imm s := rfl
@[simp] theorem exec_xori (rd rs : Reg) (imm : BitVec 12) : exec (.xori rd rs imm) s = execXori rd rs imm s := rfl
@[simp] theorem exec_ori (rd rs : Reg) (imm : BitVec 12) : exec (.ori rd rs imm) s = execOri rd rs imm s := rfl
@[simp] theorem exec_andi (rd rs : Reg) (imm : BitVec 12) : exec (.andi rd rs imm) s = execAndi rd rs imm s := rfl
@[simp] theorem exec_slli (rd rs : Reg) (sh : BitVec 6) : exec (.slli rd rs sh) s = execSlli rd rs sh s := rfl
@[simp] theorem exec_srli (rd rs : Reg) (sh : BitVec 6) : exec (.srli rd rs sh) s = execSrli rd rs sh s := rfl
@[simp] theorem exec_srai (rd rs : Reg) (sh : BitVec 6) : exec (.srai rd rs sh) s = execSrai rd rs sh s := rfl
@[simp] theorem exec_addiw (rd rs : Reg) (imm : BitVec 12) : exec (.addiw rd rs imm) s = execAddiw rd rs imm s := rfl
@[simp] theorem exec_slliw (rd rs : Reg) (sh : BitVec 5) : exec (.slliw rd rs sh) s = execSlliw rd rs sh s := rfl
@[simp] theorem exec_srliw (rd rs : Reg) (sh : BitVec 5) : exec (.srliw rd rs sh) s = execSrliw rd rs sh s := rfl
@[simp] theorem exec_sraiw (rd rs : Reg) (sh : BitVec 5) : exec (.sraiw rd rs sh) s = execSraiw rd rs sh s := rfl
@[simp] theorem exec_add (rd rs rt : Reg) : exec (.add rd rs rt) s = execAdd rd rs rt s := rfl
@[simp] theorem exec_sll (rd rs rt : Reg) : exec (.sll rd rs rt) s = execSll rd rs rt s := rfl
@[simp] theorem exec_slt (rd rs rt : Reg) : exec (.slt rd rs rt) s = execSlt rd rs rt s := rfl
@[simp] theorem exec_sltu (rd rs rt : Reg) : exec (.sltu rd rs rt) s = execSltu rd rs rt s := rfl
@[simp] theorem exec_xor (rd rs rt : Reg) : exec (.xor rd rs rt) s = execXor rd rs rt s := rfl
@[simp] theorem exec_srl (rd rs rt : Reg) : exec (.srl rd rs rt) s = execSrl rd rs rt s := rfl
@[simp] theorem exec_or (rd rs rt : Reg) : exec (.or rd rs rt) s = execOr rd rs rt s := rfl
@[simp] theorem exec_and (rd rs rt : Reg) : exec (.and rd rs rt) s = execAnd rd rs rt s := rfl
@[simp] theorem exec_sub (rd rs rt : Reg) : exec (.sub rd rs rt) s = execSub rd rs rt s := rfl
@[simp] theorem exec_sra (rd rs rt : Reg) : exec (.sra rd rs rt) s = execSra rd rs rt s := rfl
@[simp] theorem exec_mul (rd rs rt : Reg) : exec (.mul rd rs rt) s = execMul rd rs rt s := rfl
@[simp] theorem exec_mulh (rd rs rt : Reg) : exec (.mulh rd rs rt) s = execMulh rd rs rt s := rfl
@[simp] theorem exec_mulhsu (rd rs rt : Reg) : exec (.mulhsu rd rs rt) s = execMulhsu rd rs rt s := rfl
@[simp] theorem exec_mulhu (rd rs rt : Reg) : exec (.mulhu rd rs rt) s = execMulhu rd rs rt s := rfl
@[simp] theorem exec_div (rd rs rt : Reg) : exec (.div rd rs rt) s = execDiv rd rs rt s := rfl
@[simp] theorem exec_divu (rd rs rt : Reg) : exec (.divu rd rs rt) s = execDivu rd rs rt s := rfl
@[simp] theorem exec_rem (rd rs rt : Reg) : exec (.rem rd rs rt) s = execRem rd rs rt s := rfl
@[simp] theorem exec_remu (rd rs rt : Reg) : exec (.remu rd rs rt) s = execRemu rd rs rt s := rfl
@[simp] theorem exec_addw (rd rs rt : Reg) : exec (.addw rd rs rt) s = execAddw rd rs rt s := rfl
@[simp] theorem exec_sllw (rd rs rt : Reg) : exec (.sllw rd rs rt) s = execSllw rd rs rt s := rfl
@[simp] theorem exec_srlw (rd rs rt : Reg) : exec (.srlw rd rs rt) s = execSrlw rd rs rt s := rfl
@[simp] theorem exec_subw (rd rs rt : Reg) : exec (.subw rd rs rt) s = execSubw rd rs rt s := rfl
@[simp] theorem exec_sraw (rd rs rt : Reg) : exec (.sraw rd rs rt) s = execSraw rd rs rt s := rfl
@[simp] theorem exec_mulw (rd rs rt : Reg) : exec (.mulw rd rs rt) s = execMulw rd rs rt s := rfl
@[simp] theorem exec_divw (rd rs rt : Reg) : exec (.divw rd rs rt) s = execDivw rd rs rt s := rfl
@[simp] theorem exec_divuw (rd rs rt : Reg) : exec (.divuw rd rs rt) s = execDivuw rd rs rt s := rfl
@[simp] theorem exec_remw (rd rs rt : Reg) : exec (.remw rd rs rt) s = execRemw rd rs rt s := rfl
@[simp] theorem exec_remuw (rd rs rt : Reg) : exec (.remuw rd rs rt) s = execRemuw rd rs rt s := rfl
@[simp] theorem exec_fence (fm pred succ : BitVec 4) (rs rd : Reg) : exec (.fence fm pred succ rs rd) s = execFence fm pred succ rs rd s := rfl
@[simp] theorem exec_ecall : exec .ecall s = execEcall s := rfl
@[simp] theorem exec_ebreak : exec .ebreak s = execEbreak s := rfl
@[simp] theorem exec_csrrw (rd : Reg) (csr : BitVec 12) (rs : Reg) : exec (.csrrw rd csr rs) s = execCsrrw rd csr rs s := rfl
@[simp] theorem exec_csrrs (rd : Reg) (csr : BitVec 12) (rs : Reg) : exec (.csrrs rd csr rs) s = execCsrrs rd csr rs s := rfl
@[simp] theorem exec_csrrc (rd : Reg) (csr : BitVec 12) (rs : Reg) : exec (.csrrc rd csr rs) s = execCsrrc rd csr rs s := rfl
@[simp] theorem exec_csrrwi (rd : Reg) (csr : BitVec 12) (u : BitVec 5) : exec (.csrrwi rd csr u) s = execCsrrwi rd csr u s := rfl
@[simp] theorem exec_csrrsi (rd : Reg) (csr : BitVec 12) (u : BitVec 5) : exec (.csrrsi rd csr u) s = execCsrrsi rd csr u s := rfl
@[simp] theorem exec_csrrci (rd : Reg) (csr : BitVec 12) (u : BitVec 5) : exec (.csrrci rd csr u) s = execCsrrci rd csr u s := rfl
@[simp] theorem exec_vadd (g : Reg3) (ty : ITy) (vd va vb : Reg) : exec (.vadd g ty vd va vb) s = execVadd g ty vd va vb s := rfl
@[simp] theorem exec_vsub (g : Reg3) (ty : ITy) (vd va vb : Reg) : exec (.vsub g ty vd va vb) s = execVsub g ty vd va vb s := rfl
@[simp] theorem exec_vmul (g : Reg3) (ty : ITy) (vd va vb : Reg) : exec (.vmul g ty vd va vb) s = execVmul g ty vd va vb s := rfl
@[simp] theorem exec_vsel (g : Reg3) (ty : ITy) (vd va vb : Reg) : exec (.vsel g ty vd va vb) s = execVsel g ty vd va vb s := rfl
@[simp] theorem exec_vsadd (g : Reg3) (ty : ITy) (vd va vb : Reg) : exec (.vsadd g ty vd va vb) s = execVsadd g ty vd va vb s := rfl
@[simp] theorem exec_vssub (g : Reg3) (ty : ITy) (vd va vb : Reg) : exec (.vssub g ty vd va vb) s = execVssub g ty vd va vb s := rfl
@[simp] theorem exec_vmin (g : Reg3) (ty : ITy) (vd va vb : Reg) : exec (.vmin g ty vd va vb) s = execVmin g ty vd va vb s := rfl
@[simp] theorem exec_vmax (g : Reg3) (ty : ITy) (vd va vb : Reg) : exec (.vmax g ty vd va vb) s = execVmax g ty vd va vb s := rfl
@[simp] theorem exec_vminu (g : Reg3) (ty : ITy) (vd va vb : Reg) : exec (.vminu g ty vd va vb) s = execVminu g ty vd va vb s := rfl
@[simp] theorem exec_vmaxu (g : Reg3) (ty : ITy) (vd va vb : Reg) : exec (.vmaxu g ty vd va vb) s = execVmaxu g ty vd va vb s := rfl
@[simp] theorem exec_vand (g : Reg3) (ty : ITy) (vd va vb : Reg) : exec (.vand g ty vd va vb) s = execVand g ty vd va vb s := rfl
@[simp] theorem exec_vor (g : Reg3) (ty : ITy) (vd va vb : Reg) : exec (.vor g ty vd va vb) s = execVor g ty vd va vb s := rfl
@[simp] theorem exec_vxor (g : Reg3) (ty : ITy) (vd va vb : Reg) : exec (.vxor g ty vd va vb) s = execVxor g ty vd va vb s := rfl
@[simp] theorem exec_vsll (g : Reg3) (ty : ITy) (vd va vb : Reg) : exec (.vsll g ty vd va vb) s = execVsll g ty vd va vb s := rfl
@[simp] theorem exec_vsrl (g : Reg3) (ty : ITy) (vd va vb : Reg) : exec (.vsrl g ty vd va vb) s = execVsrl g ty vd va vb s := rfl
@[simp] theorem exec_vsra (g : Reg3) (ty : ITy) (vd va vb : Reg) : exec (.vsra g ty vd va vb) s = execVsra g ty vd va vb s := rfl
@[simp] theorem exec_vfadd (g : Reg3) (ty : FTy) (vd va vb : Reg) : exec (.vfadd g ty vd va vb) s = execVfadd g ty vd va vb s := rfl
@[simp] theorem exec_vfsub (g : Reg3) (ty : FTy) (vd va vb : Reg) : exec (.vfsub g ty vd va vb) s = execVfsub g ty vd va vb s := rfl
@[simp] theorem exec_vfmul (g : Reg3) (ty : FTy) (vd va vb : Reg) : exec (.vfmul g ty vd va vb) s = execVfmul g ty vd va vb s := rfl
@[simp] theorem exec_vfma (g : Reg3) (ty : FTy) (vd va vb : Reg) : exec (.vfma g ty vd va vb) s = execVfma g ty vd va vb s := rfl
@[simp] theorem exec_vfmin (g : Reg3) (ty : FTy) (vd va vb : Reg) : exec (.vfmin g ty vd va vb) s = execVfmin g ty vd va vb s := rfl
@[simp] theorem exec_vfmax (g : Reg3) (ty : FTy) (vd va vb : Reg) : exec (.vfmax g ty vd va vb) s = execVfmax g ty vd va vb s := rfl
@[simp] theorem exec_vfdiv (g : Reg3) (ty : FTy) (vd va vb : Reg) : exec (.vfdiv g ty vd va vb) s = execVfdiv g ty vd va vb s := rfl
@[simp] theorem exec_vfexp2 (g : Reg3) (ty : FTy) (vd va : Reg) : exec (.vfexp2 g ty vd va) s = execVfexp2 g ty vd va s := rfl
@[simp] theorem exec_vflog2 (g : Reg3) (ty : FTy) (vd va : Reg) : exec (.vflog2 g ty vd va) s = execVflog2 g ty vd va s := rfl
@[simp] theorem exec_vfrcp (g : Reg3) (ty : FTy) (vd va : Reg) : exec (.vfrcp g ty vd va) s = execVfrcp g ty vd va s := rfl
@[simp] theorem exec_vfrsqrt (g : Reg3) (ty : FTy) (vd va : Reg) : exec (.vfrsqrt g ty vd va) s = execVfrsqrt g ty vd va s := rfl
@[simp] theorem exec_vfsqrt (g : Reg3) (ty : FTy) (vd va : Reg) : exec (.vfsqrt g ty vd va) s = execVfsqrt g ty vd va s := rfl
@[simp] theorem exec_vftanh (g : Reg3) (ty : FTy) (vd va : Reg) : exec (.vftanh g ty vd va) s = execVftanh g ty vd va s := rfl
@[simp] theorem exec_vfsig (g : Reg3) (ty : FTy) (vd va : Reg) : exec (.vfsig g ty vd va) s = execVfsig g ty vd va s := rfl
@[simp] theorem exec_vferf (g : Reg3) (ty : FTy) (vd va : Reg) : exec (.vferf g ty vd va) s = execVferf g ty vd va s := rfl
@[simp] theorem exec_vcmpeq (g : Reg3) (ty : ITy) (pd : Reg3) (va vb : Reg) : exec (.vcmpeq g ty pd va vb) s = execVcmpeq g ty pd va vb s := rfl
@[simp] theorem exec_vcmplt (g : Reg3) (ty : ITy) (pd : Reg3) (va vb : Reg) : exec (.vcmplt g ty pd va vb) s = execVcmplt g ty pd va vb s := rfl
@[simp] theorem exec_vcmple (g : Reg3) (ty : ITy) (pd : Reg3) (va vb : Reg) : exec (.vcmple g ty pd va vb) s = execVcmple g ty pd va vb s := rfl
@[simp] theorem exec_vcmpltu (g : Reg3) (ty : ITy) (pd : Reg3) (va vb : Reg) : exec (.vcmpltu g ty pd va vb) s = execVcmpltu g ty pd va vb s := rfl
@[simp] theorem exec_vfcmpeq (g : Reg3) (ty : FTy) (pd : Reg3) (va vb : Reg) : exec (.vfcmpeq g ty pd va vb) s = execVfcmpeq g ty pd va vb s := rfl
@[simp] theorem exec_vfcmplt (g : Reg3) (ty : FTy) (pd : Reg3) (va vb : Reg) : exec (.vfcmplt g ty pd va vb) s = execVfcmplt g ty pd va vb s := rfl
@[simp] theorem exec_vfcmple (g : Reg3) (ty : FTy) (pd : Reg3) (va vb : Reg) : exec (.vfcmple g ty pd va vb) s = execVfcmple g ty pd va vb s := rfl
@[simp] theorem exec_vfcmpun (g : Reg3) (ty : FTy) (pd : Reg3) (va vb : Reg) : exec (.vfcmpun g ty pd va vb) s = execVfcmpun g ty pd va vb s := rfl
@[simp] theorem exec_vmacc (ty : MacTy) (ad : Reg3) (va vb : Reg) : exec (.vmacc ty ad va vb) s = execVmacc ty ad va vb s := rfl
@[simp] theorem exec_vdot2 (ty : Dot2Ty) (ad : Reg3) (va vb : Reg) : exec (.vdot2 ty ad va vb) s = execVdot2 ty ad va vb s := rfl
@[simp] theorem exec_vdot4 (ty : Dot4Ty) (ad : Reg3) (va vb : Reg) : exec (.vdot4 ty ad va vb) s = execVdot4 ty ad va vb s := rfl
@[simp] theorem exec_vnarrow (ty : Ty3) (sat : Bool) (vd : Reg) (aa : Reg3) : exec (.vnarrow ty sat vd aa) s = execVnarrow ty sat vd aa s := rfl
@[simp] theorem exec_accz (ad : Reg3) : exec (.accz ad) s = execAccz ad s := rfl
@[simp] theorem exec_accst (sa : Reg3) (xb : Reg) : exec (.accst sa xb) s = execAccst sa xb s := rfl
@[simp] theorem exec_accld (ad : Reg3) (xb : Reg) : exec (.accld ad xb) s = execAccld ad xb s := rfl
@[simp] theorem exec_vxchg (vd va : Reg) : exec (.vxchg vd va) s = execVxchg vd va s := rfl
@[simp] theorem exec_vld (g : Reg3) (vd xb : Reg) : exec (.vld g vd xb) s = execVld g vd xb s := rfl
@[simp] theorem exec_vst (g : Reg3) (vd xb : Reg) : exec (.vst g vd xb) s = execVst g vd xb s := rfl
@[simp] theorem exec_vlds (g : Reg3) (vd xb xs : Reg) : exec (.vlds g vd xb xs) s = execVlds g vd xb xs s := rfl
@[simp] theorem exec_vsts (g : Reg3) (vd xb xs : Reg) : exec (.vsts g vd xb xs) s = execVsts g vd xb xs s := rfl
@[simp] theorem exec_vldx (g : Reg3) (vd xb vi : Reg) : exec (.vldx g vd xb vi) s = execVldx g vd xb vi s := rfl
@[simp] theorem exec_vstx (g : Reg3) (vd xb vi : Reg) : exec (.vstx g vd xb vi) s = execVstx g vd xb vi s := rfl
@[simp] theorem exec_vldf (g : Reg3) (ty : FTy) (vd xb : Reg) : exec (.vldf g ty vd xb) s = execVldf g ty vd xb s := rfl
@[simp] theorem exec_pand (pd pa pb : Reg3) : exec (.pand pd pa pb) s = execPand pd pa pb s := rfl
@[simp] theorem exec_por (pd pa pb : Reg3) : exec (.por pd pa pb) s = execPor pd pa pb s := rfl
@[simp] theorem exec_pxor (pd pa pb : Reg3) : exec (.pxor pd pa pb) s = execPxor pd pa pb s := rfl
@[simp] theorem exec_pandn (pd pa pb : Reg3) : exec (.pandn pd pa pb) s = execPandn pd pa pb s := rfl
@[simp] theorem exec_pnot (pd pa : Reg3) : exec (.pnot pd pa) s = execPnot pd pa s := rfl
@[simp] theorem exec_pcnt (xd : Reg) (pa : Reg3) : exec (.pcnt xd pa) s = execPcnt xd pa s := rfl
@[simp] theorem exec_pfirst (xd : Reg) (pa : Reg3) : exec (.pfirst xd pa) s = execPfirst xd pa s := rfl
@[simp] theorem exec_plt (pd : Reg3) (xs : Reg) : exec (.plt pd xs) s = execPlt pd xs s := rfl
@[simp] theorem exec_vredsum (ty : ITy) (xd va : Reg) : exec (.vredsum ty xd va) s = execVredsum ty xd va s := rfl
@[simp] theorem exec_vredmax (ty : ITy) (xd va : Reg) : exec (.vredmax ty xd va) s = execVredmax ty xd va s := rfl
@[simp] theorem exec_vredmin (ty : ITy) (xd va : Reg) : exec (.vredmin ty xd va) s = execVredmin ty xd va s := rfl
@[simp] theorem exec_vfredsum (ty : FTy) (xd va : Reg) : exec (.vfredsum ty xd va) s = execVfredsum ty xd va s := rfl
@[simp] theorem exec_vfredmax (ty : FTy) (xd va : Reg) : exec (.vfredmax ty xd va) s = execVfredmax ty xd va s := rfl
@[simp] theorem exec_vfredmin (ty : FTy) (xd va : Reg) : exec (.vfredmin ty xd va) s = execVfredmin ty xd va s := rfl
@[simp] theorem exec_vslideup (vd va xn : Reg) : exec (.vslideup vd va xn) s = execVslideup vd va xn s := rfl
@[simp] theorem exec_vslidedn (vd va xn : Reg) : exec (.vslidedn vd va xn) s = execVslidedn vd va xn s := rfl
@[simp] theorem exec_vperm (vd va vi : Reg) : exec (.vperm vd va vi) s = execVperm vd va vi s := rfl
@[simp] theorem exec_vbcast (k : BcastW) (vd xs : Reg) : exec (.vbcast k vd xs) s = execVbcast k vd xs s := rfl
@[simp] theorem exec_vget (xd va xi : Reg) : exec (.vget xd va xi) s = execVget xd va xi s := rfl
@[simp] theorem exec_vset (vd xv xi : Reg) : exec (.vset vd xv xi) s = execVset vd xv xi s := rfl
@[simp] theorem exec_vcvt (tyd : Ty3) (mode : RMode) (tys : Ty3) (sat : Bool) (vd vs : Reg) : exec (.vcvt tyd mode tys sat vd vs) s = execVcvt tyd mode tys sat vd vs s := rfl
@[simp] theorem exec_mma (pair : Pair) (xc xa xb : Reg) : exec (.mma pair xc xa xb) s = execMma pair xc xa xb s := rfl
@[simp] theorem exec_mmav (pair : Pair) (xc xa xb : Reg) : exec (.mmav pair xc xa xb) s = execMmav pair xc xa xb s := rfl
@[simp] theorem exec_mmat (pair : Pair) (xc xa xb : Reg) : exec (.mmat pair xc xa xb) s = execMmat pair xc xa xb s := rfl
@[simp] theorem exec_aclr (xs : Reg) : exec (.aclr xs) s = execAclr xs s := rfl
@[simp] theorem exec_anarrow (ty : Ty3) (mode : RMode) (sat : Bool) (xm xg : Reg) : exec (.anarrow ty mode sat xm xg) s = execAnarrow ty mode sat xm xg s := rfl
@[simp] theorem exec_ald (xg xm : Reg) : exec (.ald xg xm) s = execAld xg xm s := rfl
@[simp] theorem exec_ast (xg xm : Reg) : exec (.ast xg xm) s = execAst xg xm s := rfl
@[simp] theorem exec_amovv (vd xg : Reg) : exec (.amovv vd xg) s = execAmovv vd xg s := rfl
@[simp] theorem exec_amova (xg vb : Reg) : exec (.amova xg vb) s = execAmova xg vb s := rfl
@[simp] theorem exec_unfcfg (xs : Reg) : exec (.unfcfg xs) s = execUnfcfg xs s := rfl
@[simp] theorem exec_qbind (q : Reg3) (xs : Reg) : exec (.qbind q xs) s = execQbind q xs s := rfl
@[simp] theorem exec_qunbind (q : Reg3) : exec (.qunbind q) s = execQunbind q s := rfl
@[simp] theorem exec_qld (vd : Reg) (q : Reg3) : exec (.qld vd q) s = execQld vd q s := rfl
@[simp] theorem exec_qst (q : Reg3) (vb : Reg) : exec (.qst q vb) s = execQst q vb s := rfl
@[simp] theorem exec_qldx (xd : Reg) (q : Reg3) : exec (.qldx xd q) s = execQldx xd q s := rfl
@[simp] theorem exec_qstx (q : Reg3) (xs : Reg) : exec (.qstx q xs) s = execQstx q xs s := rfl
@[simp] theorem exec_qpos (xd : Reg) (q : Reg3) : exec (.qpos xd q) s = execQpos xd q s := rfl
@[simp] theorem exec_qflush (q : Reg3) : exec (.qflush q) s = execQflush q s := rfl
@[simp] theorem exec_cpyGo (xd xp : Reg) : exec (.cpyGo xd xp) s = execCpyGo xd xp s := rfl
@[simp] theorem exec_cpyGoM (xd xp xr : Reg) : exec (.cpyGoM xd xp xr) s = execCpyGoM xd xp xr s := rfl
@[simp] theorem exec_cpyCancel (xn : Reg) : exec (.cpyCancel xn) s = execCpyCancel xn s := rfl
@[simp] theorem exec_cpyProg (xd xn : Reg) : exec (.cpyProg xd xn) s = execCpyProg xd xn s := rfl
@[simp] theorem exec_waitc (nl ns nc nt : BitVec 5) : exec (.waitc nl ns nc nt) s = execWaitc nl ns nc nt s := rfl
@[simp] theorem exec_ascale (xg xs : Reg) : exec (.ascale xg xs) s = execAscale xg xs s := rfl
@[simp] theorem exec_send (c : Bool) (ch : BitVec 4) (xt xw0 xw1 : Reg) : exec (.send c ch xt xw0 xw1) s = execSend c ch xt xw0 xw1 s := rfl
@[simp] theorem exec_sendv (c : Bool) (ch : BitVec 4) (xt xn vb : Reg) : exec (.sendv c ch xt xn vb) s = execSendv c ch xt xn vb s := rfl
@[simp] theorem exec_reply (xw0 xw1 : Reg) : exec (.reply xw0 xw1) s = execReply xw0 xw1 s := rfl
@[simp] theorem exec_msgrd (xd : Reg) : exec (.msgrd xd) s = execMsgrd xd s := rfl
@[simp] theorem exec_msgsrc (xd : Reg) : exec (.msgsrc xd) s = execMsgsrc xd s := rfl
@[simp] theorem exec_chon (ch : BitVec 4) : exec (.chon ch) s = execChon ch s := rfl
@[simp] theorem exec_choff (ch : BitVec 4) : exec (.choff ch) s = execChoff ch s := rfl
@[simp] theorem exec_rmadd (nr : Bool) (xd xv xa : Reg) : exec (.rmadd nr xd xv xa) s = execRmadd nr xd xv xa s := rfl
@[simp] theorem exec_rmand (nr : Bool) (xd xv xa : Reg) : exec (.rmand nr xd xv xa) s = execRmand nr xd xv xa s := rfl
@[simp] theorem exec_rmor (nr : Bool) (xd xv xa : Reg) : exec (.rmor nr xd xv xa) s = execRmor nr xd xv xa s := rfl
@[simp] theorem exec_rmxor (nr : Bool) (xd xv xa : Reg) : exec (.rmxor nr xd xv xa) s = execRmxor nr xd xv xa s := rfl
@[simp] theorem exec_rmmin (nr : Bool) (xd xv xa : Reg) : exec (.rmmin nr xd xv xa) s = execRmmin nr xd xv xa s := rfl
@[simp] theorem exec_rmmax (nr : Bool) (xd xv xa : Reg) : exec (.rmmax nr xd xv xa) s = execRmmax nr xd xv xa s := rfl
@[simp] theorem exec_rmminu (nr : Bool) (xd xv xa : Reg) : exec (.rmminu nr xd xv xa) s = execRmminu nr xd xv xa s := rfl
@[simp] theorem exec_rmmaxu (nr : Bool) (xd xv xa : Reg) : exec (.rmmaxu nr xd xv xa) s = execRmmaxu nr xd xv xa s := rfl
@[simp] theorem exec_rmswap (nr : Bool) (xd xv xa : Reg) : exec (.rmswap nr xd xv xa) s = execRmswap nr xd xv xa s := rfl
@[simp] theorem exec_rmcas (nr : Bool) (xd xv xa : Reg) : exec (.rmcas nr xd xv xa) s = execRmcas nr xd xv xa s := rfl
@[simp] theorem exec_rmaddI32 (nr : Bool) (xd xv xa : Reg) : exec (.rmaddI32 nr xd xv xa) s = execRmaddI32 nr xd xv xa s := rfl
@[simp] theorem exec_rmandI32 (nr : Bool) (xd xv xa : Reg) : exec (.rmandI32 nr xd xv xa) s = execRmandI32 nr xd xv xa s := rfl
@[simp] theorem exec_rmorI32 (nr : Bool) (xd xv xa : Reg) : exec (.rmorI32 nr xd xv xa) s = execRmorI32 nr xd xv xa s := rfl
@[simp] theorem exec_rmxorI32 (nr : Bool) (xd xv xa : Reg) : exec (.rmxorI32 nr xd xv xa) s = execRmxorI32 nr xd xv xa s := rfl
@[simp] theorem exec_rmminI32 (nr : Bool) (xd xv xa : Reg) : exec (.rmminI32 nr xd xv xa) s = execRmminI32 nr xd xv xa s := rfl
@[simp] theorem exec_rmmaxI32 (nr : Bool) (xd xv xa : Reg) : exec (.rmmaxI32 nr xd xv xa) s = execRmmaxI32 nr xd xv xa s := rfl
@[simp] theorem exec_rmminuI32 (nr : Bool) (xd xv xa : Reg) : exec (.rmminuI32 nr xd xv xa) s = execRmminuI32 nr xd xv xa s := rfl
@[simp] theorem exec_rmmaxuI32 (nr : Bool) (xd xv xa : Reg) : exec (.rmmaxuI32 nr xd xv xa) s = execRmmaxuI32 nr xd xv xa s := rfl
@[simp] theorem exec_rmswapI32 (nr : Bool) (xd xv xa : Reg) : exec (.rmswapI32 nr xd xv xa) s = execRmswapI32 nr xd xv xa s := rfl
@[simp] theorem exec_rmcasI32 (nr : Bool) (xd xv xa : Reg) : exec (.rmcasI32 nr xd xv xa) s = execRmcasI32 nr xd xv xa s := rfl
@[simp] theorem exec_rmfadd (nr : Bool) (xd xv xa : Reg) : exec (.rmfadd nr xd xv xa) s = execRmfadd nr xd xv xa s := rfl
@[simp] theorem exec_rmfmin (nr : Bool) (xd xv xa : Reg) : exec (.rmfmin nr xd xv xa) s = execRmfmin nr xd xv xa s := rfl
@[simp] theorem exec_rmfmax (nr : Bool) (xd xv xa : Reg) : exec (.rmfmax nr xd xv xa) s = execRmfmax nr xd xv xa s := rfl
@[simp] theorem exec_logapp (xa xv : Reg) : exec (.logapp xa xv) s = execLogapp xa xv s := rfl
@[simp] theorem exec_logmrg (xd xa : Reg) : exec (.logmrg xd xa) s = execLogmrg xd xa s := rfl
@[simp] theorem exec_tktget (xd xa : Reg) : exec (.tktget xd xa) s = execTktget xd xa s := rfl
@[simp] theorem exec_tktwait (xa xv : Reg) : exec (.tktwait xa xv) s = execTktwait xa xv s := rfl
@[simp] theorem exec_tktadv (xa : Reg) : exec (.tktadv xa) s = execTktadv xa s := rfl
@[simp] theorem exec_bararr (xa xv : Reg) : exec (.bararr xa xv) s = execBararr xa xv s := rfl
@[simp] theorem exec_barwait (xd xa : Reg) : exec (.barwait xd xa) s = execBarwait xd xa s := rfl
@[simp] theorem exec_gbar (xd : Reg) : exec (.gbar xd) s = execGbar xd s := rfl
@[simp] theorem exec_lbar (xd xa : Reg) : exec (.lbar xd xa) s = execLbar xd xa s := rfl
@[simp] theorem exec_chunkend : exec .chunkend s = execChunkend s := rfl
@[simp] theorem exec_otdecl (xd xa xv : Reg) : exec (.otdecl xd xa xv) s = execOtdecl xd xa xv s := rfl
@[simp] theorem exec_launch (xd xa : Reg) : exec (.launch xd xa) s = execLaunch xd xa s := rfl
@[simp] theorem exec_fenceX (a b : BitVec 5) : exec (.fenceX a b) s = execFenceX a b s := rfl
@[simp] theorem exec_crzsendAdd (xa xo : Reg) : exec (.crzsendAdd xa xo) s = execCrzsendAdd xa xo s := rfl
@[simp] theorem exec_crzsendMax (xa xo : Reg) : exec (.crzsendMax xa xo) s = execCrzsendMax xa xo s := rfl
@[simp] theorem exec_crzsendMin (xa xo : Reg) : exec (.crzsendMin xa xo) s = execCrzsendMin xa xo s := rfl
@[simp] theorem exec_crzsendAnd (xa xo : Reg) : exec (.crzsendAnd xa xo) s = execCrzsendAnd xa xo s := rfl
@[simp] theorem exec_crzsendOr (xa xo : Reg) : exec (.crzsendOr xa xo) s = execCrzsendOr xa xo s := rfl
@[simp] theorem exec_crzsendXor (xa xo : Reg) : exec (.crzsendXor xa xo) s = execCrzsendXor xa xo s := rfl
@[simp] theorem exec_crzsendBadd (xa xo : Reg) : exec (.crzsendBadd xa xo) s = execCrzsendBadd xa xo s := rfl
@[simp] theorem exec_crzrecv (xd xa : Reg) : exec (.crzrecv xd xa) s = execCrzrecv xd xa s := rfl
@[simp] theorem exec_halt : exec .halt s = execHalt s := rfl
@[simp] theorem exec_haltR (xm xn : Reg) : exec (.haltR xm xn) s = execHaltR xm xn s := rfl
@[simp] theorem exec_waitC (xs : Reg) : exec (.waitC xs) s = execWaitC xs s := rfl
@[simp] theorem exec_waitT (xs : Reg) : exec (.waitT xs) s = execWaitT xs s := rfl
@[simp] theorem exec_waitTr (xs : Reg) : exec (.waitTr xs) s = execWaitTr xs s := rfl
@[simp] theorem exec_breq (prio : BitVec 3) (level : BitVec 2) : exec (.breq prio level) s = execBreq prio level s := rfl
@[simp] theorem exec_eretS : exec .eretS s = execEretS s := rfl
@[simp] theorem exec_eretM : exec .eretM s = execEretM s := rfl
@[simp] theorem exec_tron : exec .tron s = execTron s := rfl
@[simp] theorem exec_troff : exec .troff s = execTroff s := rfl
@[simp] theorem exec_trmark (xs : Reg) : exec (.trmark xs) s = execTrmark xs s := rfl
@[simp] theorem exec_capon (n : BitVec 5) : exec (.capon n) s = execCapon n s := rfl
@[simp] theorem exec_capoff (n : BitVec 5) : exec (.capoff n) s = execCapoff n s := rfl
@[simp] theorem exec_caprd (xd : Reg) (n : BitVec 5) : exec (.caprd xd n) s = execCaprd xd n s := rfl
@[simp] theorem exec_scanrun (xd xs : Reg) : exec (.scanrun xd xs) s = execScanrun xd xs s := rfl
@[simp] theorem exec_scanstat (xd : Reg) : exec (.scanstat xd) s = execScanstat xd s := rfl
@[simp] theorem exec_scanabort : exec .scanabort s = execScanabort s := rfl
@[simp] theorem exec_maprd (xd xs : Reg) : exec (.maprd xd xs) s = execMaprd xd xs s := rfl
@[simp] theorem exec_maprm (xs : Reg) : exec (.maprm xs) s = execMaprm xs s := rfl
@[simp] theorem exec_mapadd (xs : Reg) : exec (.mapadd xs) s = execMapadd xs s := rfl
@[simp] theorem exec_preq (xd xs : Reg) : exec (.preq xd xs) s = execPreq xd xs s := rfl
@[simp] theorem exec_fundamentalReset : exec .fundamentalReset s = execFundamentalReset s := rfl
@[simp] theorem exec_pfFunctionLevelReset : exec .pfFunctionLevelReset s = execPfFunctionLevelReset s := rfl
@[simp] theorem exec_secondaryBusReset : exec .secondaryBusReset s = execSecondaryBusReset s := rfl
@[simp] theorem exec_bringupPhaseEnd : exec .bringupPhaseEnd s = execBringupPhaseEnd s := rfl
@[simp] theorem exec_configRequest : exec .configRequest s = execConfigRequest s := rfl
@[simp] theorem exec_mbootGo : exec .mbootGo s = execMbootGo s := rfl
@[simp] theorem exec_imageCheck : exec .imageCheck s = execImageCheck s := rfl
@[simp] theorem exec_rawRailChange : exec .rawRailChange s = execRawRailChange s := rfl
@[simp] theorem exec_regulatorSlewEnd : exec .regulatorSlewEnd s = execRegulatorSlewEnd s := rfl
@[simp] theorem exec_tratioWindowEnd : exec .tratioWindowEnd s = execTratioWindowEnd s := rfl
@[simp] theorem exec_waitCExpiry : exec .waitCExpiry s = execWaitCExpiry s := rfl
@[simp] theorem exec_waitTExpiry : exec .waitTExpiry s = execWaitTExpiry s := rfl
@[simp] theorem exec_boostRequestSample : exec .boostRequestSample s = execBoostRequestSample s := rfl
@[simp] theorem exec_permitBoundary : exec .permitBoundary s = execPermitBoundary s := rfl
@[simp] theorem exec_controllerStep : exec .controllerStep s = execControllerStep s := rfl
@[simp] theorem exec_admissionRequest : exec .admissionRequest s = execAdmissionRequest s := rfl
@[simp] theorem exec_ballastLimit : exec .ballastLimit s = execBallastLimit s := rfl
@[simp] theorem exec_exitGroupRelease : exec .exitGroupRelease s = execExitGroupRelease s := rfl
@[simp] theorem exec_selection : exec .selection s = execSelection s := rfl
@[simp] theorem exec_startingComplete : exec .startingComplete s = execStartingComplete s := rfl
@[simp] theorem exec_bankWakeComplete : exec .bankWakeComplete s = execBankWakeComplete s := rfl
@[simp] theorem exec_retentionExpiry : exec .retentionExpiry s = execRetentionExpiry s := rfl
@[simp] theorem exec_groupDispatch : exec .groupDispatch s = execGroupDispatch s := rfl
@[simp] theorem exec_launchHeaderArrival : exec .launchHeaderArrival s = execLaunchHeaderArrival s := rfl
@[simp] theorem exec_hubQueueRefill : exec .hubQueueRefill s = execHubQueueRefill s := rfl
@[simp] theorem exec_residentSlotCopy : exec .residentSlotCopy s = execResidentSlotCopy s := rfl
@[simp] theorem exec_sorusPass : exec .sorusPass s = execSorusPass s := rfl
@[simp] theorem exec_preemptionRequest : exec .preemptionRequest s = execPreemptionRequest s := rfl
@[simp] theorem exec_safePoint : exec .safePoint s = execSafePoint s := rfl
@[simp] theorem exec_saveComplete : exec .saveComplete s = execSaveComplete s := rfl
@[simp] theorem exec_restoreComplete : exec .restoreComplete s = execRestoreComplete s := rfl
@[simp] theorem exec_launchCompletion : exec .launchCompletion s = execLaunchCompletion s := rfl
@[simp] theorem exec_grant : exec .grant s = execGrant s := rfl
@[simp] theorem exec_broadcastArrival : exec .broadcastArrival s = execBroadcastArrival s := rfl
@[simp] theorem exec_drainComplete : exec .drainComplete s = execDrainComplete s := rfl
@[simp] theorem exec_localCommit : exec .localCommit s = execLocalCommit s := rfl
@[simp] theorem exec_reservationTimeout : exec .reservationTimeout s = execReservationTimeout s := rfl
@[simp] theorem exec_loadDataReturn : exec .loadDataReturn s = execLoadDataReturn s := rfl
@[simp] theorem exec_tileOperationComplete : exec .tileOperationComplete s = execTileOperationComplete s := rfl
@[simp] theorem exec_copyHeadCheck : exec .copyHeadCheck s = execCopyHeadCheck s := rfl
@[simp] theorem exec_copySectorWritten : exec .copySectorWritten s = execCopySectorWritten s := rfl
@[simp] theorem exec_streamFetchReturn : exec .streamFetchReturn s = execStreamFetchReturn s := rfl
@[simp] theorem exec_streamWriteTransferDone : exec .streamWriteTransferDone s = execStreamWriteTransferDone s := rfl
@[simp] theorem exec_barrierUpdate : exec .barrierUpdate s = execBarrierUpdate s := rfl
@[simp] theorem exec_exchangeComplete : exec .exchangeComplete s = execExchangeComplete s := rfl
@[simp] theorem exec_groupBarrierComplete : exec .groupBarrierComplete s = execGroupBarrierComplete s := rfl
@[simp] theorem exec_launchBarrierComplete : exec .launchBarrierComplete s = execLaunchBarrierComplete s := rfl
@[simp] theorem exec_logMergeDone : exec .logMergeDone s = execLogMergeDone s := rfl
@[simp] theorem exec_crozierContribution : exec .crozierContribution s = execCrozierContribution s := rfl
@[simp] theorem exec_ownerRequestArrival : exec .ownerRequestArrival s = execOwnerRequestArrival s := rfl
@[simp] theorem exec_replyArrival : exec .replyArrival s = execReplyArrival s := rfl
@[simp] theorem exec_resultCacheRetirement : exec .resultCacheRetirement s = execResultCacheRetirement s := rfl
@[simp] theorem exec_retransmission : exec .retransmission s = execRetransmission s := rfl
@[simp] theorem exec_serialWrapRelease : exec .serialWrapRelease s = execSerialWrapRelease s := rfl
@[simp] theorem exec_messageArrival : exec .messageArrival s = execMessageArrival s := rfl
@[simp] theorem exec_messageSendRelease : exec .messageSendRelease s = execMessageSendRelease s := rfl
@[simp] theorem exec_postGo : exec .postGo s = execPostGo s := rfl
@[simp] theorem exec_hteHubWrite : exec .hteHubWrite s = execHteHubWrite s := rfl
@[simp] theorem exec_scanDrainEnd : exec .scanDrainEnd s = execScanDrainEnd s := rfl
@[simp] theorem exec_scanDrainTimeout : exec .scanDrainTimeout s = execScanDrainTimeout s := rfl
@[simp] theorem exec_scanPatternEnd : exec .scanPatternEnd s = execScanPatternEnd s := rfl
@[simp] theorem exec_lcmapAbsentSet : exec .lcmapAbsentSet s = execLcmapAbsentSet s := rfl
@[simp] theorem exec_lcmapAbsentClear : exec .lcmapAbsentClear s = execLcmapAbsentClear s := rfl
@[simp] theorem exec_hcdataWrite : exec .hcdataWrite s = execHcdataWrite s := rfl
@[simp] theorem exec_hubWindowWrite : exec .hubWindowWrite s = execHubWindowWrite s := rfl
@[simp] theorem exec_ptrootWrite : exec .ptrootWrite s = execPtrootWrite s := rfl
@[simp] theorem exec_tlbinvWrite : exec .tlbinvWrite s = execTlbinvWrite s := rfl
@[simp] theorem exec_boostlvlWrite : exec .boostlvlWrite s = execBoostlvlWrite s := rfl
@[simp] theorem exec_ppoolWrite : exec .ppoolWrite s = execPpoolWrite s := rfl
@[simp] theorem exec_hostCxlMemWrite : exec .hostCxlMemWrite s = execHostCxlMemWrite s := rfl
@[simp] theorem exec_hostCxlMemRead : exec .hostCxlMemRead s = execHostCxlMemRead s := rfl
@[simp] theorem exec_launchWindowWrite : exec .launchWindowWrite s = execLaunchWindowWrite s := rfl
@[simp] theorem exec_hostBarInvalidAccess : exec .hostBarInvalidAccess s = execHostBarInvalidAccess s := rfl
@[simp] theorem exec_vfFunctionLevelReset : exec .vfFunctionLevelReset s = execVfFunctionLevelReset s := rfl
@[simp] theorem exec_vfResetEnd : exec .vfResetEnd s = execVfResetEnd s := rfl
@[simp] theorem exec_spartWrite : exec .spartWrite s = execSpartWrite s := rfl
@[simp] theorem exec_partitionControllerStep : exec .partitionControllerStep s = execPartitionControllerStep s := rfl
@[simp] theorem exec_datagramArrival : exec .datagramArrival s = execDatagramArrival s := rfl
@[simp] theorem exec_exportRequest : exec .exportRequest s = execExportRequest s := rfl
@[simp] theorem exec_revoke : exec .revoke s = execRevoke s := rfl
@[simp] theorem exec_revokeDrainEnd : exec .revokeDrainEnd s = execRevokeDrainEnd s := rfl
@[simp] theorem exec_bucketRefill : exec .bucketRefill s = execBucketRefill s := rfl
@[simp] theorem exec_headRequestRelease : exec .headRequestRelease s = execHeadRequestRelease s := rfl
@[simp] theorem exec_checkpointGo : exec .checkpointGo s = execCheckpointGo s := rfl
@[simp] theorem exec_checkpointUnitAck : exec .checkpointUnitAck s = execCheckpointUnitAck s := rfl
@[simp] theorem exec_checkpointResend : exec .checkpointResend s = execCheckpointResend s := rfl
@[simp] theorem exec_debugHalt : exec .debugHalt s = execDebugHalt s := rfl
@[simp] theorem exec_debugResume : exec .debugResume s = execDebugResume s := rfl
@[simp] theorem exec_debugStep : exec .debugStep s = execDebugStep s := rfl
@[simp] theorem exec_dbgrdatWrite : exec .dbgrdatWrite s = execDbgrdatWrite s := rfl
@[simp] theorem exec_syncPeriod : exec .syncPeriod s = execSyncPeriod s := rfl
@[simp] theorem exec_routerGridPeriod : exec .routerGridPeriod s = execRouterGridPeriod s := rfl
@[simp] theorem exec_trapEntry : exec .trapEntry s = execTrapEntry s := rfl
@[simp] theorem exec_interruptEntry : exec .interruptEntry s = execInterruptEntry s := rfl
@[simp] theorem exec_detectionTimerExpiry : exec .detectionTimerExpiry s = execDetectionTimerExpiry s := rfl
@[simp] theorem exec_enginePageFault : exec .enginePageFault s = execEnginePageFault s := rfl
@[simp] theorem exec_promiseExpiry : exec .promiseExpiry s = execPromiseExpiry s := rfl
@[simp] theorem exec_uncorrectableError : exec .uncorrectableError s = execUncorrectableError s := rfl
@[simp] theorem exec_finjWrite : exec .finjWrite s = execFinjWrite s := rfl
@[simp] theorem exec_finjRead : exec .finjRead s = execFinjRead s := rfl
@[simp] theorem exec_railSample : exec .railSample s = execRailSample s := rfl
@[simp] theorem exec_timeBeacon : exec .timeBeacon s = execTimeBeacon s := rfl
@[simp] theorem exec_beaconLoss : exec .beaconLoss s = execBeaconLoss s := rfl
@[simp] theorem exec_linkLaneFailure : exec .linkLaneFailure s = execLinkLaneFailure s := rfl
@[simp] theorem exec_linkRetrainEnd : exec .linkRetrainEnd s = execLinkRetrainEnd s := rfl
@[simp] theorem exec_portLaneFailure : exec .portLaneFailure s = execPortLaneFailure s := rfl
@[simp] theorem exec_portRetrainEnd : exec .portRetrainEnd s = execPortRetrainEnd s := rfl
@[simp] theorem exec_pstatRead : exec .pstatRead s = execPstatRead s := rfl
@[simp] theorem exec_debtstallTimer : exec .debtstallTimer s = execDebtstallTimer s := rfl
@[simp] theorem exec_requestLastDeadline : exec .requestLastDeadline s = execRequestLastDeadline s := rfl
@[simp] theorem exec_returnToService : exec .returnToService s = execReturnToService s := rfl
@[simp] theorem exec_hostLaneFailure : exec .hostLaneFailure s = execHostLaneFailure s := rfl
end

end Sys2Proof.Machine
end

