-- ==== Sys2Proof/Laws/Bits.lean ====
section
/-! SUPPORT. Bit fields: what a bit of a word is after a field of it is replaced (R15). -/

namespace Sys2Proof.Machine

open Sys2Proof

/-- A field replaced in a number that fits. -/
theorem testBit_field (w lo n v i : Nat) :
    (w - (w / 2 ^ lo % 2 ^ n) * 2 ^ lo + (v % 2 ^ n) * 2 ^ lo).testBit i =
      if lo ≤ i ∧ i < lo + n then v.testBit (i - lo) else w.testBit i := by
  -- w = low + 2^lo * (mid + 2^n * high)
  have hlow : w % 2 ^ lo < 2 ^ lo := Nat.mod_lt _ (Nat.two_pow_pos _)
  have hmid : v % 2 ^ n < 2 ^ n := Nat.mod_lt _ (Nat.two_pow_pos _)
  have e : w - (w / 2 ^ lo % 2 ^ n) * 2 ^ lo + (v % 2 ^ n) * 2 ^ lo =
      2 ^ lo * (2 ^ n * (w / 2 ^ lo / 2 ^ n) + v % 2 ^ n) + w % 2 ^ lo := by
    have h1 : w = 2 ^ lo * (w / 2 ^ lo) + w % 2 ^ lo := (Nat.div_add_mod w (2 ^ lo)).symm
    have h2 : w / 2 ^ lo = 2 ^ n * (w / 2 ^ lo / 2 ^ n) + w / 2 ^ lo % 2 ^ n := (Nat.div_add_mod _ _).symm
    generalize w / 2 ^ lo / 2 ^ n = hi at h2 ⊢
    generalize w / 2 ^ lo % 2 ^ n = mid at h2 ⊢
    generalize w / 2 ^ lo = q at h1 h2
    generalize w % 2 ^ lo = r at h1 ⊢
    generalize v % 2 ^ n = m
    subst h2
    rw [h1, Nat.mul_add, Nat.mul_add, Nat.mul_comm mid, Nat.mul_comm m]
    omega
  rw [e, Nat.testBit_two_pow_mul_add _ hlow]
  by_cases h : i < lo
  · rw [if_pos h, if_neg (by omega), Nat.testBit_mod_two_pow]; simp [h]
  · rw [if_neg h, Nat.testBit_two_pow_mul_add _ hmid]
    by_cases h2 : i - lo < n
    · rw [if_pos h2, if_pos (by omega), Nat.testBit_mod_two_pow]; simp [h2]
    · rw [if_neg h2, if_neg (by omega), Nat.testBit_div_two_pow, Nat.testBit_div_two_pow]
      congr 1; omega

/-- A bit of a word with a field replaced. -/
theorem getLsbD_setBits (w : Word) (lo n v i : Nat) (hi : i < 64) :
    (setBits w lo n v).getLsbD i = if lo ≤ i ∧ i < lo + n then v.testBit (i - lo) else w.getLsbD i := by
  unfold setBits word
  rw [BitVec.getLsbD_ofNat, testBit_field]; simp [hi, BitVec.getLsbD]

/-- Clearing the two lowest bits. -/
theorem setBits_clear2 (w : Word) : setBits w 0 2 0 = w &&& ~~~3 := by
  apply BitVec.eq_of_getLsbD_eq; intro i hi
  rw [getLsbD_setBits _ _ _ _ _ hi, BitVec.getLsbD_and]
  have : (~~~3 : Word).getLsbD i = decide (2 ≤ i) := by
    rw [BitVec.getLsbD_not]
    have h3 : (3 : Word).getLsbD i = decide (i < 2) := by
      show (BitVec.ofNat 64 3).getLsbD i = _
      rw [BitVec.getLsbD_ofNat, show (3 : Nat) = 2 ^ 2 - 1 from rfl, Nat.testBit_two_pow_sub_one]; simp [hi]
    rw [h3]; simp only [hi, decide_true, Bool.true_and]
    by_cases h : i < 2
    · simp [h, Nat.not_le.mpr h]
    · simp [h, Nat.le_of_not_lt h]
  rw [this]
  by_cases h : i < 2
  · rw [if_pos (by omega), show decide (2 ≤ i) = false by simp; omega]; simp
  · rw [if_neg (by omega), show decide (2 ≤ i) = true by simp; omega]; simp

/-- Clearing the lowest bit. -/
theorem setBits_clear1 (w : Word) : setBits w 0 1 0 = w &&& ~~~1 := by
  apply BitVec.eq_of_getLsbD_eq; intro i hi
  rw [getLsbD_setBits _ _ _ _ _ hi, BitVec.getLsbD_and]
  have : (~~~1 : Word).getLsbD i = decide (1 ≤ i) := by
    rw [BitVec.getLsbD_not]
    have h1 : (1 : Word).getLsbD i = decide (i < 1) := by
      show (BitVec.ofNat 64 1).getLsbD i = _
      rw [BitVec.getLsbD_ofNat, show (1 : Nat) = 2 ^ 1 - 1 from rfl, Nat.testBit_two_pow_sub_one]; simp [hi]
    rw [h1]; simp only [hi, decide_true, Bool.true_and]
    by_cases h : i < 1
    · simp [h]
    · simp [h]; omega
  rw [this]
  by_cases h : i < 1
  · rw [if_pos (by omega), show decide (1 ≤ i) = false by simp; omega]; simp
  · rw [if_neg (by omega), show decide (1 ≤ i) = true by simp; omega]; simp

theorem bits_one (w : Word) (n : Nat) : bits w n n = (w.getLsbD n).toNat := by
  unfold bits BitVec.getLsbD
  rw [show n + 1 - n = 1 by omega, Nat.testBit, Nat.and_comm, Nat.and_one_is_mod]
  simp only [Nat.pow_one]
  rcases Nat.mod_two_eq_zero_or_one (w.toNat >>> n) with h | h <;> rw [h] <;> rfl

theorem bits_low (w : Word) (hi : Nat) : bits w hi 0 = w.toNat % 2 ^ (hi + 1) := by simp [bits]

end Sys2Proof.Machine
end

