-- ==== Sys2Proof/Laws/Table.lean ====
section
/-! SUPPORT. Tables and memory: what a get gives after a put, and that every write of memory keeps the canonical form. -/

namespace Sys2Proof.Machine

/-! ### Tables -/

section
variable {α : Type} (d : α)

@[simp] theorem tget_nil (k : Nat) : tget d [] k = d := rfl
@[simp] theorem tget?_nil (k : Nat) : tget? ([] : Tab α) k = none := rfl

/-- A get after a put: the value put, and elsewhere the old one. -/
theorem tget_tput (t : Tab α) (k j : Nat) (v : α) : tget d (tput t k v) j = if j = k then v else tget d t j := by
  induction t with
  | nil => simp [tput, tget, eq_comm]
  | cons p t ih =>
    obtain ⟨n, w⟩ := p
    unfold tput
    split
    · simp [tget, eq_comm]
    · split
      · next h => subst h; simp only [tget, @eq_comm _ j k]; split <;> rfl
      · next h1 h2 =>
        simp only [tget, ih]; split
        · next h => subst h; rw [if_neg (fun h => h2 h.symm)]
        · rfl

@[simp] theorem tget_tput_same (t : Tab α) (k : Nat) (v : α) : tget d (tput t k v) k = v := by rw [tget_tput, if_pos rfl]

theorem tget_tput_other (t : Tab α) {k j : Nat} (v : α) (h : j ≠ k) : tget d (tput t k v) j = tget d t j := by
  rw [tget_tput, if_neg h]

/-- A get after a deletion. -/
theorem tget_tdel (t : Tab α) (k j : Nat) : tget d (tdel t k) j = if j = k then d else tget d t j := by
  unfold tdel
  induction t with
  | nil => simp
  | cons p t ih =>
    obtain ⟨n, w⟩ := p
    by_cases h : n = k
    · subst h
      have : (n != n) = false := by simp
      simp only [List.filter, this, ih, tget, @eq_comm _ n j]; split <;> rfl
    · have : (n != k) = true := by simpa using h
      simp only [List.filter, this, tget, ih]
      split
      · next hj => subst hj; rw [if_neg h]
      · rfl

/-- A get after a set. -/
theorem tget_tset [DecidableEq α] (t : Tab α) (k j : Nat) (v : α) : tget d (tset d t k v) j = if j = k then v else tget d t j := by
  unfold tset; split
  · next h => rw [tget_tdel, h]
  · exact tget_tput d t k j v

@[simp] theorem tget_tset_same [DecidableEq α] (t : Tab α) (k : Nat) (v : α) : tget d (tset d t k v) k = v := by
  rw [tget_tset, if_pos rfl]

theorem tget_tset_other [DecidableEq α] (t : Tab α) {k j : Nat} (v : α) (h : j ≠ k) : tget d (tset d t k v) j = tget d t j := by
  rw [tget_tset, if_neg h]

/-- A lookup after a put. -/
theorem tget?_tput (t : Tab α) (k j : Nat) (v : α) : tget? (tput t k v) j = if j = k then some v else tget? t j := by
  induction t with
  | nil => simp [tput, tget?, eq_comm]
  | cons p t ih =>
    obtain ⟨n, w⟩ := p
    unfold tput
    split
    · simp [tget?, eq_comm]
    · split
      · next h => subst h; simp only [tget?, @eq_comm _ j k]; split <;> rfl
      · next h1 h2 =>
        simp only [tget?, ih]; split
        · next h => subst h; rw [if_neg (fun h => h2 h.symm)]
        · rfl

@[simp] theorem tget?_tput_same (t : Tab α) (k : Nat) (v : α) : tget? (tput t k v) k = some v := by
  rw [tget?_tput, if_pos rfl]
end

/-! ### The canonical form of memory -/

theorem Memory.rises_mono {lo lo' : Nat} {m : List Host.Cell} (h : Memory.rises lo m = true) (hl : lo' ≤ lo) :
    Memory.rises lo' m = true := by
  cases m with
  | nil => rfl
  | cons p m =>
    obtain ⟨k, b⟩ := p
    simp only [Memory.rises, Bool.and_eq_true, decide_eq_true_eq] at h ⊢
    exact ⟨⟨by omega, h.1.2⟩, h.2⟩

/-- Putting a byte other than 0 keeps the form. -/
theorem Memory.rises_tput {lo : Nat} {m : List Host.Cell} (h : Memory.rises lo m = true) {k : Nat} (hk : lo ≤ k)
    {b : Byte} (hb : b ≠ 0) : Memory.rises lo (tput m k b) = true := by
  induction m generalizing lo with
  | nil => simpa [tput, Memory.rises, hk] using hb
  | cons p m ih =>
    obtain ⟨n, w⟩ := p
    simp only [Memory.rises, Bool.and_eq_true, decide_eq_true_eq, bne_iff_ne, ne_eq] at h
    unfold tput
    split
    · next hlt =>
      simp only [Memory.rises, Bool.and_eq_true, decide_eq_true_eq, bne_iff_ne, ne_eq]
      exact ⟨⟨hk, hb⟩, ⟨⟨by omega, h.1.2⟩, h.2⟩⟩
    · split
      · next heq =>
        subst heq
        simp only [Memory.rises, Bool.and_eq_true, decide_eq_true_eq, bne_iff_ne, ne_eq]
        exact ⟨⟨hk, hb⟩, h.2⟩
      · next h1 h2 =>
        simp only [Memory.rises, Bool.and_eq_true, decide_eq_true_eq, bne_iff_ne, ne_eq]
        exact ⟨h.1, ih h.2 (by omega)⟩

/-- Leaving entries out keeps the form. -/
theorem Memory.rises_filter {lo : Nat} {m : List Host.Cell} (f : Host.Cell → Bool) (h : Memory.rises lo m = true) :
    Memory.rises lo (m.filter f) = true := by
  induction m generalizing lo with
  | nil => rfl
  | cons p m ih =>
    obtain ⟨n, w⟩ := p
    simp only [Memory.rises, Bool.and_eq_true, decide_eq_true_eq, bne_iff_ne, ne_eq] at h
    simp only [List.filter]
    split
    · simp only [Memory.rises, Bool.and_eq_true, decide_eq_true_eq, bne_iff_ne, ne_eq]
      exact ⟨h.1, ih h.2⟩
    · exact Memory.rises_mono (ih h.2) (by omega)

theorem Memory.wf_filter {m : List Host.Cell} (f : Host.Cell → Bool) (h : Memory.wf m = true) : Memory.wf (m.filter f) = true :=
  Memory.rises_filter f h

/-- Setting a byte keeps the form, whatever the byte. -/
theorem Memory.wf_tset {m : List Host.Cell} (h : Memory.wf m = true) (k : Nat) (b : Byte) : Memory.wf (tset 0 m k b) = true := by
  unfold tset; split
  · exact Memory.rises_filter _ h
  · next hb => exact Memory.rises_tput h (Nat.zero_le k) hb

theorem Memory.wf_writeCells {m : List Host.Cell} (h : Memory.wf m = true) (k : Nat) (bs : List Byte) :
    Memory.wf (writeCells m k bs) = true := by
  induction bs generalizing m k with
  | nil => exact h
  | cons b bs ih => exact ih (Memory.wf_tset h k b) (k + 1)

/-! ### Bytes of memory -/

/-- A byte after the writing of bytes in a row. -/
theorem tget_writeCells (m : List Host.Cell) (k : Nat) (bs : List Byte) (j : Nat) :
    tget 0 (writeCells m k bs) j = if k ≤ j ∧ j < k + bs.length then bs.getD (j - k) 0 else tget 0 m j := by
  induction bs generalizing m k with
  | nil => simp only [writeCells, List.length_nil, Nat.add_zero]; rw [if_neg (by omega)]
  | cons b bs ih =>
    simp only [writeCells, ih, tget_tset, List.length_cons]
    by_cases hj : j = k
    · subst hj; rw [if_neg (by omega), if_pos rfl, if_pos (by omega)]; simp
    · rw [if_neg hj]
      by_cases h1 : k + 1 ≤ j ∧ j < k + 1 + bs.length
      · rw [if_pos h1, if_pos (by omega)]
        rw [show j - k = (j - (k + 1)) + 1 by omega]; simp
      · rw [if_neg h1, if_neg (by omega)]

@[simp] theorem byte_setByte (s : State) (k : Nat) (b : Byte) (j : Nat) :
    (s.setByte k b).byte j = if j = k then b else s.byte j := tget_tset 0 s.mem k j b

end Sys2Proof.Machine
end

