-- ==== Sys2Proof/Laws/Memory.lean ====
section
/-! SUPPORT. Every operation that writes memory keeps its canonical form; what a byte reads after each; a word from its bytes. -/

namespace Sys2Proof.Machine

/-- Memory has its canonical form. -/
def Canon (s : State) : Prop := Memory.wf s.mem = true

/-- What leaves memory as it is keeps the form. -/
theorem canon_of_mem {s t : State} (h : Canon s) (e : t.mem = s.mem) : Canon t := by unfold Canon; rw [e]; exact h

theorem canon_reset : Canon State.reset := rfl

theorem canon_setByte {s : State} (h : Canon s) (k : Nat) (b : Byte) : Canon (s.setByte k b) := Memory.wf_tset h k b

theorem backInvalidate_mem (s : State) (ls : List Nat) : (s.backInvalidate ls).mem = s.mem := by
  unfold State.backInvalidate
  induction ls generalizing s with
  | nil => rfl
  | cons a ls ih => rw [List.foldl_cons, ih]; split <;> rfl

theorem dropCached_mem (s : State) (ls : List Nat) : (s.dropCached ls).mem = s.mem := by
  unfold State.dropCached; split <;> rfl

theorem linesWritten_mem (s : State) (ls : List Nat) : (s.linesWritten ls).mem = s.mem := by
  unfold State.linesWritten; rw [dropCached_mem]; split
  · rfl
  · exact backInvalidate_mem s ls

theorem writeBytes_mem (s : State) (k : Nat) (bs : List Byte) : (s.writeBytes k bs).mem = writeCells s.mem k bs := by
  unfold State.writeBytes; dsimp only; rw [linesWritten_mem]

theorem canon_writeBytes {s : State} (h : Canon s) (k : Nat) (bs : List Byte) : Canon (s.writeBytes k bs) := by
  unfold Canon; rw [writeBytes_mem]; exact Memory.wf_writeCells h k bs

theorem canon_writeNat {s : State} (h : Canon s) (k n v : Nat) : Canon (s.writeNat k n v) := canon_writeBytes h ..

theorem canon_clearRange {s : State} (h : Canon s) (lo n : Nat) : Canon (s.clearRange lo n) := Memory.wf_filter _ h

/-- Setting bytes one after another keeps the form, from the front and from the back. -/
theorem wf_foldl_tset {α : Type} (l : List α) (f : α → Nat) (g : α → Byte) {m : List Host.Cell} (h : Memory.wf m = true) :
    Memory.wf (l.foldl (fun m p => tset 0 m (f p) (g p)) m) = true := by
  induction l generalizing m with
  | nil => exact h
  | cons a l ih => exact ih (Memory.wf_tset h ..)

theorem wf_foldr_tset {α : Type} (l : List α) (f : α → Nat) (g : α → Byte) {m : List Host.Cell} (h : Memory.wf m = true) :
    Memory.wf (l.foldr (fun p m => tset 0 m (f p) (g p)) m) = true := by
  induction l with
  | nil => exact h
  | cons a l ih => exact Memory.wf_tset ih ..

/-- A reset keeps host memory and lists nothing else. -/
theorem canon_resetNow {s : State} (h : Canon s) (b : Bool) : Canon (s.resetNow b) := Memory.wf_filter _ h

/-! ### Bytes after a write -/

theorem byte_writeBytes (s : State) (k : Nat) (bs : List Byte) (j : Nat) :
    (s.writeBytes k bs).byte j = if k ≤ j ∧ j < k + bs.length then bs.getD (j - k) 0 else s.byte j := by
  unfold State.byte; rw [writeBytes_mem]; exact tget_writeCells ..

@[simp] theorem leBytes_length (v n : Nat) : (leBytes v n).length = n := by
  induction n generalizing v with
  | zero => rfl
  | succ n ih => simp [leBytes, ih]

theorem byte_writeNat_outside (s : State) (k n v j : Nat) (h : j < k ∨ k + n ≤ j) : (s.writeNat k n v).byte j = s.byte j := by
  unfold State.writeNat; rw [byte_writeBytes, leBytes_length, if_neg (by omega)]

/-- A byte after a range has been cleared. -/
theorem byte_clearRange (s : State) (lo n j : Nat) :
    (s.clearRange lo n).byte j = if lo ≤ j ∧ j < lo + n then 0 else s.byte j := by
  unfold State.byte State.clearRange
  dsimp only
  induction s.mem with
  | nil => simp
  | cons p t ih =>
    obtain ⟨a, b⟩ := p
    by_cases hp : lo ≤ a ∧ a < lo + n
    · have : (!(decide (lo ≤ a) && decide (a < lo + n))) = false := by simp [hp.1, hp.2]
      rw [List.filter_cons_of_neg (by simp [this]), ih]
      by_cases e : a = j
      · subst e; rw [if_pos hp, if_pos hp]
      · simp [tget, e]
    · have : (!(decide (lo ≤ a) && decide (a < lo + n))) = true := by
        simp only [Bool.not_eq_true', Bool.and_eq_false_iff, decide_eq_false_iff_not]; omega
      rw [List.filter_cons_of_pos (by simpa using this)]
      simp only [tget, ih]
      by_cases e : a = j
      · subst e; simp [hp]
      · simp [e]

/-! ### A word from its bytes (R216) -/

theorem word_of_bytes (a b c d : Byte) :
    BitVec.ofNat 32 (a.toNat + 256 * (b.toNat + 256 * (c.toNat + 256 * d.toNat))) = d ++ c ++ b ++ a := by
  apply BitVec.eq_of_toNat_eq
  have ha := a.isLt; have hb := b.isLt; have hc := c.isLt; have hd := d.isLt
  simp only [BitVec.toNat_ofNat, BitVec.toNat_append]
  rw [← Nat.shiftLeft_add_eq_or_of_lt (by simpa using ha), ← Nat.shiftLeft_add_eq_or_of_lt (by simpa using hb),
    ← Nat.shiftLeft_add_eq_or_of_lt (by simpa using hc)]
  simp only [Nat.shiftLeft_eq]; omega

theorem readNat4 (s : State) (k : Nat) :
    BitVec.ofNat 32 (s.readNat k 4) = s.byte (k + 3) ++ s.byte (k + 2) ++ s.byte (k + 1) ++ s.byte k := by
  rw [← word_of_bytes]; simp [State.readNat, cellsAt, leNat, State.byte]

end Sys2Proof.Machine
end

