-- ==== Sys2Proof/Laws/Canon.lean ====
section
/-! SUPPORT. Every operation of the machine keeps the canonical form of memory: one lemma for each, proved from those of the
operations it is made of. -/

namespace Sys2Proof.Machine

open Sys2Proof

set_option Elab.async false
set_option linter.unusedSimpArgs false
set_option linter.unusedVariables false

/-! ### Rules for the shapes that operations have -/

theorem canon_foldl {α : Type} (f : State → α → State) (l : List α) (s : State) (h : Canon s)
    (hf : ∀ s a, Canon s → Canon (f s a)) : Canon (l.foldl f s) := by
  induction l generalizing s with
  | nil => exact h
  | cons a l ih => exact ih _ (hf _ _ h)
theorem wf_mem {s : State} (h : Canon s) : Memory.wf s.mem = true := h
theorem canon_mk {m ctxs auxs cores sori saux parts slots hub thallus fabric flight gtime running cur spent idle now script agenda timers out fresh}
    (h : Memory.wf m = true) : Canon ⟨m, ctxs, auxs, cores, sori, saux, parts, slots, hub, thallus, fabric, flight, gtime, running, cur, spent, idle, now, script, agenda, timers, out, fresh⟩ := h

theorem canon_mk_iff {m ctxs auxs cores sori saux parts slots hub thallus fabric flight gtime running cur spent idle now script agenda timers out fresh} :
    Canon ⟨m, ctxs, auxs, cores, sori, saux, parts, slots, hub, thallus, fabric, flight, gtime, running, cur, spent, idle, now, script, agenda, timers, out, fresh⟩ ↔ Memory.wf m = true := Iff.rfl
theorem wf_mem_iff {s : State} : Memory.wf s.mem = true ↔ Canon s := Iff.rfl
theorem canon_snd {α : Type} {x : α × State} {a : α} {t : State} (e : x = (a, t)) (h : Canon x.2) : Canon t := by subst e; exact h
theorem canon_fst {α : Type} {x : State × α} {a : α} {t : State} (e : x = (t, a)) (h : Canon x.1) : Canon t := by subst e; exact h
theorem canon_ite {c : Prop} [Decidable c] {a b : State} (ha : Canon a) (hb : Canon b) : Canon (if c then a else b) := by split <;> assumption
/-- An operation that may not happen keeps the form where it does. -/
def CanonOpt (x : Option State) : Prop := ∀ t, x = some t → Canon t
theorem canon_opt {x : Option State} {t : State} (e : x = some t) (h : CanonOpt x) : Canon t := h t e
theorem canonOpt_ite {c : Prop} [Decidable c] {a b : Option State} (ha : CanonOpt a) (hb : CanonOpt b) : CanonOpt (if c then a else b) := by split <;> assumption
theorem canonOpt_some {a : State} (h : Canon a) : CanonOpt (some a) := fun t e => by rw [← Option.some.inj e]; exact h
theorem canonOpt_map {x : Option State} {f : State → State} (h : CanonOpt x) (hf : ∀ s, Canon s → Canon (f s)) : CanonOpt (x.map f) := by
  intro t e; obtain ⟨u, hu, rfl⟩ := Option.map_eq_some_iff.1 e; exact hf _ (h u hu)
theorem canonOpt_none : CanonOpt none := fun t e => nomatch e
theorem canon_foldl_fst {α β : Type} (f : State × β → α → State × β) (l : List α) (s : State × β) (h : Canon s.1)
    (hf : ∀ s a, Canon s.1 → Canon (f s a).1) : Canon (l.foldl f s).1 := by
  induction l generalizing s with
  | nil => exact h
  | cons a l ih => exact ih _ (hf _ _ h)
theorem canon_foldl_snd {α β : Type} (f : β × State → α → β × State) (l : List α) (s : β × State) (h : Canon s.2)
    (hf : ∀ s a, Canon s.2 → Canon (f s a).2) : Canon (l.foldl f s).2 := by
  induction l generalizing s with
  | nil => exact h
  | cons a l ih => exact ih _ (hf _ _ h)

/-! ### Operations, in the order of the files of the model -/

theorem canon_setCtx (s : State) (h : Nat) (c : Ctx) (hc : Canon s) : Canon (State.setCtx s h c) := by
  unfold State.setCtx
  repeat' first | with_reducible assumption | (simp only [canon_mk_iff, wf_mem_iff])

theorem canon_setAux (s : State) (h : Nat) (c : CtxAux) (hc : Canon s) : Canon (State.setAux s h c) := by
  unfold State.setAux
  repeat' first | with_reducible assumption | (simp only [canon_mk_iff, wf_mem_iff])

theorem canon_setCore (s : State) (L : Nat) (c : CoreSt) (hc : Canon s) : Canon (State.setCore s L c) := by
  unfold State.setCore
  repeat' first | with_reducible assumption | (simp only [canon_mk_iff, wf_mem_iff])

theorem canon_setSorus (s : State) (n : Nat) (c : SorusSt) (hc : Canon s) : Canon (State.setSorus s n c) := by
  unfold State.setSorus
  repeat' first | with_reducible assumption | (simp only [canon_mk_iff, wf_mem_iff])

theorem canon_setSx (s : State) (n : Nat) (c : SorusAux) (hc : Canon s) : Canon (State.setSx s n c) := by
  unfold State.setSx
  repeat' first | with_reducible assumption | (simp only [canon_mk_iff, wf_mem_iff])

theorem canon_setPart (s : State) (p : Nat) (c : Part) (hc : Canon s) : Canon (State.setPart s p c) := by
  unfold State.setPart
  repeat' first | with_reducible assumption | (simp only [canon_mk_iff, wf_mem_iff])

theorem canon_setSlot (s : State) (t : Nat) (c : Slot) (hc : Canon s) : Canon (State.setSlot s t c) := by
  unfold State.setSlot
  repeat' first | with_reducible assumption | (simp only [canon_mk_iff, wf_mem_iff])

theorem canon_setHart (s : State) (c : Ctx) (hc : Canon s) : Canon (State.setHart s c) := by
  unfold State.setHart
  repeat' first | with_reducible assumption | with_reducible apply canon_setCtx

theorem canon_poke (s : State) (e : Event) (hc : Canon s) : Canon (State.poke s e) := by
  unfold State.poke
  repeat' first | with_reducible assumption | (simp only [canon_mk_iff, wf_mem_iff])

theorem canon_after (s : State) (ns : Nat) (e : Event) (hc : Canon s) : Canon (State.after s ns e) := by
  unfold State.after
  repeat' first | with_reducible assumption | (simp only [canon_mk_iff, wf_mem_iff])

theorem canon_again (s : State) (e : Event) (hc : Canon s) : Canon (State.again s e) := by
  unfold State.again
  repeat' first | with_reducible assumption | with_reducible apply canon_after | with_reducible apply canon_ite

theorem canon_emit (s : State) (o : Output) (hc : Canon s) : Canon (State.emit s o) := by
  unfold State.emit
  repeat' first | with_reducible assumption | (simp only [canon_mk_iff, wf_mem_iff])

theorem canon_newId (s : State) (hc : Canon s) : Canon s.newId.2 := by
  unfold State.newId
  repeat' first | with_reducible assumption | (simp only [canon_mk_iff, wf_mem_iff])

theorem canon_freeWord (s : State) (hc : Canon s) : Canon s.freeWord.2 := by
  unfold State.freeWord
  repeat' first | with_reducible assumption | (simp only [canon_mk_iff, wf_mem_iff])

theorem canon_spend (s : State) (hc : Canon s) : Canon (State.spend s) := by
  unfold State.spend
  repeat' first | with_reducible assumption | (simp only [canon_mk_iff, wf_mem_iff])

theorem canon_giveUp (s : State) (hc : Canon s) : Canon (State.giveUp s) := by
  unfold State.giveUp
  repeat' first | with_reducible assumption | (simp only [canon_mk_iff, wf_mem_iff])

theorem canon_backInvalidate (s : State) (lines : List Nat) (hc : Canon s) : Canon (State.backInvalidate s lines) := by
  unfold State.backInvalidate
  repeat' first | with_reducible assumption | (with_reducible intro _) | with_reducible apply canon_foldl |
                 with_reducible apply canon_ite | (simp only [canon_mk_iff, wf_mem_iff])

theorem canon_dropCached (s : State) (lines : List Nat) (hc : Canon s) : Canon (State.dropCached s lines) := by
  unfold State.dropCached
  repeat' first | with_reducible assumption | with_reducible apply canon_ite | (simp only [canon_mk_iff, wf_mem_iff])

theorem canon_linesWritten (s : State) (lines : List Nat) (hc : Canon s) : Canon (State.linesWritten s lines) := by
  unfold State.linesWritten
  repeat' first | with_reducible assumption | with_reducible apply canon_dropCached |
                 with_reducible apply canon_backInvalidate | with_reducible apply canon_ite

theorem canon_clkChangeAt (s : State) (n : Nat) (goal : Nat) (raw : Nat) (t : Nat) (hc : Canon s) : Canon (State.clkChangeAt
    s n goal raw t) := by
  unfold State.clkChangeAt
  repeat' first | with_reducible assumption | with_reducible apply canon_setSx

theorem canon_clkChange (s : State) (n : Nat) (goal : Nat) (raw : Nat) (hc : Canon s) : Canon (State.clkChange s n goal raw) := by
  unfold State.clkChange
  repeat' first | with_reducible assumption | with_reducible apply canon_clkChangeAt

theorem canon_elog (s : State) (kind : Nat) (t : Nat) (L : Nat) (addr : Word) (detail : Word) (hc : Canon s) : Canon
    (State.elog s kind t L addr detail) := by
  unfold State.elog
  repeat' first | with_reducible assumption | with_reducible apply canon_ite | split |
                 (simp only [canon_mk_iff, wf_mem_iff])

theorem canon_traceRecord (s : State) (n : Nat) (w0 : Word) (w1 : Word) (hc : Canon s) : Canon (State.traceRecord s n w0 w1) := by
  unfold State.traceRecord
  repeat' first | with_reducible assumption | with_reducible apply canon_setSx | with_reducible apply canon_writeNat |
                 with_reducible apply canon_ite

theorem canon_trace (s : State) (h : Nat) (type : Nat) (payload : Word) (hc : Canon s) : Canon (State.trace s h type payload) := by
  unfold State.trace
  repeat' first | with_reducible assumption | with_reducible apply canon_traceRecord | with_reducible apply canon_ite

theorem canon_traceSync (s : State) (L : Nat) (cause : Nat) (hc : Canon s) : Canon (State.traceSync s L cause) := by
  unfold State.traceSync
  repeat' first | with_reducible assumption | with_reducible apply canon_traceRecord | with_reducible apply canon_ite

theorem canon_capEvent (s : State) (h : Nat) (evt : Nat) (n : Nat) (hc : Canon s) : Canon (State.capEvent s h evt n) := by
  unfold State.capEvent
  repeat' first | with_reducible assumption | with_reducible apply canon_setAux | with_reducible apply canon_ite

theorem canon_setSaved (s : State) (p : Nat) (v : Saved) (hc : Canon s) : Canon (State.setSaved s p v) := by
  unfold State.setSaved
  repeat' first | with_reducible assumption | with_reducible apply canon_setPart

theorem canon_setLaunch (s : State) (k : Nat) (l : Launch) (hc : Canon s) : Canon (State.setLaunch s k l) := by
  unfold State.setLaunch
  repeat' first | with_reducible assumption | with_reducible apply canon_setPart

theorem canon_countFault (s : State) (f : Firing) (hc : Canon s) : Canon (State.countFault s f) := by
  unfold State.countFault
  repeat' first | with_reducible assumption | with_reducible apply canon_setLaunch | split

theorem canon_inbound (s : State) (h : Nat) (i : Inbound) (hc : Canon s) : Canon (State.inbound s h i) := by
  unfold State.inbound
  repeat' first | with_reducible assumption | with_reducible apply canon_setAux

theorem canon_answerIf (s : State) (waits : Nat → Bool) (fid : Nat) (id : Nat) (a : Answer) (ver : Nat) (hc : Canon s) :
    Canon (State.answerIf s waits fid id a ver) := by
  unfold State.answerIf
  repeat' first | with_reducible assumption | with_reducible apply canon_inbound | with_reducible apply canon_setCtx |
                 with_reducible apply canon_setSaved | with_reducible apply canon_ite | split

theorem canon_answerWith (s : State) (fid : Nat) (id : Nat) (a : Answer) (ver : Nat) (hc : Canon s) : Canon (State.answerWith
    s fid id a ver) := by
  unfold State.answerWith
  repeat' first | with_reducible assumption | with_reducible apply canon_answerIf

theorem canon_answer (s : State) (fid : Nat) (id : Nat) (v : Word) (ver : Nat) (hc : Canon s) : Canon (State.answer s fid id
    v ver) := by
  unfold State.answer
  repeat' first | with_reducible assumption | with_reducible apply canon_answerWith

theorem canon_answerHere (s : State) (fid : Nat) (id : Nat) (v : Word) (hc : Canon s) : Canon (State.answerHere s fid id v) := by
  unfold State.answerHere
  repeat' first | with_reducible assumption | with_reducible apply canon_answerIf

theorem canon_eiNow (s : State) (h : Nat) (val : Word) (hc : Canon s) : Canon (State.eiNow s h val) := by
  unfold State.eiNow
  repeat' first | with_reducible assumption | with_reducible apply canon_setAux | with_reducible apply canon_setCtx |
                 with_reducible apply canon_ite

theorem canon_setEi (s : State) (fid : Nat) (kind : Nat) (addr : Word) (hc : Canon s) : Canon (State.setEi s fid kind addr) := by
  unfold State.setEi
  repeat' first | with_reducible assumption | with_reducible apply canon_inbound | with_reducible apply canon_eiNow |
                 with_reducible apply canon_setSaved | with_reducible apply canon_ite | split

theorem canon_preqOutcome (s : State) (id : Nat) (idx : Nat) (code : Nat) (hc : Canon s) : Canon (State.preqOutcome s id idx
    code) := by
  unfold State.preqOutcome
  repeat' first | with_reducible assumption | with_reducible apply canon_answer | with_reducible apply canon_ite |
                 split | (simp only [canon_mk_iff, wf_mem_iff])

theorem canon_preqsDone (s : State) (h : Nat) (code : Nat) (hc : Canon s) : Canon (State.preqsDone s h code) := by
  unfold State.preqsDone
  repeat' first | with_reducible assumption | (with_reducible intro _) | with_reducible apply canon_setAux |
                 with_reducible apply canon_preqOutcome | with_reducible apply canon_foldl | split |
                 (simp only [canon_mk_iff, wf_mem_iff])

theorem canon_setBank (s : State) (L : Nat) (b : Nat) (k : Bank) (hc : Canon s) : Canon (State.setBank s L b k) := by
  unfold State.setBank
  repeat' first | with_reducible assumption | with_reducible apply canon_setCore

theorem canon_wipeBank (s : State) (L : Nat) (b : Nat) (hc : Canon s) : Canon (State.wipeBank s L b) := by
  unfold State.wipeBank
  repeat' first | with_reducible assumption | with_reducible apply canon_clearRange | with_reducible apply canon_setCore

theorem canon_bankDown (s : State) (L : Nat) (b : Nat) (hc : Canon s) : Canon (State.bankDown s L b) := by
  unfold State.bankDown
  repeat' first | with_reducible assumption | with_reducible apply canon_setBank | with_reducible apply canon_wipeBank

theorem canon_releaseBanks (s : State) (L : Nat) (fid : Nat) (retain : Nat) (actor : Nat) (hc : Canon s) : Canon
    (State.releaseBanks s L fid retain actor) := by
  unfold State.releaseBanks
  repeat' first | with_reducible assumption | (with_reducible intro _) | with_reducible apply canon_after |
                 with_reducible apply canon_setBank | with_reducible apply canon_bankDown |
                 with_reducible apply canon_foldl | with_reducible apply canon_ite

theorem canon_pokeRoom (s : State) (L : Nat) (hc : Canon s) : Canon (State.pokeRoom s L) := by
  unfold State.pokeRoom
  repeat' first | with_reducible assumption | with_reducible apply canon_poke | split |
                 (simp only [canon_mk_iff, wf_mem_iff])

theorem canon_releaseRows (s : State) (L : Nat) (fid : Nat) (hc : Canon s) : Canon (State.releaseRows s L fid) := by
  unfold State.releaseRows
  repeat' first | with_reducible assumption | with_reducible apply canon_setCore

theorem canon_settleKeep (s : State) (n : Nat) (hc : Canon s) : Canon (State.settleKeep s n) := by
  unfold State.settleKeep
  repeat' first | with_reducible assumption | with_reducible apply canon_setSorus | with_reducible apply canon_ite

theorem canon_pokeYield (s : State) (h : Nat) (hc : Canon s) : Canon (State.pokeYield s h) := by
  unfold State.pokeYield
  repeat' first | with_reducible assumption | with_reducible apply canon_poke | with_reducible apply canon_ite | split

theorem canon_pokeEnd (s : State) (L : Nat) (p : Nat) (f : Firing) (hc : Canon s) : Canon (State.pokeEnd s L p f) := by
  unfold State.pokeEnd
  repeat' first | with_reducible assumption | (with_reducible intro _) | with_reducible apply canon_poke |
                 with_reducible apply canon_settleKeep | with_reducible apply canon_foldl |
                 with_reducible apply canon_ite | split

theorem canon_launchEnd (s : State) (L : Nat) (f : Firing) (halted : Bool) (hc : Canon s) : Canon (State.launchEnd s L f
    halted) := by
  unfold State.launchEnd
  repeat' first | with_reducible assumption | with_reducible apply canon_setLaunch |
                 with_reducible apply canon_setSlot | with_reducible apply canon_ite | split

theorem canon_dlStart (s : State) (k : Nat) (hc : Canon s) : Canon (State.dlStart s k) := by
  unfold State.dlStart
  repeat' first | with_reducible assumption | with_reducible apply canon_setLaunch | with_reducible apply canon_after |
                 with_reducible apply canon_ite | split

theorem canon_crzEnded (s : State) (L : Nat) (hc : Canon s) : Canon (State.crzEnded s L) := by
  unfold State.crzEnded
  repeat' first | with_reducible assumption | (with_reducible intro _) | with_reducible apply canon_dlStart |
                 with_reducible apply canon_poke | with_reducible apply canon_foldl | with_reducible apply canon_ite |
                 split

theorem canon_dlReset (s : State) (f : Firing) (hc : Canon s) : Canon (State.dlReset s f) := by
  unfold State.dlReset
  repeat' first | with_reducible assumption | with_reducible apply canon_setLaunch | split

theorem canon_orderPoint (s : State) (f : Firing) (hc : Canon s) : Canon (State.orderPoint s f) := by
  unfold State.orderPoint
  repeat' first | with_reducible assumption | (with_reducible intro _) | with_reducible apply canon_setPart |
                 with_reducible apply canon_poke | with_reducible apply canon_foldl | with_reducible apply canon_ite |
                 split

theorem canon_freeCtx (s : State) (h : Nat) (hc : Canon s) : Canon (State.freeCtx s h) := by
  unfold State.freeCtx
  repeat' first | with_reducible assumption | (with_reducible intro _) | with_reducible apply canon_poke |
                 with_reducible apply canon_setAux | with_reducible apply canon_setCtx |
                 with_reducible apply canon_foldl

theorem canon_orphanCopies (s : State) (fid : Nat) (hc : Canon s) : Canon (State.orphanCopies s fid) := by
  unfold State.orphanCopies
  repeat' first | with_reducible assumption | (with_reducible intro _) | with_reducible apply canon_poke |
                 with_reducible apply canon_setCore | with_reducible apply canon_foldl |
                 (simp only [canon_mk_iff, wf_mem_iff])

theorem canon_keepSerial (s : State) (f : Firing) (hc : Canon s) : Canon (State.keepSerial s f) := by
  unfold State.keepSerial
  repeat' first | with_reducible assumption | (simp only [canon_mk_iff, wf_mem_iff])

theorem canon_endFiring (s : State) (h : Nat) (halted : Bool) (retain : Nat) (actor : Nat) (hc : Canon s) : Canon
    (State.endFiring s h halted retain actor) := by
  unfold State.endFiring
  repeat' first | with_reducible assumption | (with_reducible intro _) | with_reducible apply canon_preqsDone |
                 with_reducible apply canon_countFault | with_reducible apply canon_releaseBanks |
                 with_reducible apply canon_releaseRows | with_reducible apply canon_orphanCopies |
                 with_reducible apply canon_keepSerial | with_reducible apply canon_launchEnd |
                 with_reducible apply canon_orderPoint | with_reducible apply canon_crzEnded |
                 with_reducible apply canon_freeCtx | with_reducible apply canon_pokeEnd |
                 with_reducible apply canon_dlStart | with_reducible apply canon_foldl |
                 with_reducible apply canon_ite | split

theorem canon_redeliver (s : State) (h : Nat) (f : Firing) (hc : Canon s) : Canon (State.redeliver s h f) := by
  unfold State.redeliver
  repeat' first | with_reducible assumption | with_reducible apply canon_setCore | with_reducible apply canon_poke |
                 with_reducible apply canon_elog | with_reducible apply canon_ite | split |
                 (simp only [canon_mk_iff, wf_mem_iff])

theorem canon_discarded (s : State) (h : Nat) (hc : Canon s) : Canon (State.discarded s h) := by
  unfold State.discarded
  repeat' first | with_reducible assumption | with_reducible apply canon_capEvent | with_reducible apply canon_trace |
                 with_reducible apply canon_ite

theorem canon_kill (s : State) (h : Nat) (hw : Bool) (hc : Canon s) : Canon (State.kill s h hw) := by
  unfold State.kill
  repeat' first | with_reducible assumption | with_reducible apply canon_discarded |
                 with_reducible apply canon_endFiring | with_reducible apply canon_redeliver |
                 with_reducible apply canon_poke | with_reducible apply canon_ite | split |
                 (simp only [canon_mk_iff, wf_mem_iff])

theorem canon_killByTrap (s : State) (h : Nat) (cause : Nat) (hc : Canon s) : Canon (State.killByTrap s h cause) := by
  unfold State.killByTrap
  repeat' first | with_reducible assumption | with_reducible apply canon_kill | with_reducible apply canon_elog |
                 with_reducible apply canon_countFault | split

theorem canon_killByHardware (s : State) (h : Nat) (kind : Nat) (hc : Canon s) : Canon (State.killByHardware s h kind) := by
  unfold State.killByHardware
  repeat' first | with_reducible assumption | with_reducible apply canon_countFault | with_reducible apply canon_kill |
                 with_reducible apply canon_elog | with_reducible apply canon_ite | split

theorem canon_setRegs (s : State) (g : Regs) (hc : Canon s) : Canon (State.setRegs s g) := by
  unfold State.setRegs
  repeat' first | with_reducible assumption | with_reducible apply canon_setHart

theorem canon_setX (s : State) (r : Reg) (v : Word) (hc : Canon s) : Canon (State.setX s r v) := by
  unfold State.setX
  repeat' first | with_reducible assumption | with_reducible apply canon_setRegs

theorem canon_setV (s : State) (r : Reg) (v : VReg) (hc : Canon s) : Canon (State.setV s r v) := by
  unfold State.setV
  repeat' first | with_reducible assumption | with_reducible apply canon_setRegs

theorem canon_setP (s : State) (r : Reg3) (v : PReg) (hc : Canon s) : Canon (State.setP s r v) := by
  unfold State.setP
  repeat' first | with_reducible assumption | with_reducible apply canon_setRegs

theorem canon_setAcc (s : State) (r : Reg3) (v : AReg) (hc : Canon s) : Canon (State.setAcc s r v) := by
  unfold State.setAcc
  repeat' first | with_reducible assumption | with_reducible apply canon_setRegs

theorem canon_endTurn (s : State) (hc : Canon s) : Canon (State.endTurn s) := by
  unfold State.endTurn
  repeat' first | with_reducible assumption | with_reducible apply canon_setCore | with_reducible apply canon_ite |
                 (simp only [canon_mk_iff, wf_mem_iff])

theorem canon_offer (s : State) (h : Nat) (hc : Canon s) : Canon (State.offer s h) := by
  unfold State.offer
  repeat' first | with_reducible assumption | with_reducible apply canon_setCore |
                 (simp only [canon_mk_iff, wf_mem_iff])

theorem canon_requestCommit (s : State) (h : Nat) (hc : Canon s) : Canon (State.requestCommit s h) := by
  unfold State.requestCommit
  repeat' first | with_reducible assumption | with_reducible apply canon_setCtx | with_reducible apply canon_after |
                 with_reducible apply canon_ite | split | (simp only [canon_mk_iff, wf_mem_iff])

theorem canon_taskTrap (s : State) (h : Nat) (c : Nat) (v : Word) (hc : Canon s) : Canon (State.taskTrap s h c v) := by
  unfold State.taskTrap
  repeat' first | with_reducible assumption | with_reducible apply canon_killByTrap | with_reducible apply canon_poke |
                 with_reducible apply canon_setCtx | with_reducible apply canon_ite

theorem canon_endChunk (s : State) (h : Nat) (hc : Canon s) : Canon (State.endChunk s h) := by
  unfold State.endChunk
  repeat' first | with_reducible assumption | with_reducible apply canon_taskTrap |
                 with_reducible apply canon_requestCommit | with_reducible apply canon_setCtx |
                 with_reducible apply canon_ite

theorem canon_hold (s : State) (i : Held) (hc : Canon s) : Canon (State.hold s i) := by
  unfold State.hold
  repeat' first | with_reducible assumption | with_reducible apply canon_setHart

theorem canon_await (s : State) (r : Nat) (id : Nat) (hc : Canon s) : Canon (State.await s r id) := by
  unfold State.await
  repeat' first | with_reducible assumption | with_reducible apply canon_setHart | with_reducible apply canon_ite

theorem canon_advance (s : State) (npc : Word) (hc : Canon s) : Canon (State.advance s npc) := by
  unfold State.advance
  repeat' first | with_reducible assumption | with_reducible apply canon_setHart | with_reducible apply canon_setAux |
                 with_reducible apply canon_spend | with_reducible apply canon_capEvent | with_reducible apply canon_ite

theorem canon_retire (s : State) (npc : Word) (hc : Canon s) : Canon (State.retire s npc) := by
  unfold State.retire
  repeat' first | with_reducible assumption | with_reducible apply canon_advance | with_reducible apply canon_endChunk |
                 with_reducible apply canon_ite

theorem canon_step4 (s : State) (hc : Canon s) : Canon (State.step4 s) := by
  unfold State.step4
  repeat' first | with_reducible assumption | with_reducible apply canon_retire

theorem canon_stepEnd (s : State) (hc : Canon s) : Canon (State.stepEnd s) := by
  unfold State.stepEnd
  repeat' first | with_reducible assumption | with_reducible apply canon_advance | with_reducible apply canon_endChunk

theorem canon_stepSync (s : State) (hc : Canon s) : Canon (State.stepSync s) := by
  unfold State.stepSync
  repeat' first | with_reducible assumption | with_reducible apply canon_advance | with_reducible apply canon_endChunk |
                 with_reducible apply canon_setHart

theorem canon_trapEnter (s : State) (h : Nat) (int : Bool) (c : Nat) (v : Word) (toM : Bool) (hc : Canon s) : Canon
    (State.trapEnter s h int c v toM) := by
  unfold State.trapEnter
  repeat' first | with_reducible assumption | with_reducible apply canon_setCtx

theorem canon_takeTrap (s : State) (h : Nat) (int : Bool) (c : Nat) (v : Word) (hc : Canon s) : Canon (State.takeTrap s h int
    c v) := by
  unfold State.takeTrap
  repeat' first | with_reducible assumption | with_reducible apply canon_killByTrap |
                 with_reducible apply canon_countFault | with_reducible apply canon_preqsDone |
                 with_reducible apply canon_setCtx | with_reducible apply canon_trapEnter |
                 with_reducible apply canon_ite | split

theorem canon_trapReturn (s : State) (h : Nat) (fromM : Bool) (hc : Canon s) : Canon (State.trapReturn s h fromM) := by
  unfold State.trapReturn
  repeat' first | with_reducible assumption | with_reducible apply canon_setCtx

theorem canon_raiseAt (s : State) (c : Nat) (v : Word) (hc : Canon s) : Canon (State.raiseAt s c v) := by
  unfold State.raiseAt
  repeat' first | with_reducible assumption | with_reducible apply canon_spend | with_reducible apply canon_takeTrap |
                 with_reducible apply canon_taskTrap | with_reducible apply canon_endChunk |
                 with_reducible apply canon_setHart | with_reducible apply canon_ite

theorem canon_raise (s : State) (c : Nat) (v : Word) (hc : Canon s) : Canon (State.raise s c v) := by
  unfold State.raise
  repeat' first | with_reducible assumption | with_reducible apply canon_raiseAt | with_reducible apply canon_capEvent

theorem canon_boundBefore (s : State) (hc : Canon s) : Canon (State.boundBefore s) := by
  unfold State.boundBefore
  repeat' first | with_reducible assumption | with_reducible apply canon_endChunk | with_reducible apply canon_giveUp

theorem canon_wakeBanks (s : State) (bs : List (Nat × Nat)) (hc : Canon s) : Canon (State.wakeBanks s bs) := by
  unfold State.wakeBanks
  repeat' first | with_reducible assumption | (with_reducible intro _) | with_reducible apply canon_poke |
                 with_reducible apply canon_setBank | with_reducible apply canon_foldl | with_reducible apply canon_ite

theorem canon_powerBanks (s : State) (rs : List (Nat × Nat)) (hc : Canon s) : Canon (State.powerBanks s rs) := by
  unfold State.powerBanks
  repeat' first | with_reducible assumption | (with_reducible intro _) | with_reducible apply canon_setBank |
                 with_reducible apply canon_foldl | with_reducible apply canon_ite

theorem canon_pay (s : State) (t c : Nat) (hc : Canon s) : CanonOpt (s.pay t c) := by
  unfold State.pay
  split
  · exact canonOpt_some (canon_mk (wf_mem (canon_setSlot _ _ _ hc)))
  · exact canonOpt_none

theorem canon_owe (s : State) (t : Nat) (cost : Nat) (hc : Canon s) : Canon (State.owe s t cost) := by
  unfold State.owe
  repeat' first | with_reducible assumption | with_reducible apply canon_setSlot

theorem canon_charge (s : State) (t c : Nat) (who : Event) (hc : Canon s) : CanonOpt (s.charge t c who) := by
  unfold State.charge
  exact canonOpt_map (canonOpt_ite (canonOpt_some (canon_setSlot _ _ _ hc)) (canonOpt_ite (canon_pay _ _ _ (canon_setSlot _ _ _ hc)) canonOpt_none))
    (fun s h => canon_owe _ _ _ h)

theorem canon_stallSlot (s : State) (t : Nat) (hc : Canon s) : Canon (State.stallSlot s t) := by
  unfold State.stallSlot
  repeat' first | with_reducible assumption | with_reducible apply canon_after | with_reducible apply canon_setSlot |
                 with_reducible apply canon_ite

theorem canon_waitTurn (s : State) (t : Nat) (c : Nat) (who : Event) (hc : Canon s) : Canon (State.waitTurn s t c who) := by
  unfold State.waitTurn
  repeat' first | with_reducible assumption | with_reducible apply canon_setSlot |
                 with_reducible apply canon_stallSlot | with_reducible apply canon_poke | with_reducible apply canon_ite

theorem canon_settleResvs (s : State) (hc : Canon s) : Canon (State.settleResvs s) := by
  unfold State.settleResvs
  repeat' first | with_reducible assumption | (with_reducible intro _) | with_reducible apply canon_after |
                 with_reducible apply canon_foldl | with_reducible apply canon_ite |
                 (simp only [canon_mk_iff, wf_mem_iff])

theorem canon_dropResv (s : State) (h : Nat) (hc : Canon s) : Canon (State.dropResv s h) := by
  unfold State.dropResv
  repeat' first | with_reducible assumption | with_reducible apply canon_poke | with_reducible apply canon_settleResvs |
                 with_reducible apply canon_ite | (simp only [canon_mk_iff, wf_mem_iff])

theorem canon_reserve (s : State) (h : Nat) (lines : List Nat) (hc : Canon s) : Canon (State.reserve s h lines) := by
  unfold State.reserve
  repeat' first | with_reducible assumption | with_reducible apply canon_dropResv |
                 with_reducible apply canon_settleResvs | with_reducible apply canon_ite |
                 (simp only [canon_mk_iff, wf_mem_iff])

theorem canon_refetch (s : State) (h : Nat) (hc : Canon s) : Canon (State.refetch s h) := by
  unfold State.refetch
  repeat' first | with_reducible assumption | (with_reducible intro _) | with_reducible apply canon_poke |
                 with_reducible apply canon_foldl | with_reducible apply canon_ite

theorem canon_squash (s : State) (h : Nat) (both : Bool) (hc : Canon s) : Canon (State.squash s h both) := by
  unfold State.squash
  repeat' first | with_reducible assumption | with_reducible apply canon_setCore | with_reducible apply canon_trace |
                 with_reducible apply canon_capEvent | with_reducible apply canon_setAux |
                 with_reducible apply canon_setCtx | with_reducible apply canon_dlReset |
                 with_reducible apply canon_reserve | with_reducible apply canon_refetch |
                 with_reducible apply canon_poke | with_reducible apply canon_ite | split |
                 (simp only [canon_mk_iff, wf_mem_iff])

theorem canon_closeChunk (s : State) (h : Nat) (hc : Canon s) : Canon (State.closeChunk s h) := by
  unfold State.closeChunk
  repeat' first | with_reducible assumption | with_reducible apply canon_setCtx | with_reducible apply canon_endChunk |
                 with_reducible apply canon_ite

theorem canon_refuseDrain (s : State) (h : Nat) (code : Nat) (hc : Canon s) : Canon (State.refuseDrain s h code) := by
  unfold State.refuseDrain
  repeat' first | with_reducible assumption | with_reducible apply canon_preqsDone | with_reducible apply canon_setCtx

theorem canon_wakeNow (s : State) (h : Nat) (hc : Canon s) : Canon (State.wakeNow s h) := by
  unfold State.wakeNow
  repeat' first | with_reducible assumption | with_reducible apply canon_setCtx | with_reducible apply canon_dlReset |
                 with_reducible apply canon_ite | split

theorem canon_wake (s : State) (h : Nat) (hc : Canon s) : Canon (State.wake s h) := by
  unfold State.wake
  repeat' first | with_reducible assumption | with_reducible apply canon_inbound | with_reducible apply canon_wakeNow |
                 with_reducible apply canon_ite

theorem canon_wakeHere (s : State) (h : Nat) (hc : Canon s) : Canon (State.wakeHere s h) := by
  unfold State.wakeHere
  repeat' first | with_reducible assumption | with_reducible apply canon_inbound | with_reducible apply canon_wakeNow |
                 with_reducible apply canon_ite

theorem canon_admitNow (s : State) (h : Nat) (hc : Canon s) : Canon (State.admitNow s h) := by
  unfold State.admitNow
  repeat' first | with_reducible assumption | with_reducible apply canon_setCtx | with_reducible apply canon_ite

theorem canon_leaveWaitc (s : State) (h : Nat) (hc : Canon s) : Canon (State.leaveWaitc s h) := by
  unfold State.leaveWaitc
  repeat' first | with_reducible assumption | with_reducible apply canon_setCtx | with_reducible apply canon_ite |
                 split | (simp only [canon_mk_iff, wf_mem_iff])

theorem canon_lateNow (s : State) (h : Nat) (v : Word) (hc : Canon s) : Canon (State.lateNow s h v) := by
  unfold State.lateNow
  repeat' first | with_reducible assumption | with_reducible apply canon_leaveWaitc | with_reducible apply canon_setAux

theorem canon_takeInbound (s : State) (h : Nat) (hc : Canon s) : Canon (State.takeInbound s h) := by
  unfold State.takeInbound
  repeat' first | with_reducible assumption | (with_reducible intro _) | with_reducible apply canon_setCtx |
                 with_reducible apply canon_wakeNow | with_reducible apply canon_admitNow |
                 with_reducible apply canon_eiNow | with_reducible apply canon_lateNow |
                 with_reducible apply canon_setAux | with_reducible apply canon_foldl | split

theorem canon_takeAll (s : State) (n : Nat) (hc : Canon s) : Canon (State.takeAll s n) := by
  unfold State.takeAll
  repeat' first | with_reducible assumption | (with_reducible intro _) | with_reducible apply canon_takeInbound |
                 with_reducible apply canon_foldl | with_reducible apply canon_ite

theorem canon_checkerStrike (s : State) (h : Nat) (n : Nat) (hc : Canon s) : Canon (State.checkerStrike s h n) := by
  unfold State.checkerStrike
  repeat' first | with_reducible assumption | (with_reducible intro _) | with_reducible apply canon_elog |
                 with_reducible apply canon_capEvent | with_reducible apply canon_killByHardware |
                 with_reducible apply canon_trace | with_reducible apply canon_setCtx |
                 with_reducible apply canon_reserve | with_reducible apply canon_squash |
                 with_reducible apply canon_foldl | with_reducible apply canon_ite | split

theorem canon_note (s : State) (kind : Nat) (reg : Nat) (target : Nat) (ref : Nat) (hc : Canon s) : Canon (State.note s kind
    reg target ref) := by
  unfold State.note
  repeat' first | with_reducible assumption | with_reducible apply canon_setAux

theorem canon_ask (s : State) (d : Reg) (hc : Canon s) : Canon (s.ask d).2 := by
  unfold State.ask
  repeat' first | with_reducible assumption | with_reducible apply canon_newId | with_reducible apply canon_await

theorem canon_beginWait (s : State) (w : WaitFor) (id : optParam Nat 0) (hc : Canon s) : Canon (State.beginWait s w id) := by
  unfold State.beginWait
  repeat' first | with_reducible assumption | with_reducible apply canon_advance | with_reducible apply canon_hold |
                 with_reducible apply canon_note | with_reducible apply canon_setAux |
                 with_reducible apply canon_setHart | with_reducible apply canon_endChunk

theorem canon_mac (s : State) (ad : Reg3) (va : Reg) (vb : Reg) (w : Nat) (lane : Nat → (Nat → Nat) → (Nat → Nat) → Nat →
    Nat) (hc : Canon s) : Canon (State.mac s ad va vb w lane) := by
  unfold State.mac
  repeat' first | with_reducible assumption | with_reducible apply canon_step4 | with_reducible apply canon_setAcc

theorem canon_capTime (s : State) (h : Nat) (n : Nat) (hc : Canon s) : Canon (State.capTime s h n) := by
  unfold State.capTime
  repeat' first | with_reducible assumption | with_reducible apply canon_capEvent | with_reducible apply canon_ite |
                 split

theorem canon_pokeWaits (s : State) (hc : Canon s) : Canon (State.pokeWaits s) := by
  unfold State.pokeWaits
  repeat' first | with_reducible assumption | (with_reducible intro _) | with_reducible apply canon_poke |
                 with_reducible apply canon_foldl | with_reducible apply canon_ite | split

theorem canon_pokeFrond (s : State) (f : Nat) (hc : Canon s) : Canon (State.pokeFrond s f) := by
  unfold State.pokeFrond
  repeat' first | with_reducible assumption | (with_reducible intro _) | with_reducible apply canon_poke |
                 with_reducible apply canon_foldl | with_reducible apply canon_ite

theorem canon_pokeTimers (s : State) (hc : Canon s) : Canon (State.pokeTimers s) := by
  unfold State.pokeTimers
  repeat' first | with_reducible assumption | (simp only [canon_mk_iff, wf_mem_iff])

theorem canon_pokeBeacons (s : State) (hc : Canon s) : Canon (State.pokeBeacons s) := by
  unfold State.pokeBeacons
  repeat' first | with_reducible assumption | (with_reducible intro _) | with_reducible apply canon_poke |
                 with_reducible apply canon_foldl | with_reducible apply canon_ite

theorem canon_pokeSync (s : State) (old : State) (hc : Canon s) : Canon (State.pokeSync s old) := by
  unfold State.pokeSync
  repeat' first | with_reducible assumption | (with_reducible intro _) | with_reducible apply canon_after |
                 with_reducible apply canon_poke | with_reducible apply canon_foldl | with_reducible apply canon_ite

theorem canon_slopeSorus (s : State) (n : Nat) (hc : Canon s) : Canon (State.slopeSorus s n) := by
  unfold State.slopeSorus
  repeat' first | with_reducible assumption | with_reducible apply canon_setSorus | with_reducible apply canon_after |
                 with_reducible apply canon_ite

theorem canon_slopeAll (s : State) (hc : Canon s) : Canon (State.slopeAll s) := by
  unfold State.slopeAll
  repeat' first | with_reducible assumption | (with_reducible intro _) | with_reducible apply canon_slopeSorus |
                 with_reducible apply canon_foldl

theorem canon_pokePeriods (s : State) (hc : Canon s) : Canon (State.pokePeriods s) := by
  unfold State.pokePeriods
  repeat' first | with_reducible assumption | with_reducible apply canon_slopeAll | with_reducible apply canon_poke |
                 with_reducible apply canon_pokeBeacons | with_reducible apply canon_ite

theorem canon_startSlew (s : State) (n : Nat) (hc : Canon s) : Canon (State.startSlew s n) := by
  unfold State.startSlew
  repeat' first | with_reducible assumption | (with_reducible intro _) | with_reducible apply canon_after |
                 with_reducible apply canon_clkChangeAt | with_reducible apply canon_setSx |
                 with_reducible apply canon_traceSync | with_reducible apply canon_foldl |
                 with_reducible apply canon_ite | split | (simp only [canon_mk_iff, wf_mem_iff])

theorem canon_startSlews (s : State) (hc : Canon s) : Canon (State.startSlews s) := by
  unfold State.startSlews
  repeat' first | with_reducible assumption | (with_reducible intro _) | with_reducible apply canon_startSlew |
                 with_reducible apply canon_foldl

theorem canon_passTo (s : State) (n : Nat) (skew : Tab Int) (hc : Canon s) : Canon (State.passTo s n skew) := by
  unfold State.passTo
  repeat' first | with_reducible assumption | (with_reducible intro _) | with_reducible apply canon_capTime |
                 with_reducible apply canon_pokeWaits | with_reducible apply canon_pokeTimers |
                 with_reducible apply canon_pokeSync | with_reducible apply canon_pokePeriods |
                 with_reducible apply canon_startSlews | with_reducible apply canon_foldl |
                 (simp only [canon_mk_iff, wf_mem_iff])

theorem canon_pass (s : State) (n : Nat) (hc : Canon s) : Canon (State.pass s n) := by
  unfold State.pass
  repeat' first | with_reducible assumption | (with_reducible intro _) | with_reducible apply canon_pokeFrond |
                 with_reducible apply canon_passTo | with_reducible apply canon_foldl

theorem canon_ticks (s : State) (a1 : Nat) (hc : Canon s) : Canon (State.ticks s a1) := by
  induction a1 generalizing s with
  | zero => exact hc
  | succ n ih => exact canon_ite (ih _ (canon_pass _ _ hc)) hc

theorem canon_endStepping (s : State) (hc : Canon s) : Canon (State.endStepping s) := by
  unfold State.endStepping
  repeat' first | with_reducible assumption | with_reducible apply canon_setSx | with_reducible apply canon_ite

theorem canon_giveTurn (s : State) (L : Nat) (hc : Canon s) : Canon (State.giveTurn s L) := by
  unfold State.giveTurn
  repeat' first | with_reducible assumption | with_reducible apply canon_offer | split

theorem canon_offerAnew (s : State) (hc : Canon s) : Canon (State.offerAnew s) := by
  unfold State.offerAnew
  repeat' first | with_reducible assumption | (simp only [canon_mk_iff, wf_mem_iff])

theorem canon_timeStep (s : State) (hc : Canon s) : Canon (State.timeStep s) := by
  unfold State.timeStep
  repeat' first | with_reducible assumption | with_reducible apply canon_endTurn |
                 with_reducible apply canon_endStepping | with_reducible apply canon_giveTurn |
                 with_reducible apply canon_pass | with_reducible apply canon_offerAnew |
                 with_reducible apply canon_ite | split | (simp only [canon_mk_iff, wf_mem_iff])

theorem canon_issueOn (s : State) (L : Nat) (hc : Canon s) : Canon (State.issueOn s L) := by
  unfold State.issueOn
  repeat' first | with_reducible assumption | with_reducible apply canon_endTurn | with_reducible apply canon_giveTurn |
                 with_reducible apply canon_setCore | with_reducible apply canon_ite

theorem canon_tlbFill (s : State) (n : Nat) (va : Word) (hc : Canon s) : Canon (State.tlbFill s n va) := by
  unfold State.tlbFill
  refine canon_ite hc ?_
  split
  · exact canon_setSx _ _ _ hc
  · exact hc

theorem canon_icacheFill (s : State) (L : Nat) (pa : Nat) (hc : Canon s) : Canon (State.icacheFill s L pa) := by
  unfold State.icacheFill
  repeat' first | with_reducible assumption | with_reducible apply canon_setCore

theorem canon_dcacheFill (s : State) (n : Nat) (line : Nat) (hc : Canon s) : Canon (State.dcacheFill s n line) := by
  unfold State.dcacheFill
  repeat' first | with_reducible assumption | with_reducible apply canon_setSx | with_reducible apply canon_ite

theorem canon_driftFrond (s : State) (f : Nat) (up : Bool) (hc : Canon s) : Canon (State.driftFrond s f up) := by
  unfold State.driftFrond
  repeat' first | with_reducible assumption | (with_reducible intro _) | with_reducible apply canon_pokeFrond |
                 with_reducible apply canon_passTo | with_reducible apply canon_foldl | with_reducible apply canon_ite |
                 split | (simp only [canon_mk_iff, wf_mem_iff])

theorem canon_coreEndPhase (s : State) (L : Nat) (hc : Canon s) : Canon (State.coreEndPhase s L) := by
  unfold State.coreEndPhase
  repeat' first | with_reducible assumption | (with_reducible intro _) | with_reducible apply canon_setAux |
                 with_reducible apply canon_setCtx | with_reducible apply canon_bankDown |
                 with_reducible apply canon_clearRange | with_reducible apply canon_setCore |
                 with_reducible apply canon_foldl | with_reducible apply canon_ite

theorem canon_serve (s : State) (L : Nat) (hc : Canon s) : Canon (State.serve s L) := by
  unfold State.serve
  repeat' first | with_reducible assumption | with_reducible apply canon_setCore | with_reducible apply canon_poke |
                 split | (simp only [canon_mk_iff, wf_mem_iff])

theorem canon_scanFinish (s : State) (sid : Nat) (result : Nat) (obs : Word) (hc : Canon s) : Canon (State.scanFinish s sid
    result obs) := by
  unfold State.scanFinish
  repeat' first | with_reducible assumption | with_reducible apply canon_coreEndPhase |
                 with_reducible apply canon_writeNat | with_reducible apply canon_setCore |
                 with_reducible apply canon_serve | with_reducible apply canon_ite | split |
                 (simp only [canon_mk_iff, wf_mem_iff])

theorem canon_patternEnd (s : State) (L : Nat) (sid : Nat) (hc : Canon s) : Canon (State.patternEnd s L sid) := by
  unfold State.patternEnd
  repeat' first | with_reducible assumption | with_reducible apply canon_scanFinish | with_reducible apply canon_ite |
                 split

theorem canon_scanRelease (s : State) (sid : Nat) (hc : Canon s) : Canon (State.scanRelease s sid) := by
  unfold State.scanRelease
  repeat' first | with_reducible assumption | with_reducible apply canon_setCore | split |
                 (simp only [canon_mk_iff, wf_mem_iff])

theorem canon_advanceEpoch (s : State) (n : Nat) (hc : Canon s) : Canon (State.advanceEpoch s n) := by
  unfold State.advanceEpoch
  repeat' first | with_reducible assumption | with_reducible apply canon_setSorus

theorem canon_mapRemove (s : State) (L : Nat) (hc : Canon s) : Canon (State.mapRemove s L) := by
  unfold State.mapRemove
  repeat' first | with_reducible assumption | with_reducible apply canon_scanRelease |
                 with_reducible apply canon_patternEnd | with_reducible apply canon_scanFinish |
                 with_reducible apply canon_setSorus | with_reducible apply canon_poke |
                 with_reducible apply canon_advanceEpoch | with_reducible apply canon_ite | split |
                 (simp only [canon_mk_iff, wf_mem_iff])

theorem canon_mapAdd (s : State) (L : Nat) (hc : Canon s) : Canon (State.mapAdd s L) := by
  unfold State.mapAdd
  repeat' first | with_reducible assumption | with_reducible apply canon_serve |
                 with_reducible apply canon_coreEndPhase | with_reducible apply canon_ite |
                 (simp only [canon_mk_iff, wf_mem_iff])

theorem canon_restartPorts (s : State) (h : Nat) (hc : Canon s) : Canon (State.restartPorts s h) := by
  unfold State.restartPorts
  repeat' first | with_reducible assumption | (with_reducible intro _) | with_reducible apply canon_setAux |
                 with_reducible apply canon_poke | with_reducible apply canon_foldl

theorem canon_restartParked (s : State) (p : Nat) (hc : Canon s) : Canon (State.restartParked s p) := by
  unfold State.restartParked
  repeat' first | with_reducible assumption | (with_reducible intro _) | with_reducible apply canon_poke |
                 with_reducible apply canon_setCore | with_reducible apply canon_restartPorts |
                 with_reducible apply canon_foldl | with_reducible apply canon_ite |
                 (simp only [canon_mk_iff, wf_mem_iff])

theorem canon_tlbFlush (s : State) (p : Nat) (page : Option Nat) (hc : Canon s) : Canon (State.tlbFlush s p page) := by
  unfold State.tlbFlush
  repeat' first | with_reducible assumption | split | (simp only [canon_mk_iff, wf_mem_iff])

theorem canon_writePtroot (s : State) (p : Nat) (v : Word) (hc : Canon s) : Canon (State.writePtroot s p v) := by
  unfold State.writePtroot
  repeat' first | with_reducible assumption | with_reducible apply canon_restartParked |
                 with_reducible apply canon_tlbFlush | with_reducible apply canon_setPart

theorem canon_writeTlbinv (s : State) (p : Nat) (v : Word) (hc : Canon s) : Canon (State.writeTlbinv s p v) := by
  unfold State.writeTlbinv
  repeat' first | with_reducible assumption | with_reducible apply canon_setPart | with_reducible apply canon_tlbFlush |
                 with_reducible apply canon_restartParked | with_reducible apply canon_ite |
                 (simp only [canon_mk_iff, wf_mem_iff])

theorem canon_putPtroot (s : State) (p : Nat) (v : Word) (hc : Canon s) : Canon (State.putPtroot s p v) := by
  unfold State.putPtroot
  repeat' first | with_reducible assumption | with_reducible apply canon_after |
                 with_reducible apply canon_writePtroot | with_reducible apply canon_ite

theorem canon_putTlbinv (s : State) (p : Nat) (v : Word) (hc : Canon s) : Canon (State.putTlbinv s p v) := by
  unfold State.putTlbinv
  repeat' first | with_reducible assumption | with_reducible apply canon_after |
                 with_reducible apply canon_writeTlbinv | with_reducible apply canon_ite

theorem canon_dropDatagram (s : State) (port : Nat) (reason : Nat) (src : Nat) (hc : Canon s) : Canon (State.dropDatagram s
    port reason src) := by
  unfold State.dropDatagram
  repeat' first | with_reducible assumption | with_reducible apply canon_elog | with_reducible apply canon_ite |
                 (simp only [canon_mk_iff, wf_mem_iff])

theorem canon_emitDatagram (s : State) (t : Nat) (m : Nat) (n : Nat) (body : DgBody) (hc : Canon s) : Canon
    (State.emitDatagram s t m n body) := by
  unfold State.emitDatagram
  repeat' first | with_reducible assumption | with_reducible apply canon_emit

theorem canon_sendDatagram (s : State) (t : Nat) (m : Nat) (a : Nat) (b : Nat) (body : DgBody) (hc : Canon s) : Canon
    (State.sendDatagram s t m a b body) := by
  unfold State.sendDatagram
  repeat' first | with_reducible assumption | with_reducible apply canon_dropDatagram |
                 with_reducible apply canon_emitDatagram | split

theorem canon_revokeWindow (s : State) (w : Nat) (hc : Canon s) : Canon (State.revokeWindow s w) := by
  unfold State.revokeWindow
  repeat' first | with_reducible assumption | (simp only [canon_mk_iff, wf_mem_iff])

theorem canon_ckSend (s : State) (unit : Nat) (port : Nat) (hc : Canon s) : Canon (State.ckSend s unit port) := by
  unfold State.ckSend
  repeat' first | with_reducible assumption | with_reducible apply canon_emit |
                 with_reducible apply canon_dropDatagram | with_reducible apply canon_after |
                 with_reducible apply canon_ite

theorem canon_ckFill (s : State) (hc : Canon s) : Canon (State.ckFill s) := by
  unfold State.ckFill
  repeat' first | with_reducible assumption | (with_reducible intro _) | with_reducible apply canon_ckSend |
                 with_reducible apply canon_foldl | with_reducible apply canon_ite |
                 (simp only [canon_mk_iff, wf_mem_iff])

theorem canon_ckEnd (s : State) (st : Nat) (hc : Canon s) : Canon (State.ckEnd s st) := by
  unfold State.ckEnd
  repeat' first | with_reducible assumption | (simp only [canon_mk_iff, wf_mem_iff])

theorem canon_writeCkcfg (s : State) (v : Word) (hc : Canon s) : Canon (State.writeCkcfg s v) := by
  have go (c d e f : Word) (b : Bool) : Canon (
      if s.fabric.ckstate = 1 then { s with fabric := { s.fabric with ckcfg := d } }
      else
        let s := { s with fabric := { s.fabric with ckcfg := c } }
        if !b then s
        else
          let s := { s with fabric := { s.fabric with ckrun := e, ckdone := 0, ckunits := [], cknext := 0 } }
          if !s.ckReady then s.ckEnd 3
          else
            let s := { s with fabric := { s.fabric with ckstate := 1, ckcfg := f } }
            if s.capacity = 0 then s.ckEnd 2 else s.ckFill) :=
    canon_ite (canon_mk hc) (canon_ite (canon_mk hc) (canon_ite (canon_ckEnd _ _ (canon_mk hc))
      (canon_ite (canon_ckEnd _ _ (canon_mk hc)) (canon_ckFill _ (canon_mk hc)))))
  exact go _ _ _ _ _

theorem canon_writeHte (s : State) (L : Nat) (n : Nat) (v : Word) (mmode : Bool) (hc : Canon s) : Canon (State.writeHte s L n
    v mmode) := by
  unfold State.writeHte
  repeat' first | with_reducible assumption | with_reducible apply canon_poke | with_reducible apply canon_setCore

theorem canon_writeChmask (s : State) (L : Nat) (v : Word) (p : Priv) (hc : Canon s) : Canon (State.writeChmask s L v p) := by
  unfold State.writeChmask
  repeat' first | with_reducible assumption | with_reducible apply canon_poke | with_reducible apply canon_setCore

theorem canon_writeSpart (s : State) (n : Nat) (v : Word) (hc : Canon s) : Canon (State.writeSpart s n v) := by
  unfold State.writeSpart
  repeat' first | with_reducible assumption | with_reducible apply canon_poke | with_reducible apply canon_setSorus |
                 with_reducible apply canon_ite

theorem canon_writeExpw1 (s : State) (w : Nat) (v : Word) (hc : Canon s) : Canon (State.writeExpw1 s w v) := by
  unfold State.writeExpw1
  repeat' first | with_reducible assumption | with_reducible apply canon_revokeWindow | with_reducible apply canon_ite |
                 (simp only [canon_mk_iff, wf_mem_iff])

theorem canon_tenantChanged (s : State) (n : Nat) (hc : Canon s) : Canon (State.tenantChanged s n) := by
  unfold State.tenantChanged
  repeat' first | with_reducible assumption | (with_reducible intro _) | with_reducible apply canon_setSorus |
                 with_reducible apply canon_setCore | with_reducible apply canon_foldl | with_reducible apply canon_ite

theorem canon_writePartcfg (s : State) (p : Nat) (v : Word) (hc : Canon s) : Canon (State.writePartcfg s p v) := by
  unfold State.writePartcfg
  repeat' first | with_reducible assumption | (with_reducible intro _) | with_reducible apply canon_setPart |
                 with_reducible apply canon_tenantChanged | with_reducible apply canon_foldl |
                 with_reducible apply canon_ite

theorem canon_writePost (s : State) (L : Nat) (v : Word) (hc : Canon s) : Canon (State.writePost s L v) := by
  unfold State.writePost
  repeat' first | with_reducible assumption | with_reducible apply canon_setCore | with_reducible apply canon_newId |
                 with_reducible apply canon_poke | with_reducible apply canon_ite |
                 (simp only [canon_mk_iff, wf_mem_iff])

theorem canon_hubWrite (s : State) (r : HubReg) (v : Word) (hc : Canon s) : Canon (State.hubWrite s r v) := by
  unfold State.hubWrite
  repeat' first | with_reducible assumption | with_reducible apply canon_setSorus |
                 with_reducible apply canon_mapRemove | with_reducible apply canon_mapAdd |
                 with_reducible apply canon_setSlot | with_reducible apply canon_setPart |
                 with_reducible apply canon_putPtroot | with_reducible apply canon_writeSpart |
                 with_reducible apply canon_poke | with_reducible apply canon_writePartcfg |
                 with_reducible apply canon_writeExpw1 | with_reducible apply canon_writeCkcfg |
                 with_reducible apply canon_writeHte | with_reducible apply canon_setCore |
                 with_reducible apply canon_writePost | with_reducible apply canon_ite | split |
                 (simp only [canon_mk_iff, wf_mem_iff])

theorem canon_clearPstat (s : State) (n : Nat) (hc : Canon s) : Canon (State.clearPstat s n) := by
  unfold State.clearPstat
  repeat' first | with_reducible assumption | (simp only [canon_mk_iff, wf_mem_iff])

theorem canon_pokeSorus (s : State) (n : Nat) (hc : Canon s) : Canon (State.pokeSorus s n) := by
  unfold State.pokeSorus
  repeat' first | with_reducible assumption | (with_reducible intro _) | with_reducible apply canon_poke |
                 with_reducible apply canon_foldl | with_reducible apply canon_ite | split

theorem canon_dlPause (s : State) (n : Nat) (hc : Canon s) : Canon (State.dlPause s n) := by
  unfold State.dlPause
  repeat' first | with_reducible assumption | (with_reducible intro _) | with_reducible apply canon_setLaunch |
                 with_reducible apply canon_foldl | split

theorem canon_dlResume (s : State) (n : Nat) (hc : Canon s) : Canon (State.dlResume s n) := by
  unfold State.dlResume
  repeat' first | with_reducible assumption | (with_reducible intro _) | with_reducible apply canon_after |
                 with_reducible apply canon_setLaunch | with_reducible apply canon_foldl |
                 with_reducible apply canon_ite | split

theorem canon_haltEngines (s : State) (n : Nat) (hc : Canon s) : Canon (State.haltEngines s n) := by
  unfold State.haltEngines
  repeat' first | with_reducible assumption | (with_reducible intro _) | with_reducible apply canon_poke |
                 with_reducible apply canon_setCore | with_reducible apply canon_foldl |
                 with_reducible apply canon_ite | split | (simp only [canon_mk_iff, wf_mem_iff])

theorem canon_haltOne (s : State) (n : Nat) (hc : Canon s) : Canon (State.haltOne s n) := by
  unfold State.haltOne
  repeat' first | with_reducible assumption | with_reducible apply canon_traceRecord |
                 with_reducible apply canon_haltEngines | with_reducible apply canon_dlPause |
                 with_reducible apply canon_setSx | with_reducible apply canon_ite

theorem canon_haltWave (a0 : Nat) (a1 : List Nat) (a2 : State) (hc : Canon a2) : Canon (State.haltWave a0 a1 a2) := by
  induction a0 generalizing a1 a2 with
  | zero => exact hc
  | succ n ih =>
    unfold State.haltWave
    exact canon_ite hc (ih _ _ (canon_foldl _ _ _ hc (fun s a h => canon_haltOne _ _ h)))

theorem canon_haltSorus (s : State) (n : Nat) (hc : Canon s) : Canon (State.haltSorus s n) := by
  unfold State.haltSorus
  repeat' first | with_reducible assumption | with_reducible apply canon_haltWave

theorem canon_drainHeld (s : State) (n : Nat) (hc : Canon s) : Canon (State.drainHeld s n) := by
  unfold State.drainHeld
  repeat' first | with_reducible assumption | (with_reducible intro _) | with_reducible apply canon_setCtx |
                 with_reducible apply canon_poke | with_reducible apply canon_foldl | with_reducible apply canon_ite |
                 split

theorem canon_resumeSorus (s : State) (n : Nat) (hc : Canon s) : Canon (State.resumeSorus s n) := by
  unfold State.resumeSorus
  repeat' first | with_reducible assumption | with_reducible apply canon_pokeSorus |
                 with_reducible apply canon_drainHeld | with_reducible apply canon_dlResume |
                 with_reducible apply canon_takeAll | with_reducible apply canon_setSx | with_reducible apply canon_ite

theorem canon_stepSorus (s : State) (n : Nat) (sel : Word) (hc : Canon s) : Canon (State.stepSorus s n sel) := by
  unfold State.stepSorus
  repeat' first | with_reducible assumption | with_reducible apply canon_setSx | with_reducible apply canon_ite |
                 (simp only [canon_mk_iff, wf_mem_iff])

theorem canon_writeDbgctl (s : State) (n : Nat) (sel : Word) (v : Word) (hc : Canon s) : Canon (State.writeDbgctl s n sel v) := by
  unfold State.writeDbgctl
  repeat' first | with_reducible assumption | with_reducible apply canon_setSx |
                 with_reducible apply canon_resumeSorus | with_reducible apply canon_haltSorus |
                 with_reducible apply canon_stepSorus | with_reducible apply canon_ite

theorem canon_trapPut (s : State) (h : Nat) (c : Nat) (v : Word) (hc : Canon s) : Canon (State.trapPut s h c v) := by
  unfold State.trapPut
  repeat' first | with_reducible assumption | with_reducible apply canon_setCtx | with_reducible apply canon_setCore |
                 with_reducible apply canon_ite

theorem canon_putSel (s : State) (n : Nat) (via : Option Nat) (c : Nat) (v : Word) (hc : Canon s) : Canon (State.putSel s n
    via c v) := by
  unfold State.putSel
  repeat' first | with_reducible assumption | with_reducible apply canon_setAux | with_reducible apply canon_setSx |
                 split

theorem canon_debugPut (s : State) (n : Nat) (via : Option Nat) (c : Nat) (v : Word) (hc : Canon s) : Canon (State.debugPut s
    n via c v) := by
  unfold State.debugPut
  repeat' first | with_reducible assumption | with_reducible apply canon_writeDbgctl |
                 with_reducible apply canon_putSel | with_reducible apply canon_setSx |
                 with_reducible apply canon_setCore | with_reducible apply canon_ite |
                 (simp only [canon_mk_iff, wf_mem_iff])

theorem canon_writeFinj (s : State) (L : Nat) (fromM : Bool) (v : Word) (hc : Canon s) : Canon (State.writeFinj s L fromM v) := by
  unfold State.writeFinj
  repeat' first | with_reducible assumption | with_reducible apply canon_setCore

theorem canon_clearFinj (s : State) (L : Nat) (hc : Canon s) : Canon (State.clearFinj s L) := by
  unfold State.clearFinj
  repeat' first | with_reducible assumption | with_reducible apply canon_setCore

theorem canon_writeBoost (s : State) (h : Nat) (v : Word) (hc : Canon s) : Canon (State.writeBoost s h v) := by
  unfold State.writeBoost
  repeat' first | with_reducible assumption | with_reducible apply canon_setAux

theorem canon_userPut (s : State) (h : Nat) (c : Nat) (v : Word) (p : Priv) (hc : Canon s) : Canon (State.userPut s h c v p) := by
  unfold State.userPut
  repeat' first | with_reducible assumption | with_reducible apply canon_writeBoost |
                 with_reducible apply canon_writeChmask | with_reducible apply canon_hubWrite |
                 with_reducible apply canon_setCore | with_reducible apply canon_writeHte |
                 with_reducible apply canon_setAux | with_reducible apply canon_ite

theorem canon_csrPut0 (s : State) (h : Nat) (c : Nat) (v : Word) (p : Priv) (hc : Canon s) : Canon (State.csrPut0 s h c v p) := by
  unfold State.csrPut0
  repeat' first | with_reducible assumption | with_reducible apply canon_trapPut |
                 with_reducible apply canon_putPtroot | with_reducible apply canon_putTlbinv |
                 with_reducible apply canon_writeFinj | with_reducible apply canon_debugPut |
                 with_reducible apply canon_hubWrite | with_reducible apply canon_setCore |
                 with_reducible apply canon_userPut | with_reducible apply canon_ite

theorem canon_writeDbgrdat (s : State) (h : Nat) (ridx : Word) (v : Word) (hc : Canon s) : Canon (State.writeDbgrdat s h ridx
    v) := by
  unfold State.writeDbgrdat
  repeat' first | with_reducible assumption | with_reducible apply canon_csrPut0 | with_reducible apply canon_setCtx |
                 with_reducible apply canon_ite | split | (simp only [canon_mk_iff, wf_mem_iff])

theorem canon_csrPut (s : State) (h : Nat) (c : Nat) (v : Word) (p : Priv) (hc : Canon s) : Canon (State.csrPut s h c v p) := by
  unfold State.csrPut
  repeat' first | with_reducible assumption | with_reducible apply canon_hubWrite |
                 with_reducible apply canon_writeDbgrdat | with_reducible apply canon_csrPut0 |
                 with_reducible apply canon_ite | split

theorem canon_csrCommit (s : State) (h : Nat) (c : Nat) (op : Nat) (v : Word) (p : Priv) (rd : Nat) (hc : Canon s) : Canon
    (State.csrCommit s h c op v p rd) := by
  unfold State.csrCommit
  repeat' first | with_reducible assumption | with_reducible apply canon_setCtx | with_reducible apply canon_csrPut |
                 with_reducible apply canon_ite

theorem canon_csrClear (s : State) (h : Nat) (c : Nat) (hc : Canon s) : Canon (State.csrClear s h c) := by
  unfold State.csrClear
  repeat' first | with_reducible assumption | with_reducible apply canon_clearPstat |
                 with_reducible apply canon_clearFinj | with_reducible apply canon_ite | split

theorem canon_fetchGo (s : State) (h : Nat) (q : Nat) (hc : Canon s) : Canon (State.fetchGo s h q) := by
  unfold State.fetchGo
  repeat' first | with_reducible assumption | with_reducible apply canon_poke | with_reducible apply canon_setAux |
                 with_reducible apply canon_ite | split

theorem canon_setPort (s : State) (q : Nat) (p : Option Port) (hc : Canon s) : Canon (State.setPort s q p) := by
  unfold State.setPort
  repeat' first | with_reducible assumption | with_reducible apply canon_setHart

theorem canon_reqTimer (s : State) (q : Req) (t : Nat) (e : Event) (hc : Canon s) : Canon (State.reqTimer s q t e) := by
  unfold State.reqTimer
  repeat' first | with_reducible assumption | with_reducible apply canon_after | with_reducible apply canon_ite

theorem canon_startTimers (s : State) (rid : Nat) (hc : Canon s) : Canon (State.startTimers s rid) := by
  unfold State.startTimers
  repeat' first | with_reducible assumption | with_reducible apply canon_after | with_reducible apply canon_capEvent |
                 split | (simp only [canon_mk_iff, wf_mem_iff])

theorem canon_departed (s : State) (a1 : DgBody) (hc : Canon s) : Canon (State.departed s a1) := by
  unfold State.departed
  repeat' first | with_reducible assumption | with_reducible apply canon_after |
                 with_reducible apply canon_startTimers | with_reducible apply canon_poke |
                 with_reducible apply canon_ite | split | (simp only [canon_mk_iff, wf_mem_iff])

theorem canon_countFlits (s : State) (cls : Nat) (n : Nat) (ls : List (Nat × Nat)) (hc : Canon s) : Canon (State.countFlits s
    cls n ls) := by
  unfold State.countFlits
  repeat' first | with_reducible assumption | (simp only [canon_mk_iff, wf_mem_iff])

theorem canon_countOut (s : State) (a : Nat) (n : Nat) (a3 : DgBody) (hc : Canon s) : Canon (State.countOut s a n a3) := by
  unfold State.countOut
  repeat' first | with_reducible assumption | with_reducible apply canon_countFlits | split

theorem canon_outDo (s : State) (t c : Nat) (a : OutAct) (hc : Canon s) : CanonOpt (s.outDo t c a) := by
  unfold State.outDo
  split
  · split
    · exact canonOpt_some (canon_departed _ _ (canon_dropDatagram _ _ _ _ hc))
    · exact canonOpt_map (canon_pay _ _ _ hc) (fun s h => canon_departed _ _ (canon_countOut _ _ _ _ (canon_emitDatagram _ _ _ _ _ h)))
  · exact canonOpt_map (canon_pay _ _ _ hc) (fun s h => canon_poke _ _ (canon_setSlot _ _ _ h))

theorem canon_outSend (s : State) (t : Nat) (c : Nat) (a : OutAct) (hc : Canon s) : Canon (State.outSend s t c a) := by
  unfold State.outSend
  dsimp only
  have h1 : CanonOpt (if (s.trimmed t).queue.isEmpty = true then (s.setSlot t (s.trimmed t)).outDo t c a else none) :=
    canonOpt_ite (canon_outDo _ _ _ _ (canon_setSlot _ _ _ hc)) canonOpt_none
  split
  · exact h1 _ (by assumption)
  · exact canon_stallSlot _ _ (canon_setSlot _ _ _ hc)

theorem canon_noteSent (s : State) (tag : Nat) (slot : Nat) (hc : Canon s) : Canon (State.noteSent s tag slot) := by
  unfold State.noteSent
  repeat' first | with_reducible assumption | (simp only [canon_mk_iff, wf_mem_iff])

theorem canon_sendOwed (s : State) (t : Nat) (m : Nat) (a : Nat) (b : Nat) (cost : Nat) (body : DgBody) (hc : Canon s) :
    Canon (State.sendOwed s t m a b cost body) := by
  unfold State.sendOwed
  repeat' first | with_reducible assumption | with_reducible apply canon_dropDatagram |
                 with_reducible apply canon_emitDatagram | with_reducible apply canon_owe | split

theorem canon_finjDone (s : State) (L : Nat) (hc : Canon s) : Canon (State.finjDone s L) := by
  unfold State.finjDone
  repeat' first | with_reducible assumption | with_reducible apply canon_setCore

theorem canon_dropMessage (s : State) (f : Option Firing) (L0 : Nat) (L : Nat) (why : Nat) (hc : Canon s) : Canon
    (State.dropMessage s f L0 L why) := by
  unfold State.dropMessage
  repeat' first | with_reducible assumption | with_reducible apply canon_countFault | with_reducible apply canon_elog |
                 split

theorem canon_postMessage (s : State) (m : Msg) (hc : Canon s) : Canon (State.postMessage s m) := by
  unfold State.postMessage
  repeat' first | with_reducible assumption | with_reducible apply canon_newId | with_reducible apply canon_poke |
                 (simp only [canon_mk_iff, wf_mem_iff])

theorem canon_sendOut (s : State) (h : Nat) (target : Word) (ch : Nat) (ws : List Word) (srcw : Word) (rep : Bool) (hc :
    Canon s) : Canon (State.sendOut s h target ch ws srcw rep) := by
  unfold State.sendOut
  repeat' first | with_reducible assumption | with_reducible apply canon_finjDone | with_reducible apply canon_outSend |
                 with_reducible apply canon_dropMessage | with_reducible apply canon_postMessage |
                 with_reducible apply canon_ite

theorem canon_pokeChannel (s : State) (L : Nat) (ch : Nat) (hc : Canon s) : Canon (State.pokeChannel s L ch) := by
  unfold State.pokeChannel
  repeat' first | with_reducible assumption | (with_reducible intro _) | with_reducible apply canon_poke |
                 with_reducible apply canon_foldl | with_reducible apply canon_ite

theorem canon_dropMsg (s : State) (id : Nat) (hc : Canon s) : Canon (State.dropMsg s id) := by
  unfold State.dropMsg
  repeat' first | with_reducible assumption | (simp only [canon_mk_iff, wf_mem_iff])

theorem canon_releaseMsg (s : State) (id : Nat) (hc : Canon s) : Canon (State.releaseMsg s id) := by
  unfold State.releaseMsg
  repeat' first | with_reducible assumption | with_reducible apply canon_setCore |
                 with_reducible apply canon_pokeChannel | with_reducible apply canon_after |
                 with_reducible apply canon_countFlits | with_reducible apply canon_ite | split |
                 (simp only [canon_mk_iff, wf_mem_iff])

theorem canon_countKey (s : State) (k : Option (Nat × Nat)) (hc : Canon s) : Canon (State.countKey s k) := by
  unfold State.countKey
  repeat' first | with_reducible assumption | with_reducible apply canon_setLaunch | with_reducible apply canon_ite |
                 split

theorem canon_enterMsg (s : State) (m : Msg) (hc : Canon s) : Canon (State.enterMsg s m) := by
  unfold State.enterMsg
  repeat' first | with_reducible assumption | with_reducible apply canon_elog | with_reducible apply canon_countKey |
                 with_reducible apply canon_finjDone | with_reducible apply canon_poke |
                 with_reducible apply canon_setCore | with_reducible apply canon_ite

theorem canon_arriveMsg (s : State) (id : Nat) (hc : Canon s) : Canon (State.arriveMsg s id) := by
  unfold State.arriveMsg
  repeat' first | with_reducible assumption | (with_reducible intro _) | with_reducible apply canon_dropMsg |
                 with_reducible apply canon_poke | with_reducible apply canon_setCore |
                 with_reducible apply canon_enterMsg | with_reducible apply canon_pokeChannel |
                 with_reducible apply canon_foldl | with_reducible apply canon_ite | split

theorem canon_reqDone (s : State) (rid : Nat) (hc : Canon s) : Canon (State.reqDone s rid) := by
  unfold State.reqDone
  repeat' first | with_reducible assumption | (simp only [canon_mk_iff, wf_mem_iff])

theorem canon_reqUnknown (s : State) (rid : Nat) (kind : Nat) (hc : Canon s) : Canon (State.reqUnknown s rid kind) := by
  unfold State.reqUnknown
  repeat' first | with_reducible assumption | with_reducible apply canon_reqDone | with_reducible apply canon_answer |
                 with_reducible apply canon_setEi | with_reducible apply canon_ite | split

theorem canon_requestsEnd (s : State) (fid : Nat) (hc : Canon s) : Canon (State.requestsEnd s fid) := by
  unfold State.requestsEnd
  repeat' first | with_reducible assumption | (with_reducible intro _) | with_reducible apply canon_setCore |
                 with_reducible apply canon_poke | with_reducible apply canon_foldl | with_reducible apply canon_ite

theorem canon_nextHeld (s : State) (fid : Nat) (hc : Canon s) : Canon (State.nextHeld s fid) := by
  unfold State.nextHeld
  repeat' first | with_reducible assumption | with_reducible apply canon_poke | split

theorem canon_reqLost (s : State) (rid : Nat) (q : Req) (hc : Canon s) : Canon (State.reqLost s rid q) := by
  unfold State.reqLost
  repeat' first | with_reducible assumption | with_reducible apply canon_nextHeld |
                 with_reducible apply canon_requestsEnd | with_reducible apply canon_reqUnknown

theorem canon_sendCopy (s : State) (rid : Nat) (n : Nat) (hc : Canon s) : Canon (State.sendCopy s rid n) := by
  unfold State.sendCopy
  repeat' first | with_reducible assumption | with_reducible apply canon_reqLost | with_reducible apply canon_noteSent |
                 with_reducible apply canon_outSend | with_reducible apply canon_sendOwed |
                 with_reducible apply canon_newId | with_reducible apply canon_poke | with_reducible apply canon_ite |
                 split | (simp only [canon_mk_iff, wf_mem_iff])

theorem canon_leaveReq (s : State) (rid : Nat) (hc : Canon s) : Canon (State.leaveReq s rid) := by
  unfold State.leaveReq
  repeat' first | with_reducible assumption | with_reducible apply canon_sendCopy |
                 with_reducible apply canon_startTimers | with_reducible apply canon_ite | split |
                 (simp only [canon_mk_iff, wf_mem_iff])

theorem canon_commitAtomic (s : State) (h : Nat) (id : Nat) (xd : Nat) (op : AtomicOp) (key : Nat) (win : Option Nat) (va :
    Word) (hc : Canon s) : Canon (State.commitAtomic s h id xd op key win va) := by
  unfold State.commitAtomic
  repeat' first | with_reducible assumption | with_reducible apply canon_setCtx | with_reducible apply canon_newId |
                 with_reducible apply canon_leaveReq | with_reducible apply canon_ite | split |
                 (simp only [canon_mk_iff, wf_mem_iff])

theorem canon_resendTimer (s : State) (rid : Nat) (q : Req) (n : Nat) (hc : Canon s) : Canon (State.resendTimer s rid q n) := by
  unfold State.resendTimer
  repeat' first | with_reducible assumption | with_reducible apply canon_reqTimer | split

theorem canon_resend (s : State) (rid : Nat) (hc : Canon s) : Canon (State.resend s rid) := by
  unfold State.resend
  repeat' first | with_reducible assumption | with_reducible apply canon_resendTimer |
                 with_reducible apply canon_capEvent | with_reducible apply canon_sendCopy |
                 with_reducible apply canon_ite | split | (simp only [canon_mk_iff, wf_mem_iff])

theorem canon_leaveHeld (s : State) (a1 : List Nat) (hc : Canon s) : Canon (State.leaveHeld s a1) := by
  induction a1 generalizing s with
  | nil => exact hc
  | cons rid rs ih =>
    unfold State.leaveHeld
    split
    · exact ih _ hc
    · split
      · exact canon_mk (wf_mem hc)
      · exact canon_ite hc (ih _ (canon_leaveReq _ _ hc))

theorem canon_wrapRelease (s : State) (rid : Nat) (hc : Canon s) : Canon (State.wrapRelease s rid) := by
  unfold State.wrapRelease
  repeat' first | with_reducible assumption | with_reducible apply canon_leaveHeld | with_reducible apply canon_ite |
                 split

theorem canon_wakeSaved (s : State) (fid : Nat) (hc : Canon s) : Canon (State.wakeSaved s fid) := by
  unfold State.wakeSaved
  repeat' first | with_reducible assumption | with_reducible apply canon_dlReset | with_reducible apply canon_setSaved |
                 split

theorem canon_release (s : State) (fid : Nat) (id : Nat) (a : Answer) (hc : Canon s) : Canon (State.release s fid id a) := by
  unfold State.release
  repeat' first | with_reducible assumption | with_reducible apply canon_answerWith | with_reducible apply canon_wake |
                 with_reducible apply canon_wakeSaved | split | (simp only [canon_mk_iff, wf_mem_iff])

theorem canon_ticketGet (s : State) (h : Nat) (id : Nat) (d : Nat) (hc : Canon s) : Canon (State.ticketGet s h id d) := by
  unfold State.ticketGet
  repeat' first | with_reducible assumption | with_reducible apply canon_setSorus |
                 with_reducible apply canon_answerHere

theorem canon_ticketWake (s : State) (n : Nat) (d : Nat) (hc : Canon s) : Canon (State.ticketWake s n d) := by
  unfold State.ticketWake
  repeat' first | with_reducible assumption | (with_reducible intro _) | with_reducible apply canon_wakeHere |
                 with_reducible apply canon_wakeSaved | with_reducible apply canon_foldl |
                 with_reducible apply canon_ite

theorem canon_ticketLift (s : State) (n : Nat) (d : Nat) (hc : Canon s) : Canon (State.ticketLift s n d) := by
  unfold State.ticketLift
  repeat' first | with_reducible assumption | with_reducible apply canon_setCore | with_reducible apply canon_setSaved |
                 with_reducible apply canon_poke | with_reducible apply canon_ite | split |
                 (simp only [canon_mk_iff, wf_mem_iff])

theorem canon_ticketAdv (s : State) (h : Nat) (d : Nat) (hc : Canon s) : Canon (State.ticketAdv s h d) := by
  unfold State.ticketAdv
  repeat' first | with_reducible assumption | with_reducible apply canon_setSorus | with_reducible apply canon_setCtx |
                 with_reducible apply canon_ticketLift | with_reducible apply canon_ticketWake

theorem canon_ticketLifts (s : State) (fid : Nat) (hc : Canon s) : Canon (State.ticketLifts s fid) := by
  unfold State.ticketLifts
  repeat' first | with_reducible assumption | (with_reducible intro _) | with_reducible apply canon_ticketLift |
                 with_reducible apply canon_foldl | with_reducible apply canon_ite

theorem canon_barSend (s : State) (L : Nat) (u : BarUpd) (hc : Canon s) : Canon (State.barSend s L u) := by
  unfold State.barSend
  repeat' first | with_reducible assumption | with_reducible apply canon_after | with_reducible apply canon_setSorus

theorem canon_barWake (s : State) (key : Nat) (hc : Canon s) : Canon (State.barWake s key) := by
  unfold State.barWake
  repeat' first | with_reducible assumption | (with_reducible intro _) | with_reducible apply canon_wake |
                 with_reducible apply canon_answer | with_reducible apply canon_foldl | with_reducible apply canon_ite |
                 split

theorem canon_barWakeSaved (s : State) (key : Nat) (hc : Canon s) : Canon (State.barWakeSaved s key) := by
  unfold State.barWakeSaved
  repeat' first | with_reducible assumption | (with_reducible intro _) | with_reducible apply canon_wakeSaved |
                 with_reducible apply canon_answer | with_reducible apply canon_foldl | with_reducible apply canon_ite |
                 split

theorem canon_barUpdate (s : State) (u : BarUpd) (hc : Canon s) : Canon (State.barUpdate s u) := by
  unfold State.barUpdate
  repeat' first | with_reducible assumption | with_reducible apply canon_powerBanks |
                 with_reducible apply canon_writeNat | with_reducible apply canon_barWakeSaved |
                 with_reducible apply canon_barWake | with_reducible apply canon_ite

theorem canon_gbarArrive (s : State) (h : Nat) (id : Nat) (hc : Canon s) : Canon (State.gbarArrive s h id) := by
  unfold State.gbarArrive
  repeat' first | with_reducible assumption | with_reducible apply canon_poke | with_reducible apply canon_setLaunch |
                 with_reducible apply canon_release | split

theorem canon_gbarComplete (s : State) (p : Nat) (slot : Nat) (gid : Nat) (hc : Canon s) : Canon (State.gbarComplete s p slot
    gid) := by
  unfold State.gbarComplete
  repeat' first | with_reducible assumption | (with_reducible intro _) | with_reducible apply canon_setLaunch |
                 with_reducible apply canon_release | with_reducible apply canon_foldl |
                 with_reducible apply canon_ite | split

theorem canon_lbarArrive (s : State) (h : Nat) (id : Nat) (n : Nat) (hc : Canon s) : Canon (State.lbarArrive s h id n) := by
  unfold State.lbarArrive
  repeat' first | with_reducible assumption | with_reducible apply canon_poke | with_reducible apply canon_setLaunch |
                 with_reducible apply canon_release | with_reducible apply canon_ite | split

theorem canon_lbarRelease (s : State) (p : Nat) (slot : Nat) (grp : Nat) (hc : Canon s) : Canon (State.lbarRelease s p slot
    grp) := by
  unfold State.lbarRelease
  repeat' first | with_reducible assumption | (with_reducible intro _) | with_reducible apply canon_setLaunch |
                 with_reducible apply canon_release | with_reducible apply canon_foldl | split

theorem canon_lbarComplete (s : State) (p : Nat) (slot : Nat) (n : Nat) (hc : Canon s) : Canon (State.lbarComplete s p slot
    n) := by
  unfold State.lbarComplete
  repeat' first | with_reducible assumption | (with_reducible intro _) | with_reducible apply canon_setLaunch |
                 with_reducible apply canon_after | with_reducible apply canon_lbarRelease |
                 with_reducible apply canon_foldl | with_reducible apply canon_ite | split

theorem canon_partWrite (s : State) (p : Nat) (va : Word) (ws : List Word) (hc : Canon s) : CanonOpt (s.partWrite p va ws) := by
  intro t e
  unfold State.partWrite at e
  dsimp only at e
  split at e
  · exact absurd e (by simp)
  · rw [← Option.some.inj e]
    refine canon_foldl _ _ _ hc (fun s q h => ?_)
    split
    · exact canon_writeNat h ..
    · exact h

theorem canon_hostRefuse (s : State) (fn : Nat) (off : Nat) (posted : Bool) (hc : Canon s) : Canon (State.hostRefuse s fn off
    posted) := by
  unfold State.hostRefuse
  repeat' first | with_reducible assumption | with_reducible apply canon_emit | with_reducible apply canon_elog

theorem canon_hdrAnswer (s : State) (src : HdrSrc) (code : Nat) (hc : Canon s) : Canon (State.hdrAnswer s src code) := by
  unfold State.hdrAnswer
  repeat' first | with_reducible assumption | with_reducible apply canon_answer |
                 with_reducible apply canon_hostRefuse | with_reducible apply canon_ite | split

theorem canon_headerArrive (s : State) (p : Nat) (ws : List Word) (src : HdrSrc) (hc : Canon s) : Canon (State.headerArrive s
    p ws src) := by
  unfold State.headerArrive
  repeat' first | with_reducible assumption | with_reducible apply canon_newId | with_reducible apply canon_poke |
                 with_reducible apply canon_hdrAnswer | with_reducible apply canon_setPart |
                 with_reducible apply canon_partWrite | with_reducible apply canon_elog |
                 with_reducible apply canon_ite | split | (simp only [canon_mk_iff, wf_mem_iff]) |
                 with_reducible refine canon_opt (by assumption) ?_

theorem canon_preemptCode (s : State) (who : PreqBy) (f : Firing) (code : Nat) (hc : Canon s) : Canon (State.preemptCode s
    who f code) := by
  unfold State.preemptCode
  repeat' first | with_reducible assumption | with_reducible apply canon_preqOutcome | split

theorem canon_preempt (s : State) (h : Nat) (who : PreqBy) (hc : Canon s) : Canon (State.preempt s h who) := by
  unfold State.preempt
  repeat' first | with_reducible assumption | with_reducible apply canon_preemptCode |
                 with_reducible apply canon_setAux | with_reducible apply canon_setCtx |
                 with_reducible apply canon_poke | with_reducible apply canon_ite | split |
                 (simp only [canon_mk_iff, wf_mem_iff])

theorem canon_countsWake (s : State) (h : Nat) (hc : Canon s) : Canon (State.countsWake s h) := by
  unfold State.countsWake
  repeat' first | with_reducible assumption | with_reducible apply canon_wakeHere | with_reducible apply canon_ite |
                 split | (simp only [canon_mk_iff, wf_mem_iff])

theorem canon_countsWakeOf (s : State) (fid : Nat) (hc : Canon s) : Canon (State.countsWakeOf s fid) := by
  unfold State.countsWakeOf
  repeat' first | with_reducible assumption | with_reducible apply canon_countsWake | with_reducible apply canon_poke |
                 with_reducible apply canon_ite | split

theorem canon_putLane (s : State) (L : Nat) (r : Nat) (c : Nat) (v : Nat) (hc : Canon s) : Canon (State.putLane s L r c v) := by
  unfold State.putLane
  repeat' first | with_reducible assumption | with_reducible apply canon_writeNat

theorem canon_runProduct (s : State) (L : Nat) (fmt : Tab Word) (form : Nat) (pair : Pair) (cmd : Word) (a : Word) (b : Word)
    (u : Unf) (hc : Canon s) : Canon (State.runProduct s L fmt form pair cmd a b u) := by
  unfold State.runProduct
  repeat' first | with_reducible assumption | (with_reducible intro _) | with_reducible apply canon_putLane |
                 with_reducible apply canon_foldl

theorem canon_overRegion (s : State) (r : Region) (f : State → Nat → Nat → State) (hf : ∀ s i j, Canon s → Canon (f s i j))
    (hc : Canon s) : Canon (State.overRegion s r f) := by
  unfold State.overRegion
  exact canon_foldl _ _ _ hc (fun s a h => canon_foldl _ _ _ h (fun s b h => hf _ _ _ h))

theorem canon_claimStands (s : State) (L : Nat) (fid : Nat) (g : Nat) (hc : Canon s) : Canon (State.claimStands s L fid g) := by
  unfold State.claimStands
  repeat' first | with_reducible assumption | with_reducible apply canon_setCtx | with_reducible apply canon_ite |
                 split | (simp only [canon_mk_iff, wf_mem_iff])

theorem canon_runTile (s : State) (L : Nat) (t : Tile) (hc : Canon s) : Canon (State.runTile s L t) := by
  unfold State.runTile
  repeat' first | with_reducible assumption | (with_reducible intro _) | with_reducible apply canon_powerBanks |
                 with_reducible apply canon_runProduct | with_reducible apply canon_claimStands |
                 with_reducible apply canon_pokeRoom | with_reducible apply canon_setCore |
                 with_reducible apply canon_clearRange | with_reducible apply canon_overRegion |
                 with_reducible apply canon_writeNat | with_reducible apply canon_putLane |
                 with_reducible apply canon_setAux | with_reducible apply canon_foldl | with_reducible apply canon_ite |
                 split | (simp only [canon_mk_iff, wf_mem_iff])

theorem canon_dropTile (s : State) (L : Nat) (fid : Nat) (id : Nat) (hc : Canon s) : Canon (State.dropTile s L fid id) := by
  unfold State.dropTile
  repeat' first | with_reducible assumption | with_reducible apply canon_setAux | with_reducible apply canon_setSaved |
                 with_reducible apply canon_pokeRoom | with_reducible apply canon_releaseRows |
                 with_reducible apply canon_countsWakeOf | with_reducible apply canon_ite | split

theorem canon_tileBarrier (s : State) (L : Nat) (t : Tile) (status : Nat) (hc : Canon s) : Canon (State.tileBarrier s L t
    status) := by
  unfold State.tileBarrier
  repeat' first | with_reducible assumption | with_reducible apply canon_barSend | with_reducible apply canon_ite |
                 split

theorem canon_tileDone (s : State) (L : Nat) (t : Tile) (run : Bool) (status : Nat) (hc : Canon s) : Canon (State.tileDone s
    L t run status) := by
  unfold State.tileDone
  repeat' first | with_reducible assumption | with_reducible apply canon_setCore | with_reducible apply canon_runTile |
                 with_reducible apply canon_capEvent | with_reducible apply canon_setSorus |
                 with_reducible apply canon_dropTile | with_reducible apply canon_tileBarrier |
                 with_reducible apply canon_poke | with_reducible apply canon_ite | split

theorem canon_joinMatq (s : State) (t : Tile) (hc : Canon s) : Canon (State.joinMatq s t) := by
  unfold State.joinMatq
  repeat' first | with_reducible assumption | with_reducible apply canon_poke | with_reducible apply canon_setCore

theorem canon_faultInstead (s : State) (h : Nat) (hc : Canon s) : Canon (State.faultInstead s h) := by
  unfold State.faultInstead
  repeat' first | with_reducible assumption | with_reducible apply canon_countFault | split

theorem canon_engFault (s : State) (h : Nat) (e : EngFault) (hc : Canon s) : Canon (State.engFault s h e) := by
  unfold State.engFault
  repeat' first | with_reducible assumption | with_reducible apply canon_leaveWaitc | with_reducible apply canon_setAux

theorem canon_fetchLost (s : State) (h : Nat) (q : Nat) (hc : Canon s) : Canon (State.fetchLost s h q) := by
  unfold State.fetchLost
  repeat' first | with_reducible assumption | with_reducible apply canon_setAux | split |
                 (simp only [canon_mk_iff, wf_mem_iff])

theorem canon_fetchReturn (s : State) (h : Nat) (q : Nat) (hc : Canon s) : Canon (State.fetchReturn s h q) := by
  unfold State.fetchReturn
  repeat' first | with_reducible assumption | with_reducible apply canon_fetchGo |
                 with_reducible apply canon_countsWake | with_reducible apply canon_setAux |
                 with_reducible apply canon_again | with_reducible apply canon_powerBanks |
                 with_reducible apply canon_charge | with_reducible apply canon_waitTurn |
                 with_reducible apply canon_faultInstead | with_reducible apply canon_engFault |
                 with_reducible apply canon_fetchLost | with_reducible apply canon_ite |
                 with_reducible apply canonOpt_ite | with_reducible apply canonOpt_some | split |
                 (simp only [canon_mk_iff, wf_mem_iff]) | with_reducible refine canon_opt (by assumption) ?_

theorem canon_streamCommit (s : State) (h : Nat) (q : Nat) (els : List StreamEl) (hc : Canon s) : Canon (State.streamCommit s
    h q els) := by
  unfold State.streamCommit
  repeat' first | with_reducible assumption | with_reducible apply canon_setAux | with_reducible apply canon_poke |
                 with_reducible apply canon_ite | split | (simp only [canon_mk_iff, wf_mem_iff])

theorem canon_transferDone (s : State) (h : Nat) (q : Nat) (hc : Canon s) : Canon (State.transferDone s h q) := by
  unfold State.transferDone
  repeat' first | with_reducible assumption | (with_reducible intro _) | with_reducible apply canon_countsWake |
                 with_reducible apply canon_again | with_reducible apply canon_poke |
                 with_reducible apply canon_setAux | with_reducible apply canon_faultInstead |
                 with_reducible apply canon_engFault | with_reducible apply canon_charge |
                 with_reducible apply canon_waitTurn | with_reducible apply canon_powerBanks |
                 with_reducible apply canon_writeNat | with_reducible apply canon_foldl |
                 with_reducible apply canon_ite | with_reducible apply canonOpt_ite |
                 with_reducible apply canonOpt_some | split | (simp only [canon_mk_iff, wf_mem_iff]) |
                 with_reducible refine canon_opt (by assumption) ?_

theorem canon_setCombines (s : State) (k : Nat) (cs : List Combine) (hc : Canon s) : Canon (State.setCombines s k cs) := by
  unfold State.setCombines
  repeat' first | with_reducible assumption | (simp only [canon_mk_iff, wf_mem_iff])

theorem canon_crzSendCommit (s : State) (h : Nat) (op : Nat) (d : CrzDesc) (off : Nat) (hc : Canon s) : Canon
    (State.crzSendCommit s h op d off) := by
  unfold State.crzSendCommit
  repeat' first | with_reducible assumption | with_reducible apply canon_after | with_reducible apply canon_poke |
                 with_reducible apply canon_setCombines

theorem canon_crzCollect (s : State) (k : Nat) (c : Combine) (hc : Canon s) : Canon (State.crzCollect s k c) := by
  unfold State.crzCollect
  repeat' first | with_reducible assumption | (with_reducible intro _) | with_reducible apply canon_answer |
                 with_reducible apply canon_poke | with_reducible apply canon_setCombines |
                 with_reducible apply canon_foldl | with_reducible apply canon_ite | split

theorem canon_crzRecvCommit (s : State) (h : Nat) (id : Nat) (d : CrzDesc) (hc : Canon s) : Canon (State.crzRecvCommit s h id
    d) := by
  unfold State.crzRecvCommit
  repeat' first | with_reducible assumption | with_reducible apply canon_answer |
                 with_reducible apply canon_setCombines | with_reducible apply canon_crzCollect | split |
                 (simp only [canon_mk_iff, wf_mem_iff])

theorem canon_crzWrite (s : State) (L : Nat) (d : CrzDesc) (r : List Byte × List Byte) (hc : Canon s) : Canon (State.crzWrite
    s L d r) := by
  unfold State.crzWrite
  repeat' first | with_reducible assumption | (with_reducible intro _) | with_reducible apply canon_writeBytes |
                 with_reducible apply canon_powerBanks | with_reducible apply canon_foldl |
                 with_reducible apply canon_ite

theorem canon_crzWriteAll (s : State) (c : Combine) (r : List Byte × List Byte) (hc : Canon s) : Canon (State.crzWriteAll s c
    r) := by
  unfold State.crzWriteAll
  repeat' first | with_reducible assumption | (with_reducible intro _) | with_reducible apply canon_crzWrite |
                 with_reducible apply canon_foldl | with_reducible apply canon_ite

theorem canon_crzStep (s : State) (k : Nat) (c : Combine) (hc : Canon s) : Canon (s.crzStep k c).2 := by
  unfold State.crzStep
  repeat' first | with_reducible assumption | with_reducible apply canon_after | with_reducible apply canon_powerBanks |
                 with_reducible apply canon_crzWriteAll | split

theorem canon_crzContribution (s : State) (k : Nat) (hc : Canon s) : Canon (State.crzContribution s k) := by
  unfold State.crzContribution
  repeat' first | with_reducible assumption | with_reducible apply canon_setCombines |
                 with_reducible apply canon_crzStep | with_reducible apply canon_poke |
                 with_reducible apply canon_crzCollect | with_reducible apply canon_ite | split |
                 (simp only [canon_mk_iff, wf_mem_iff])

theorem canon_setCopy (s : State) (c : Copy) (hc : Canon s) : Canon (State.setCopy s c) := by
  unfold State.setCopy
  repeat' first | with_reducible assumption | (simp only [canon_mk_iff, wf_mem_iff])

theorem canon_copyLeaves (s : State) (c : Copy) (hc : Canon s) : Canon (State.copyLeaves s c) := by
  unfold State.copyLeaves
  repeat' first | with_reducible assumption | with_reducible apply canon_setCore | with_reducible apply canon_poke |
                 with_reducible apply canon_ite

theorem canon_dropBurst (s : State) (t : Tile) (hc : Canon s) : Canon (State.dropBurst s t) := by
  unfold State.dropBurst
  repeat' first | with_reducible assumption | with_reducible apply canon_setSorus |
                 with_reducible apply canon_admitNow | with_reducible apply canon_ite

theorem canon_copyFollow (s : State) (c : Copy) (code : Nat) (hc : Canon s) : Canon (State.copyFollow s c code) := by
  unfold State.copyFollow
  repeat' first | with_reducible assumption | with_reducible apply canon_joinMatq |
                 with_reducible apply canon_dropTile | with_reducible apply canon_tileBarrier |
                 with_reducible apply canon_dropBurst | with_reducible apply canon_ite | split

theorem canon_raiseLate (s : State) (c : Copy) (hc : Canon s) : Canon (State.raiseLate s c) := by
  unfold State.raiseLate
  repeat' first | with_reducible assumption | with_reducible apply canon_inbound | with_reducible apply canon_lateNow |
                 with_reducible apply canon_setSaved | with_reducible apply canon_ite | split

theorem canon_copyEnd (s : State) (c : Copy) (code : Nat) (hc : Canon s) : Canon (State.copyEnd s c code) := by
  unfold State.copyEnd
  repeat' first | with_reducible assumption | with_reducible apply canon_raiseLate |
                 with_reducible apply canon_copyLeaves | with_reducible apply canon_answerHere |
                 with_reducible apply canon_capEvent | with_reducible apply canon_countsWakeOf |
                 with_reducible apply canon_copyFollow | with_reducible apply canon_ite | split |
                 (simp only [canon_mk_iff, wf_mem_iff])

theorem canon_copyPark (s : State) (c : Copy) (dst : Bool) (va : Word) (hc : Canon s) : Canon (State.copyPark s c dst va) := by
  unfold State.copyPark
  repeat' first | with_reducible assumption | with_reducible apply canon_copyEnd |
                 with_reducible apply canon_faultInstead | with_reducible apply canon_engFault |
                 with_reducible apply canon_copyLeaves | with_reducible apply canon_setCopy |
                 with_reducible apply canon_ite | split

theorem canon_winRequest (s : State) (c : Copy) (i : Nat) (off : Nat) (k : WinKind) (n : Nat) (hc : Canon s) : Canon
    (State.winRequest s c i off k n) := by
  unfold State.winRequest
  repeat' first | with_reducible assumption | with_reducible apply canon_noteSent | with_reducible apply canon_setCopy |
                 with_reducible apply canon_after | with_reducible apply canon_sendOwed |
                 with_reducible apply canon_outSend | with_reducible apply canon_ite

theorem canon_sectorDone (s : State) (c : Copy) (hc : Canon s) : Canon (State.sectorDone s c) := by
  unfold State.sectorDone
  repeat' first | with_reducible assumption | with_reducible apply canon_copyEnd | with_reducible apply canon_setCopy |
                 with_reducible apply canon_poke | with_reducible apply canon_ite

theorem canon_cellsWrite (s : State) (cs : List Host.Cell) (hc : Canon s) : Canon (State.cellsWrite s cs) := by
  unfold State.cellsWrite
  repeat' first | with_reducible assumption | (with_reducible intro _) | with_reducible apply canon_writeBytes |
                 with_reducible apply canon_foldl

theorem canon_copyStop (s : State) (c : Copy) (dst : Bool) (a3 : CopyStop) (hc : Canon s) : Canon (State.copyStop s c dst a3) := by
  unfold State.copyStop
  repeat' first | with_reducible assumption | with_reducible apply canon_copyPark | with_reducible apply canon_copyEnd |
                 split

theorem canon_sectorMake (s : State) (c : Copy) (src : List (Nat × Nat × CopyAt)) (dst : List (Nat × Nat × CopyAt)) (hc :
    Canon s) : Canon (State.sectorMake s c src dst) := by
  unfold State.sectorMake
  repeat' first | with_reducible assumption | with_reducible apply canon_again | with_reducible apply canon_setCopy |
                 with_reducible apply canon_charge | with_reducible apply canon_waitTurn |
                 with_reducible apply canon_powerBanks | with_reducible apply canon_after |
                 with_reducible apply canon_ite | with_reducible apply canonOpt_ite |
                 with_reducible apply canonOpt_some | split | with_reducible refine canon_opt (by assumption) ?_

theorem canon_sectorLand (s : State) (c : Copy) (t : Nat) (hc : Canon s) : Canon (State.sectorLand s c t) := by
  unfold State.sectorLand
  repeat' first | with_reducible assumption | with_reducible apply canon_setCopy | with_reducible apply canon_copyStop |
                 with_reducible apply canon_winRequest | with_reducible apply canon_sectorDone |
                 with_reducible apply canon_cellsWrite | with_reducible apply canon_ite | split

theorem canon_copySector (s : State) (c : Copy) (hc : Canon s) : Canon (State.copySector s c) := by
  unfold State.copySector
  repeat' first | with_reducible assumption | with_reducible apply canon_sectorLand |
                 with_reducible apply canon_copyStop | with_reducible apply canon_winRequest |
                 with_reducible apply canon_sectorMake | split

theorem canon_copyFreeze (s : State) (c : Copy) (hc : Canon s) : Canon (State.copyFreeze s c) := by
  unfold State.copyFreeze
  repeat' first | with_reducible assumption | with_reducible apply canon_setCopy |
                 with_reducible apply canon_cellsWrite | with_reducible apply canon_ite

theorem canon_copyReply (s : State) (tag : Nat) (code : Nat) (bytes : List Byte) (hc : Canon s) : Canon (State.copyReply s
    tag code bytes) := by
  unfold State.copyReply
  repeat' first | with_reducible assumption | with_reducible apply canon_copyEnd | with_reducible apply canon_elog |
                 with_reducible apply canon_poke | with_reducible apply canon_setCopy | with_reducible apply canon_ite |
                 split | (simp only [canon_mk_iff, wf_mem_iff])

theorem canon_promiseTimer (s : State) (c : Copy) (hc : Canon s) : Canon (State.promiseTimer s c) := by
  unfold State.promiseTimer
  repeat' first | with_reducible assumption | with_reducible apply canon_after

theorem canon_copyCommit (s : State) (c : Copy) (pid : Nat) (xp : Nat) (hc : Canon s) : Canon (State.copyCommit s c pid xp) := by
  unfold State.copyCommit
  repeat' first | with_reducible assumption | with_reducible apply canon_answerHere |
                 with_reducible apply canon_copyEnd | with_reducible apply canon_setCopy |
                 with_reducible apply canon_setCore | with_reducible apply canon_promiseTimer |
                 with_reducible apply canon_poke | with_reducible apply canon_ite

theorem canon_cancelCopy (s : State) (c : Copy) (hc : Canon s) : Canon (State.cancelCopy s c) := by
  unfold State.cancelCopy
  repeat' first | with_reducible assumption | with_reducible apply canon_setCopy | with_reducible apply canon_copyEnd |
                 with_reducible apply canon_ite

theorem canon_copyCancel (s : State) (fid : Nat) (n : Nat) (hc : Canon s) : Canon (State.copyCancel s fid n) := by
  unfold State.copyCancel
  repeat' first | with_reducible assumption | (with_reducible intro _) | with_reducible apply canon_cancelCopy |
                 with_reducible apply canon_foldl | with_reducible apply canon_ite

theorem canon_copyLate (s : State) (cid : Nat) (hc : Canon s) : Canon (State.copyLate s cid) := by
  unfold State.copyLate
  repeat' first | with_reducible assumption | with_reducible apply canon_promiseTimer |
                 with_reducible apply canon_after | with_reducible apply canon_raiseLate |
                 with_reducible apply canon_setCopy | with_reducible apply canon_ite | split

theorem canon_logAppend (s : State) (h : Nat) (va : Word) (v : Word) (hc : Canon s) : Canon (State.logAppend s h va v) := by
  unfold State.logAppend
  repeat' first | with_reducible assumption | with_reducible apply canon_setPart |
                 with_reducible apply canon_partWrite | with_reducible apply canon_ite | split |
                 (simp only [canon_mk_iff, wf_mem_iff]) | with_reducible refine canon_opt (by assumption) ?_

theorem canon_logApply (p : Nat) (es : List LogEnt) (s : State) (a d : Nat) (ls : List Nat) (hc : Canon s) : Canon
    (State.logApply p es s a d ls).1 := by
  induction es generalizing s a d ls with
  | nil => exact hc
  | cons e es ih =>
    unfold State.logApply
    split
    · exact ih _ _ _ _ hc
    · exact ih _ _ _ _ (canon_writeNat hc ..)

theorem canon_deviceCommit (s : State) (lines : List Nat) (owner : Option Nat) (order : Option (Nat × Nat × Nat)) (hc : Canon
    s) : Canon (State.deviceCommit s lines owner order) := by
  unfold State.deviceCommit
  repeat' first | with_reducible assumption | (with_reducible intro _) | with_reducible apply canon_poke |
                 with_reducible apply canon_setCore | with_reducible apply canon_foldl | split |
                 (simp only [canon_mk_iff, wf_mem_iff])

theorem canon_stamp (s : State) (lines : List Nat) (n : Nat) (hc : Canon s) : Canon (State.stamp s lines n) := by
  unfold State.stamp
  repeat' first | with_reducible assumption | (simp only [canon_mk_iff, wf_mem_iff])

theorem canon_mergeStart (s : State) (p : Nat) (hc : Canon s) : Canon (State.mergeStart s p) := by
  unfold State.mergeStart
  repeat' first | with_reducible assumption | with_reducible apply canon_poke | with_reducible apply canon_setPart |
                 split | (simp only [canon_mk_iff, wf_mem_iff])

theorem canon_logMerge (s : State) (h : Nat) (id : Nat) (desc : List Word) (hc : Canon s) : Canon (State.logMerge s h id
    desc) := by
  unfold State.logMerge
  repeat' first | with_reducible assumption | with_reducible apply canon_setPart |
                 with_reducible apply canon_mergeStart | with_reducible apply canon_ite | split

theorem canon_mergeDone (s : State) (p : Nat) (hc : Canon s) : Canon (State.mergeDone s p) := by
  unfold State.mergeDone
  split
  · exact hc
  · have h1 (es : List LogEnt) (n : Nat) : Canon (State.logApply p es s 0 n []).1 := canon_logApply p es s 0 n [] hc
    refine canon_ite (canon_after _ _ _ hc) (canon_mergeStart _ _ (canon_answer _ _ _ _ _ (canon_setPart _ _ _ (canon_ite (h1 _ _) (canon_stamp _ _ _ (canon_deviceCommit _ _ _ _ (h1 _ _)))))))

theorem canon_ownerRun (s : State) (h : Nat) (id : Nat) (hc : Canon s) : Canon (State.ownerRun s h id) := by
  unfold State.ownerRun
  repeat' first | with_reducible assumption | with_reducible apply canon_wakeBanks |
                 with_reducible apply canon_endChunk | with_reducible apply canon_setCtx |
                 with_reducible apply canon_ite | split

theorem canon_admitDone (s : State) (id : Nat) (hc : Canon s) : Canon (State.admitDone s id) := by
  unfold State.admitDone
  repeat' first | with_reducible assumption | with_reducible apply canon_poke | split |
                 (simp only [canon_mk_iff, wf_mem_iff])

theorem canon_ownerReply (s : State) (id : Nat) (r : ReqCopy) (code : Nat) (v : Word) (ver : Nat) (hc : Canon s) : Canon
    (State.ownerReply s id r code v ver) := by
  unfold State.ownerReply
  repeat' first | with_reducible assumption | with_reducible apply canon_newId | with_reducible apply canon_after |
                 with_reducible apply canon_admitDone | with_reducible apply canon_sendDatagram | split |
                 (simp only [canon_mk_iff, wf_mem_iff])

theorem canon_ownerCommit (s : State) (h : Nat) (id : Nat) (v : Word) (ver : Nat) (hc : Canon s) : Canon (State.ownerCommit s
    h id v ver) := by
  unfold State.ownerCommit
  repeat' first | with_reducible assumption | with_reducible apply canon_after | with_reducible apply canon_setSorus |
                 with_reducible apply canon_admitDone | with_reducible apply canon_finjDone |
                 with_reducible apply canon_ownerReply | with_reducible apply canon_ite | split |
                 (simp only [canon_mk_iff, wf_mem_iff])

theorem canon_discardCopy (s : State) (id : Nat) (hc : Canon s) : Canon (State.discardCopy s id) := by
  unfold State.discardCopy
  repeat' first | with_reducible assumption | with_reducible apply canon_admitDone |
                 (simp only [canon_mk_iff, wf_mem_iff])

theorem canon_queueOwner (s : State) (id : Nat) (r : ReqCopy) (hc : Canon s) : Canon (State.queueOwner s id r) := by
  unfold State.queueOwner
  repeat' first | with_reducible assumption | with_reducible apply canon_poke | with_reducible apply canon_setCore |
                 (simp only [canon_mk_iff, wf_mem_iff])

theorem canon_answerCopy (s : State) (id : Nat) (r : ReqCopy) (a : Nat × Word × Nat) (hc : Canon s) : Canon (State.answerCopy
    s id r a) := by
  unfold State.answerCopy
  repeat' first | with_reducible assumption | with_reducible apply canon_queueOwner |
                 with_reducible apply canon_ownerReply | with_reducible apply canon_ite

theorem canon_ownerHold (s : State) (id : Nat) (r : ReqCopy) (hc : Canon s) : Canon (State.ownerHold s id r) := by
  unfold State.ownerHold
  repeat' first | with_reducible assumption | with_reducible apply canon_newId | with_reducible apply canon_ite |
                 split | (simp only [canon_mk_iff, wf_mem_iff]) | with_reducible refine canon_snd (by assumption) ?_

theorem canon_lostCopy (s : State) (id : Nat) (n : Nat) (hc : Canon s) : Canon (State.lostCopy s id n) := by
  unfold State.lostCopy
  repeat' first | with_reducible assumption | with_reducible apply canon_discardCopy |
                 with_reducible apply canon_setSorus

theorem canon_ownerArrive (s : State) (id : Nat) (hc : Canon s) : Canon (State.ownerArrive s id) := by
  unfold State.ownerArrive
  repeat' first | with_reducible assumption | with_reducible apply canon_ownerHold |
                 with_reducible apply canon_discardCopy | with_reducible apply canon_lostCopy |
                 with_reducible apply canon_queueOwner | with_reducible apply canon_setSorus |
                 with_reducible apply canon_answerCopy | with_reducible apply canon_ite | split |
                 (simp only [canon_mk_iff, wf_mem_iff])

theorem canon_replyHere (s : State) (rid : Nat) (code : Nat) (v : Word) (ver : Nat) (epoch : Nat) (sorus : Nat) (hc : Canon
    s) : Canon (State.replyHere s rid code v ver epoch sorus) := by
  unfold State.replyHere
  repeat' first | with_reducible assumption | with_reducible apply canon_setCore | with_reducible apply canon_reqDone |
                 with_reducible apply canon_answer | with_reducible apply canon_countFault |
                 with_reducible apply canon_reqUnknown | with_reducible apply canon_elog |
                 with_reducible apply canon_ite | split

theorem canon_replyCome (s : State) (id : Nat) (hc : Canon s) : Canon (State.replyCome s id) := by
  unfold State.replyCome
  repeat' first | with_reducible assumption | with_reducible apply canon_requestsEnd |
                 with_reducible apply canon_replyHere | with_reducible apply canon_ite | split |
                 (simp only [canon_mk_iff, wf_mem_iff])

theorem canon_lastDeadline (s : State) (rid : Nat) (hc : Canon s) : Canon (State.lastDeadline s rid) := by
  unfold State.lastDeadline
  repeat' first | with_reducible assumption | with_reducible apply canon_reqTimer | with_reducible apply canon_after |
                 with_reducible apply canon_requestsEnd | with_reducible apply canon_reqUnknown |
                 with_reducible apply canon_ite | split

theorem canon_retireCache (s : State) (n : Nat) (hc : Canon s) : Canon (State.retireCache s n) := by
  unfold State.retireCache
  repeat' first | with_reducible assumption | (with_reducible intro _) | with_reducible apply canon_setSorus |
                 with_reducible apply canon_poke | with_reducible apply canon_foldl | with_reducible apply canon_ite |
                 (simp only [canon_mk_iff, wf_mem_iff])

theorem canon_markAdmitted (s : State) (L : Nat) (id : Nat) (hc : Canon s) : Canon (State.markAdmitted s L id) := by
  unfold State.markAdmitted
  repeat' first | with_reducible assumption | with_reducible apply canon_setCore |
                 (simp only [canon_mk_iff, wf_mem_iff])

theorem canon_letIn (s : State) (h : Nat) (id : Nat) (hc : Canon s) : Canon (State.letIn s h id) := by
  unfold State.letIn
  repeat' first | with_reducible assumption | with_reducible apply canon_setSorus | with_reducible apply canon_poke |
                 with_reducible apply canon_markAdmitted | with_reducible apply canon_inbound |
                 with_reducible apply canon_admitNow | with_reducible apply canon_ite

theorem canon_askAdmission (s : State) (h : Nat) (id : Nat) (hc : Canon s) : Canon (State.askAdmission s h id) := by
  unfold State.askAdmission
  repeat' first | with_reducible assumption | with_reducible apply canon_setSorus | with_reducible apply canon_setCtx |
                 with_reducible apply canon_poke | with_reducible apply canon_ite

theorem canon_serveAdmissions (s : State) (n : Nat) (a2 : Nat) (hc : Canon s) : Canon (State.serveAdmissions s n a2) := by
  induction a2 generalizing s with
  | zero => exact hc
  | succ k ih =>
    unfold State.serveAdmissions
    split
    · exact hc
    · exact canon_ite (ih _ (canon_letIn _ _ _ hc)) hc

theorem canon_admitFresh (s : State) (n : Nat) (a2 : Nat) (hc : Canon s) : Canon (State.admitFresh s n a2) := by
  induction a2 generalizing s with
  | zero => exact hc
  | succ k ih =>
    unfold State.admitFresh
    split
    · exact hc
    · exact canon_ite (ih _ (canon_letIn _ _ _ hc)) hc

theorem canon_holdSync (s : State) (i : Held) (hc : Canon s) : Canon (State.holdSync s i) := by
  unfold State.holdSync
  repeat' first | with_reducible assumption | with_reducible apply canon_stepSync | with_reducible apply canon_hold

theorem canon_traceStart (s : State) (h : Nat) (hc : Canon s) : Canon (State.traceStart s h) := by
  unfold State.traceStart
  repeat' first | with_reducible assumption | with_reducible apply canon_setAux | with_reducible apply canon_traceSync |
                 with_reducible apply canon_ite

theorem canon_traceStop (s : State) (h : Nat) (hc : Canon s) : Canon (State.traceStop s h) := by
  unfold State.traceStop
  repeat' first | with_reducible assumption | with_reducible apply canon_setAux | with_reducible apply canon_ite

theorem canon_capSet (s : State) (h : Nat) (n : Nat) (on : Bool) (hc : Canon s) : Canon (State.capSet s h n on) := by
  unfold State.capSet
  repeat' first | with_reducible assumption | with_reducible apply canon_setAux

theorem canon_preqCommit (s : State) (h : Nat) (id : Nat) (v : Word) (p : Priv) (hc : Canon s) : Canon (State.preqCommit s h
    id v p) := by
  unfold State.preqCommit
  repeat' first | with_reducible assumption | (with_reducible intro _) | with_reducible apply canon_answer |
                 with_reducible apply canon_newId | with_reducible apply canon_preqOutcome |
                 with_reducible apply canon_poke | with_reducible apply canon_foldl | with_reducible apply canon_ite |
                 (simp only [canon_mk_iff, wf_mem_iff])

theorem canon_scanStart (s : State) (h : Nat) (key : Nat) (w0 : Word) (expect : Word) (hc : Canon s) : Canon (State.scanStart
    s h key w0 expect) := by
  unfold State.scanStart
  repeat' first | with_reducible assumption | (with_reducible intro _) | with_reducible apply canon_newId |
                 with_reducible apply canon_setAux | with_reducible apply canon_setCore |
                 with_reducible apply canon_poke | with_reducible apply canon_bankDown |
                 with_reducible apply canon_after | with_reducible apply canon_foldl | with_reducible apply canon_ite |
                 split | (simp only [canon_mk_iff, wf_mem_iff])

theorem canon_scanCommit (s : State) (h : Nat) (id : Nat) (va : Word) (p : Priv) (hc : Canon s) : Canon (State.scanCommit s h
    id va p) := by
  unfold State.scanCommit
  repeat' first | with_reducible assumption | with_reducible apply canon_answer | with_reducible apply canon_scanStart |
                 split | (simp only [canon_mk_iff, wf_mem_iff])

theorem canon_scanStop (s : State) (sid : Nat) (hc : Canon s) : Canon (State.scanStop s sid) := by
  unfold State.scanStop
  repeat' first | with_reducible assumption | with_reducible apply canon_patternEnd |
                 with_reducible apply canon_writeNat | with_reducible apply canon_poke |
                 with_reducible apply canon_ite | split | (simp only [canon_mk_iff, wf_mem_iff])

theorem canon_scanabortCommit (s : State) (h : Nat) (hc : Canon s) : Canon (State.scanabortCommit s h) := by
  unfold State.scanabortCommit
  repeat' first | with_reducible assumption | with_reducible apply canon_scanStop | split

theorem canon_maprmCommit (s : State) (h : Nat) (L : Nat) (p : Priv) (hc : Canon s) : Canon (State.maprmCommit s h L p) := by
  unfold State.maprmCommit
  repeat' first | with_reducible assumption | with_reducible apply canon_mapRemove | with_reducible apply canon_ite

theorem canon_xchgArrive (s : State) (h : Nat) (id : Nat) (v : VReg) (hc : Canon s) : Canon (State.xchgArrive s h id v) := by
  unfold State.xchgArrive
  repeat' first | with_reducible assumption | with_reducible apply canon_poke | with_reducible apply canon_setLaunch |
                 with_reducible apply canon_release | split

theorem canon_xchgComplete (s : State) (p : Nat) (slot : Nat) (gid : Nat) (set : Nat) (hc : Canon s) : Canon
    (State.xchgComplete s p slot gid set) := by
  unfold State.xchgComplete
  repeat' first | with_reducible assumption | (with_reducible intro _) | with_reducible apply canon_setLaunch |
                 with_reducible apply canon_release | with_reducible apply canon_foldl |
                 with_reducible apply canon_ite | split

theorem canon_waitCommit (s : State) (h : Nat) (hc : Canon s) : Canon (State.waitCommit s h) := by
  unfold State.waitCommit
  repeat' first | with_reducible assumption | with_reducible apply canon_setCtx | with_reducible apply canon_poke |
                 with_reducible apply canon_countsWake | with_reducible apply canon_leaveWaitc |
                 with_reducible apply canon_wake | with_reducible apply canon_answer |
                 with_reducible apply canon_dlStart | with_reducible apply canon_wakeHere |
                 with_reducible apply canon_ticketLift | with_reducible apply canon_ite | split

theorem canon_haltCommit (s : State) (h : Nat) (banks : Nat) (actor : Nat) (ver : Nat) (hc : Canon s) : Canon
    (State.haltCommit s h banks actor ver) := by
  unfold State.haltCommit
  repeat' first | with_reducible assumption | with_reducible apply canon_trace |
                 with_reducible apply canon_ownerCommit | with_reducible apply canon_endFiring |
                 with_reducible apply canon_ite | split

theorem canon_tileCommit (s : State) (h : Nat) (t : Tile) (hc : Canon s) : Canon (State.tileCommit s h t) := by
  unfold State.tileCommit
  repeat' first | with_reducible assumption | with_reducible apply canon_joinMatq |
                 with_reducible apply canon_askAdmission | with_reducible apply canon_ite

theorem canon_copyCommitH (s : State) (h : Nat) (c : Copy) (pid : Nat) (xp : Nat) (hc : Canon s) : Canon (State.copyCommitH s
    h c pid xp) := by
  unfold State.copyCommitH
  repeat' first | with_reducible assumption | with_reducible apply canon_copyCommit |
                 with_reducible apply canon_askAdmission | with_reducible apply canon_ite | split

theorem canon_heldDo (s : State) (h : Nat) (ver : Nat) (a3 : Held) (hc : Canon s) : Canon (State.heldDo s h ver a3) := by
  unfold State.heldDo
  repeat' first | with_reducible assumption | with_reducible apply canon_csrCommit |
                 with_reducible apply canon_csrClear | with_reducible apply canon_sendOut |
                 with_reducible apply canon_commitAtomic | with_reducible apply canon_tileCommit |
                 with_reducible apply canon_copyCommitH | with_reducible apply canon_copyCancel |
                 with_reducible apply canon_streamCommit | with_reducible apply canon_barSend |
                 with_reducible apply canon_logAppend | with_reducible apply canon_logMerge |
                 with_reducible apply canon_ticketGet | with_reducible apply canon_ticketAdv |
                 with_reducible apply canon_waitCommit | with_reducible apply canon_gbarArrive |
                 with_reducible apply canon_lbarArrive | with_reducible apply canon_xchgArrive |
                 with_reducible apply canon_poke | with_reducible apply canon_setAux |
                 with_reducible apply canon_crzSendCommit | with_reducible apply canon_crzRecvCommit |
                 with_reducible apply canon_haltCommit | with_reducible apply canon_writeBoost |
                 with_reducible apply canon_trapReturn | with_reducible apply canon_traceStart |
                 with_reducible apply canon_traceStop | with_reducible apply canon_trace |
                 with_reducible apply canon_capSet | with_reducible apply canon_scanCommit |
                 with_reducible apply canon_scanabortCommit | with_reducible apply canon_maprmCommit |
                 with_reducible apply canon_mapAdd | with_reducible apply canon_preqCommit |
                 with_reducible apply canon_setCore | with_reducible apply canon_ite | split

theorem canon_afterCommit (s : State) (h : Nat) (hc : Canon s) : Canon (State.afterCommit s h) := by
  unfold State.afterCommit
  repeat' first | with_reducible assumption | with_reducible apply canon_requestCommit |
                 with_reducible apply canon_setCtx | with_reducible apply canon_poke | with_reducible apply canon_ite |
                 split

theorem canon_plainTo (s : State) (b : Bcast) (h : Nat) (hc : Canon s) : Canon (State.plainTo s b h) := by
  unfold State.plainTo
  repeat' first | with_reducible assumption | with_reducible apply canon_squash | with_reducible apply canon_ite

theorem canon_taskTo (s : State) (b : Bcast) (h : Nat) (late : Bool) (hc : Canon s) : Canon (State.taskTo s b h late) := by
  unfold State.taskTo
  repeat' first | with_reducible assumption | with_reducible apply canon_squash | with_reducible apply canon_ite

theorem canon_broadcastTo (s : State) (b : Bcast) (h : Nat) (hc : Canon s) : Canon (State.broadcastTo s b h) := by
  unfold State.broadcastTo
  repeat' first | with_reducible assumption | with_reducible apply canon_taskTo | with_reducible apply canon_plainTo |
                 with_reducible apply canon_ite | split | (simp only [canon_mk_iff, wf_mem_iff])

theorem canon_localSquash (s : State) (h : Nat) (lines : List Nat) (order : Option (Nat × Nat × Nat)) (hc : Canon s) : Canon
    (State.localSquash s h lines order) := by
  unfold State.localSquash
  repeat' first | with_reducible assumption | (with_reducible intro _) | with_reducible apply canon_broadcastTo |
                 with_reducible apply canon_foldl | with_reducible apply canon_ite

theorem canon_endResv (s : State) (h : Nat) (o : Chunk) (hc : Canon s) : Canon (State.endResv s h o) := by
  unfold State.endResv
  repeat' first | with_reducible assumption | with_reducible apply canon_dropResv | with_reducible apply canon_reserve |
                 with_reducible apply canon_ite

theorem canon_commitChunk (s : State) (h : Nat) (ver : Nat) (hc : Canon s) : Canon (State.commitChunk s h ver) := by
  unfold State.commitChunk
  repeat' first | with_reducible assumption | (with_reducible intro _) | with_reducible apply canon_linesWritten |
                 with_reducible apply canon_setCtx | with_reducible apply canon_setAux |
                 with_reducible apply canon_capEvent | with_reducible apply canon_localSquash |
                 with_reducible apply canon_endResv | with_reducible apply canon_orderPoint |
                 with_reducible apply canon_heldDo | with_reducible apply canon_afterCommit |
                 with_reducible apply canon_foldl | with_reducible apply canon_ite |
                 with_reducible apply wf_foldr_tset | split | (simp only [canon_mk_iff, wf_mem_iff])

theorem canon_otSquash (s : State) (h : Nat) (hc : Canon s) : Canon (State.otSquash s h) := by
  unfold State.otSquash
  repeat' first | with_reducible assumption | with_reducible apply canon_squash | with_reducible apply canon_setCtx

theorem canon_drainPaid (s : State) (h : Nat) (o : Chunk) (who : Event) (go : State → State) (hg : ∀ s, Canon s → Canon (go
    s)) (hc : Canon s) : Canon (State.drainPaid s h o who go) := by
  unfold State.drainPaid
  dsimp only
  have h1 (t c : Nat) : CanonOpt (if c = 0 then some s else s.charge t c who) :=
    canonOpt_ite (canonOpt_some hc) (canon_charge _ _ _ _ hc)
  split
  · exact canon_waitTurn _ _ _ _ hc
  · exact hg _ (h1 _ _ _ (by assumption))

theorem canon_returnGrant (s : State) (h : Nat) (o : Chunk) (hc : Canon s) : Canon (State.returnGrant s h o) := by
  unfold State.returnGrant
  repeat' first | with_reducible assumption | with_reducible apply canon_requestCommit |
                 with_reducible apply canon_setCtx | (simp only [canon_mk_iff, wf_mem_iff])

theorem canon_drainDone (s : State) (h : Nat) (hc : Canon s) : Canon (State.drainDone s h) := by
  unfold State.drainDone
  repeat' first | with_reducible assumption | (with_reducible intro _) | with_reducible apply canon_returnGrant |
                 with_reducible apply canon_after | with_reducible apply canon_otSquash |
                 with_reducible apply canon_drainPaid | with_reducible apply canon_commitChunk |
                 with_reducible apply canon_ite | split

theorem canon_taskTrapDue (s : State) (h : Nat) (hc : Canon s) : Canon (State.taskTrapDue s h) := by
  unfold State.taskTrapDue
  repeat' first | with_reducible assumption | with_reducible apply canon_otSquash | with_reducible apply canon_poke |
                 with_reducible apply canon_ite | split

theorem canon_localDone (s : State) (h : Nat) (hc : Canon s) : Canon (State.localDone s h) := by
  unfold State.localDone
  repeat' first | with_reducible assumption | (with_reducible intro _) | with_reducible apply canon_taskTrapDue |
                 with_reducible apply canon_after | with_reducible apply canon_otSquash |
                 with_reducible apply canon_drainPaid | with_reducible apply canon_commitChunk |
                 with_reducible apply canon_ite | split

theorem canon_grantNext (s : State) (hc : Canon s) : Canon (State.grantNext s) := by
  unfold State.grantNext
  repeat' first | with_reducible assumption | with_reducible apply canon_setCtx | with_reducible apply canon_poke |
                 with_reducible apply canon_deviceCommit | with_reducible apply canon_ite | split |
                 (simp only [canon_mk_iff, wf_mem_iff])

theorem canon_processBroadcast (s : State) (L : Nat) (hc : Canon s) : Canon (State.processBroadcast s L) := by
  unfold State.processBroadcast
  repeat' first | with_reducible assumption | (with_reducible intro _) | with_reducible apply canon_setCore |
                 with_reducible apply canon_broadcastTo | with_reducible apply canon_poke |
                 with_reducible apply canon_foldl | with_reducible apply canon_ite | split |
                 (simp only [canon_mk_iff, wf_mem_iff])

theorem canon_startTime (s : State) (hc : Canon s) : Canon (State.startTime s) := by
  unfold State.startTime
  repeat' first | with_reducible assumption | with_reducible apply canon_pokePeriods |
                 (simp only [canon_mk_iff, wf_mem_iff])

theorem canon_stacksFound (s : State) (good : BitVec 32) (hc : Canon s) : Canon (State.stacksFound s good) := by
  unfold State.stacksFound
  repeat' first | with_reducible assumption | (simp only [canon_mk_iff, wf_mem_iff])

theorem canon_coresFound (s : State) (failed : List Nat) (hc : Canon s) : Canon (State.coresFound s failed) := by
  unfold State.coresFound
  repeat' first | with_reducible assumption | (simp only [canon_mk_iff, wf_mem_iff])

theorem canon_linksFound (s : State) (ports : List Nat) (links : List (Nat × Nat)) (hc : Canon s) : Canon (State.linksFound s
    ports links) := by
  unfold State.linksFound
  repeat' first | with_reducible assumption | (simp only [canon_mk_iff, wf_mem_iff])

theorem canon_enterPhase (s : State) (n : Nat) (hc : Canon s) : Canon (State.enterPhase s n) := by
  unfold State.enterPhase
  repeat' first | with_reducible assumption | (simp only [canon_mk_iff, wf_mem_iff])

theorem canon_phaseEnd (s : State) (good : BitVec 32) (failed : List Nat) (ports : List Nat) (links : List (Nat × Nat)) (hc :
    Canon s) : Canon (State.phaseEnd s good failed ports links) := by
  unfold State.phaseEnd
  repeat' first | with_reducible assumption | with_reducible apply canon_enterPhase |
                 with_reducible apply canon_startTime | with_reducible apply canon_stacksFound |
                 with_reducible apply canon_coresFound | with_reducible apply canon_linksFound |
                 with_reducible apply canon_poke | with_reducible apply canon_ite |
                 (simp only [canon_mk_iff, wf_mem_iff])

theorem canon_writeMboot (s : State) (v : Bool) (hc : Canon s) : Canon (State.writeMboot s v) := by
  unfold State.writeMboot
  repeat' first | with_reducible assumption | with_reducible apply canon_poke | with_reducible apply canon_ite |
                 (simp only [canon_mk_iff, wf_mem_iff])

theorem canon_applyEntries (s : State) (es : List (Nat × Word)) (hc : Canon s) : Canon (State.applyEntries s es) := by
  unfold State.applyEntries
  repeat' first | with_reducible assumption | (with_reducible intro _) | with_reducible apply canon_hubWrite |
                 with_reducible apply canon_foldl | split

theorem canon_imageTake (s : State) (hc : Canon s) : Canon (State.imageTake s) := by
  unfold State.imageTake
  repeat' first | with_reducible assumption | with_reducible apply canon_applyEntries | with_reducible apply canon_ite |
                 (simp only [canon_mk_iff, wf_mem_iff])

theorem canon_moduleStop (s : State) (hc : Canon s) : Canon (State.moduleStop s) := by
  unfold State.moduleStop
  repeat' first | with_reducible assumption | with_reducible apply canon_emit | (simp only [canon_mk_iff, wf_mem_iff])

theorem canon_sorusRail (s : State) (mv : Nat) (n : Nat) (hc : Canon s) : Canon (State.sorusRail s mv n) := by
  unfold State.sorusRail
  repeat' first | with_reducible assumption | (with_reducible intro _) | with_reducible apply canon_clkChange |
                 with_reducible apply canon_traceSync | with_reducible apply canon_pokeSorus |
                 with_reducible apply canon_takeAll | with_reducible apply canon_foldl | with_reducible apply canon_ite

theorem canon_supplyFail (s : State) (mv : Nat) (hc : Canon s) : Canon (State.supplyFail s mv) := by
  unfold State.supplyFail
  repeat' first | with_reducible assumption | with_reducible apply canon_moduleStop | with_reducible apply canon_elog |
                 with_reducible apply canon_ite | (simp only [canon_mk_iff, wf_mem_iff])

theorem canon_railChange (s : State) (mv : Nat) (hc : Canon s) : Canon (State.railChange s mv) := by
  unfold State.railChange
  repeat' first | with_reducible assumption | (with_reducible intro _) | with_reducible apply canon_sorusRail |
                 with_reducible apply canon_supplyFail | with_reducible apply canon_foldl |
                 (simp only [canon_mk_iff, wf_mem_iff])

theorem canon_railLook (s : State) (hc : Canon s) : Canon (State.railLook s) := by
  unfold State.railLook
  repeat' first | with_reducible assumption | with_reducible apply canon_supplyFail | with_reducible apply canon_elog |
                 with_reducible apply canon_ite | (simp only [canon_mk_iff, wf_mem_iff])

theorem canon_linkFail (s : State) (link : Nat) (good : Nat) (hc : Canon s) : Canon (State.linkFail s link good) := by
  unfold State.linkFail
  repeat' first | with_reducible assumption | with_reducible apply canon_moduleStop | with_reducible apply canon_elog |
                 with_reducible apply canon_after | with_reducible apply canon_ite |
                 (simp only [canon_mk_iff, wf_mem_iff])

theorem canon_pokeTraffic (s : State) (hc : Canon s) : Canon (State.pokeTraffic s) := by
  unfold State.pokeTraffic
  repeat' first | with_reducible assumption | (with_reducible intro _) | with_reducible apply canon_poke |
                 with_reducible apply canon_foldl | with_reducible apply canon_ite

theorem canon_linkBack (s : State) (link : Nat) (hc : Canon s) : Canon (State.linkBack s link) := by
  unfold State.linkBack
  repeat' first | with_reducible assumption | with_reducible apply canon_pokeTraffic | with_reducible apply canon_elog |
                 with_reducible apply canon_ite | (simp only [canon_mk_iff, wf_mem_iff])

theorem canon_portFail (s : State) (n : Nat) (good : Nat) (hc : Canon s) : Canon (State.portFail s n good) := by
  unfold State.portFail
  repeat' first | with_reducible assumption | with_reducible apply canon_after | with_reducible apply canon_ite |
                 (simp only [canon_mk_iff, wf_mem_iff])

theorem canon_ckMove (s : State) (n : Nat) (hc : Canon s) : Canon (State.ckMove s n) := by
  unfold State.ckMove
  repeat' first | with_reducible assumption | (with_reducible intro _) | with_reducible apply canon_poke |
                 with_reducible apply canon_foldl

theorem canon_portBack (s : State) (n : Nat) (hc : Canon s) : Canon (State.portBack s n) := by
  unfold State.portBack
  repeat' first | with_reducible assumption | with_reducible apply canon_ckFill | with_reducible apply canon_elog |
                 with_reducible apply canon_ite | split | (simp only [canon_mk_iff, wf_mem_iff])

theorem canon_hostFail (s : State) (good : Nat) (hc : Canon s) : Canon (State.hostFail s good) := by
  unfold State.hostFail
  repeat' first | with_reducible assumption | (simp only [canon_mk_iff, wf_mem_iff])

theorem canon_beacon (s : State) (f : Nat) (hc : Canon s) : Canon (State.beacon s f) := by
  unfold State.beacon
  repeat' first | with_reducible assumption | with_reducible apply canon_elog | with_reducible apply canon_ite | split |
                 (simp only [canon_mk_iff, wf_mem_iff])

theorem canon_beaconLost (s : State) (f : Nat) (hc : Canon s) : Canon (State.beaconLost s f) := by
  unfold State.beaconLost
  repeat' first | with_reducible assumption | with_reducible apply canon_elog | with_reducible apply canon_ite |
                 (simp only [canon_mk_iff, wf_mem_iff])

theorem canon_taken (s : State) (hc : Canon s) : Canon (State.taken s) := by
  unfold State.taken
  repeat' first | with_reducible assumption | (simp only [canon_mk_iff, wf_mem_iff])

theorem canon_dataBack (s : State) (h : Nat) (hc : Canon s) : Canon (State.dataBack s h) := by
  unfold State.dataBack
  repeat' first | with_reducible assumption | with_reducible apply canon_endTurn | with_reducible apply canon_offer |
                 with_reducible apply canon_ite

theorem canon_refillOne (s : State) (t : Nat) (hc : Canon s) : Canon (State.refillOne s t) := by
  unfold State.refillOne
  repeat' first | with_reducible assumption | with_reducible apply canon_setSlot | with_reducible apply canon_poke |
                 with_reducible apply canon_ite | (simp only [canon_mk_iff, wf_mem_iff])

theorem canon_refillAll (s : State) (hc : Canon s) : Canon (State.refillAll s) := by
  unfold State.refillAll
  repeat' first | with_reducible assumption | (with_reducible intro _) | with_reducible apply canon_refillOne |
                 with_reducible apply canon_foldl

theorem canon_releaseHead (s : State) (t : Nat) (hc : Canon s) : Canon (State.releaseHead s t) := by
  unfold State.releaseHead
  repeat' first | with_reducible assumption | with_reducible apply canon_setSlot | with_reducible apply canon_outDo |
                 with_reducible apply canon_stallSlot | with_reducible apply canon_poke |
                 with_reducible apply canon_ite | split | (simp only [canon_mk_iff, wf_mem_iff]) |
                 with_reducible refine canon_opt (by assumption) ?_

theorem canon_debtStall (s : State) (t : Nat) (since : Nat) (hc : Canon s) : Canon (State.debtStall s t since) := by
  unfold State.debtStall
  repeat' first | with_reducible assumption | with_reducible apply canon_elog | with_reducible apply canon_ite

theorem canon_messageIn (s : State) (port : Nat) (dg : Datagram) (L : Nat) (ch : Nat) (ws : List Word) (srcw : Word) (hc :
    Canon s) : Canon (State.messageIn s port dg L ch ws srcw) := by
  unfold State.messageIn
  repeat' first | with_reducible assumption | with_reducible apply canon_dropDatagram |
                 with_reducible apply canon_postMessage | with_reducible apply canon_ite | split

theorem canon_replyIn (s : State) (tag : Nat) (code : Nat) (v : Word) (epoch : Nat) (bytes : List Byte) (hc : Canon s) :
    Canon (State.replyIn s tag code v epoch bytes) := by
  unfold State.replyIn
  repeat' first | with_reducible assumption | with_reducible apply canon_owe | with_reducible apply canon_copyReply |
                 with_reducible apply canon_poke | with_reducible apply canon_newId | with_reducible apply canon_ite |
                 split | (simp only [canon_mk_iff, wf_mem_iff])

theorem canon_datagramIn (s : State) (port : Nat) (dg : Datagram) (hc : Canon s) : Canon (State.datagramIn s port dg) := by
  unfold State.datagramIn
  repeat' first | with_reducible assumption | with_reducible apply canon_dropDatagram |
                 with_reducible apply canon_messageIn | with_reducible apply canon_poke |
                 with_reducible apply canon_replyIn | with_reducible apply canon_ite | split

theorem canon_windowReply (s : State) (w : Nat) (rq : WinReq) (code : Nat) (bytes : List Byte) (hc : Canon s) : Canon
    (State.windowReply s w rq code bytes) := by
  unfold State.windowReply
  repeat' first | with_reducible assumption | with_reducible apply canon_sendDatagram

theorem canon_exportDo (s : State) (w : Nat) (rq : WinReq) (hc : Canon s) : Canon (State.exportDo s w rq) := by
  unfold State.exportDo
  repeat' first | with_reducible assumption | with_reducible apply canon_windowReply |
                 with_reducible apply canon_writeBytes | with_reducible apply canon_newId |
                 with_reducible apply canon_poke | split | (simp only [canon_mk_iff, wf_mem_iff]) |
                 with_reducible refine canon_snd (by assumption) ?_

theorem canon_revokeNow (s : State) (w : Nat) (hc : Canon s) : Canon (State.revokeNow s w) := by
  unfold State.revokeNow
  repeat' first | with_reducible assumption | with_reducible apply canon_revokeWindow | with_reducible apply canon_ite

theorem canon_revokeDone (s : State) (w : Nat) (hc : Canon s) : Canon (State.revokeDone s w) := by
  unfold State.revokeDone
  repeat' first | with_reducible assumption | with_reducible apply canon_ite | (simp only [canon_mk_iff, wf_mem_iff])

theorem canon_ckAck (s : State) (unit : Nat) (code : Nat) (hc : Canon s) : Canon (State.ckAck s unit code) := by
  unfold State.ckAck
  repeat' first | with_reducible assumption | with_reducible apply canon_ckEnd | with_reducible apply canon_elog |
                 with_reducible apply canon_ckFill | with_reducible apply canon_ite |
                 (simp only [canon_mk_iff, wf_mem_iff])

theorem canon_ckResend (s : State) (unit : Nat) (hc : Canon s) : Canon (State.ckResend s unit) := by
  unfold State.ckResend
  repeat' first | with_reducible assumption | with_reducible apply canon_ckEnd | with_reducible apply canon_elog |
                 with_reducible apply canon_after | with_reducible apply canon_ckSend | with_reducible apply canon_ite |
                 split | (simp only [canon_mk_iff, wf_mem_iff])

theorem canon_gridPeriod (s : State) (hc : Canon s) : Canon (State.gridPeriod s) := by
  unfold State.gridPeriod
  repeat' first | with_reducible assumption | with_reducible apply canon_writeNat |
                 with_reducible apply canon_writeBytes | with_reducible apply canon_ite |
                 (simp only [canon_mk_iff, wf_mem_iff])

theorem canon_sampleSorus (s : State) (n : Nat) (hc : Canon s) : Canon (State.sampleSorus s n) := by
  unfold State.sampleSorus
  repeat' first | with_reducible assumption | with_reducible apply canon_setSorus | with_reducible apply canon_ite

theorem canon_takePool (s : State) (t : Nat) (hc : Canon s) : Canon (State.takePool s t) := by
  unfold State.takePool
  repeat' first | with_reducible assumption | with_reducible apply canon_setSlot | with_reducible apply canon_ite

theorem canon_sampleAll (s : State) (hc : Canon s) : Canon (State.sampleAll s) := by
  unfold State.sampleAll
  repeat' first | with_reducible assumption | (with_reducible intro _) | with_reducible apply canon_sampleSorus |
                 with_reducible apply canon_foldl

theorem canon_refill (s : State) (t : Nat) (hc : Canon s) : Canon (State.refill s t) := by
  unfold State.refill
  repeat' first | with_reducible assumption | with_reducible apply canon_setSlot | with_reducible apply canon_ite

theorem canon_setLevel (s : State) (n : Nat) (new : Nat) (grace : Bool) (payer : Option Nat) (hc : Canon s) : Canon
    (State.setLevel s n new grace payer) := by
  unfold State.setLevel
  repeat' first | with_reducible assumption | with_reducible apply canon_setSorus |
                 with_reducible apply canon_startSlew | with_reducible apply canon_setSx |
                 with_reducible apply canon_ite

theorem canon_permitSorus (s : State) (room : Int) (n : Nat) (hc : Canon s) : Canon (s.permitSorus room n).1 := by
  unfold State.permitSorus
  repeat' first | with_reducible assumption | with_reducible apply canon_setSlot | with_reducible apply canon_setLevel |
                 with_reducible apply canon_ite | split

theorem canon_permitAll (s : State) (hc : Canon s) : Canon (State.permitAll s) := by
  unfold State.permitAll
  repeat' first | with_reducible assumption | (with_reducible intro _) | with_reducible apply canon_takePool |
                 with_reducible apply canon_refill | with_reducible apply canon_permitSorus |
                 with_reducible apply canon_foldl | with_reducible apply canon_foldl_fst

theorem canon_slewEnd (s : State) (n : Nat) (hc : Canon s) : Canon (State.slewEnd s n) := by
  unfold State.slewEnd
  repeat' first | with_reducible assumption | with_reducible apply canon_clkChange

theorem canon_controlSorus (s : State) (n : Nat) (hc : Canon s) : Canon (State.controlSorus s n) := by
  unfold State.controlSorus
  repeat' first | with_reducible assumption | with_reducible apply canon_setSorus |
                 with_reducible apply canon_serveAdmissions

theorem canon_controlAll (s : State) (hc : Canon s) : Canon (State.controlAll s) := by
  unfold State.controlAll
  repeat' first | with_reducible assumption | (with_reducible intro _) | with_reducible apply canon_controlSorus |
                 with_reducible apply canon_foldl

theorem canon_sendWork (s : State) (h : Nat) (r : Resv) (hc : Canon s) : Canon (State.sendWork s h r) := by
  unfold State.sendWork
  repeat' first | with_reducible assumption | with_reducible apply canon_postMessage

theorem canon_gangRelease (s : State) (p : Nat) (slot : Nat) (grp : Nat) (hc : Canon s) : Canon (State.gangRelease s p slot
    grp) := by
  unfold State.gangRelease
  repeat' first | with_reducible assumption | (with_reducible intro _) | with_reducible apply canon_sendWork |
                 with_reducible apply canon_foldl | with_reducible apply canon_ite | split

theorem canon_refillQueue (s : State) (p : Nat) (hc : Canon s) : Canon (State.refillQueue s p) := by
  unfold State.refillQueue
  repeat' first | with_reducible assumption | with_reducible apply canon_elog | with_reducible apply canon_setPart |
                 with_reducible apply canon_poke | with_reducible apply canon_ite | split |
                 (simp only [canon_mk_iff, wf_mem_iff])

theorem canon_slotCopy (s : State) (p : Nat) (hc : Canon s) : Canon (State.slotCopy s p) := by
  unfold State.slotCopy
  repeat' first | with_reducible assumption | with_reducible apply canon_partWrite | with_reducible apply canon_elog |
                 with_reducible apply canon_setPart | with_reducible apply canon_poke | with_reducible apply canon_ite |
                 split | (simp only [canon_mk_iff, wf_mem_iff]) | with_reducible refine canon_opt (by assumption) ?_

theorem canon_reserveCtx (s : State) (h : Nat) (r : Resv) (hc : Canon s) : Canon (State.reserveCtx s h r) := by
  unfold State.reserveCtx
  repeat' first | with_reducible assumption | with_reducible apply canon_setCtx

theorem canon_reserveGroup (s : State) (p : Nat) (slot : Nat) (m : Nat) (hs : List Nat) (hc : Canon s) : Canon
    (State.reserveGroup s p slot m hs) := by
  unfold State.reserveGroup
  repeat' first | with_reducible assumption | (with_reducible intro _) | with_reducible apply canon_setLaunch |
                 with_reducible apply canon_reserveCtx | with_reducible apply canon_dlStart |
                 with_reducible apply canon_foldl | split

theorem canon_dropKeep (s : State) (p : Nat) (slot : Nat) (hc : Canon s) : Canon (State.dropKeep s p slot) := by
  unfold State.dropKeep
  repeat' first | with_reducible assumption | (with_reducible intro _) | with_reducible apply canon_setLaunch |
                 with_reducible apply canon_poke | with_reducible apply canon_setCtx |
                 with_reducible apply canon_foldl | with_reducible apply canon_ite | split

theorem canon_sendGroups (s : State) (p : Nat) (slot : Nat) (gang : Bool) (places : List (Nat × List Nat)) (hc : Canon s) :
    Canon (State.sendGroups s p slot gang places) := by
  unfold State.sendGroups
  repeat' first | with_reducible assumption | (with_reducible intro _) | with_reducible apply canon_setLaunch |
                 with_reducible apply canon_sendWork | with_reducible apply canon_after |
                 with_reducible apply canon_gangRelease | with_reducible apply canon_foldl |
                 with_reducible apply canon_ite | split

theorem canon_returnTo (s : State) (v : Saved) (L : Nat) (hc : Canon s) : Canon (State.returnTo s v L) := by
  unfold State.returnTo
  repeat' first | with_reducible assumption | with_reducible apply canon_poke | with_reducible apply canon_setCore |
                 with_reducible apply canon_setSaved

theorem canon_returnSaved (s : State) (v : Saved) (hc : Canon s) : Canon (State.returnSaved s v) := by
  unfold State.returnSaved
  repeat' first | with_reducible assumption | with_reducible apply canon_returnTo | split

theorem canon_askYield (s : State) (p : Nat) (slot : Nat) (l : Launch) (groups : List (List Nat)) (all : Bool) (hc : Canon s)
    : Canon (State.askYield s p slot l groups all) := by
  unfold State.askYield
  repeat' first | with_reducible assumption | (with_reducible intro _) | with_reducible apply canon_poke |
                 with_reducible apply canon_foldl | with_reducible apply canon_ite | split

theorem canon_autoAbort (s : State) (p : Nat) (slot : Nat) (l : Launch) (hc : Canon s) : Canon (State.autoAbort s p slot l) := by
  unfold State.autoAbort
  repeat' first | with_reducible assumption | (with_reducible intro _) | with_reducible apply canon_scanStop |
                 with_reducible apply canon_foldl | with_reducible apply canon_ite | split |
                 (simp only [canon_mk_iff, wf_mem_iff])

theorem canon_dispatchStep (s : State) (p : Nat) (slot : Nat) (l : Launch) (places : List (Nat × List Nat)) (hc : Canon s) :
    Canon (State.dispatchStep s p slot l places) := by
  unfold State.dispatchStep
  repeat' first | with_reducible assumption | (with_reducible intro _) | with_reducible apply canon_reserveGroup |
                 with_reducible apply canon_dropKeep | with_reducible apply canon_returnTo |
                 with_reducible apply canon_poke | with_reducible apply canon_sendGroups |
                 with_reducible apply canon_foldl | with_reducible apply canon_ite

theorem canon_dispatchBlocked (s : State) (p : Nat) (slot : Nat) (l : Launch) (hc : Canon s) : Canon (State.dispatchBlocked s
    p slot l) := by
  unfold State.dispatchBlocked
  repeat' first | with_reducible assumption | (with_reducible intro _) | with_reducible apply canon_autoAbort |
                 with_reducible apply canon_askYield | with_reducible apply canon_returnSaved |
                 with_reducible apply canon_dropKeep | with_reducible apply canon_foldl | with_reducible apply canon_ite

theorem canon_pokeCores (s : State) (p : Nat) (hc : Canon s) : Canon (State.pokeCores s p) := by
  unfold State.pokeCores
  repeat' first | with_reducible assumption | (with_reducible intro _) | with_reducible apply canon_poke |
                 with_reducible apply canon_foldl | with_reducible apply canon_ite

theorem canon_dispatch (s : State) (p : Nat) (hc : Canon s) : Canon (State.dispatch s p) := by
  unfold State.dispatch
  repeat' first | with_reducible assumption | (with_reducible intro _) | with_reducible apply canon_pokeCores |
                 with_reducible apply canon_returnSaved | with_reducible apply canon_poke |
                 with_reducible apply canon_setLaunch | with_reducible apply canon_autoAbort |
                 with_reducible apply canon_dispatchStep | with_reducible apply canon_dispatchBlocked |
                 with_reducible apply canon_foldl | with_reducible apply canon_ite | split

theorem canon_unreserve (s : State) (h : Nat) (hc : Canon s) : Canon (State.unreserve s h) := by
  unfold State.unreserve
  repeat' first | with_reducible assumption | with_reducible apply canon_setCore | with_reducible apply canon_pokeEnd |
                 with_reducible apply canon_dlStart | with_reducible apply canon_launchEnd |
                 with_reducible apply canon_setCtx | split | (simp only [canon_mk_iff, wf_mem_iff])

theorem canon_killSaved (s : State) (p : Nat) (v : Saved) (hc : Canon s) : Canon (State.killSaved s p v) := by
  unfold State.killSaved
  repeat' first | with_reducible assumption | with_reducible apply canon_setPart | with_reducible apply canon_setCore |
                 with_reducible apply canon_orphanCopies | with_reducible apply canon_launchEnd |
                 with_reducible apply canon_pokeEnd | with_reducible apply canon_dlStart | split

theorem canon_killLaunch (s : State) (k : Nat) (hc : Canon s) : Canon (State.killLaunch s k) := by
  unfold State.killLaunch
  repeat' first | with_reducible assumption | (with_reducible intro _) | with_reducible apply canon_dropKeep |
                 with_reducible apply canon_kill | with_reducible apply canon_unreserve |
                 with_reducible apply canon_killSaved | with_reducible apply canon_foldl |
                 with_reducible apply canon_ite

theorem canon_writeRecord (s : State) (p : Nat) (l : Launch) (status : Nat) (hc : Canon s) : Canon (State.writeRecord s p l
    status) := by
  unfold State.writeRecord
  repeat' first | with_reducible assumption | with_reducible apply canon_partWrite | with_reducible apply canon_elog |
                 with_reducible apply canon_ite | split | with_reducible refine canon_opt (by assumption) ?_

theorem canon_raiseMsix (s : State) (t : Nat) (v : Nat) (hc : Canon s) : Canon (State.raiseMsix s t v) := by
  unfold State.raiseMsix
  repeat' first | with_reducible assumption | with_reducible apply canon_setSlot | with_reducible apply canon_emit |
                 with_reducible apply canon_ite

theorem canon_signal (s : State) (l : Launch) (status : Nat) (hc : Canon s) : Canon (State.signal s l status) := by
  unfold State.signal
  repeat' first | with_reducible assumption | with_reducible apply canon_raiseMsix |
                 with_reducible apply canon_postMessage | with_reducible apply canon_ite | split

theorem canon_complete (s : State) (p : Nat) (slot : Nat) (hc : Canon s) : Canon (State.complete s p slot) := by
  unfold State.complete
  repeat' first | with_reducible assumption | with_reducible apply canon_dropKeep | with_reducible apply canon_signal |
                 with_reducible apply canon_writeRecord | with_reducible apply canon_poke |
                 with_reducible apply canon_setPart | with_reducible apply canon_pokeCores |
                 with_reducible apply canon_ite | split

theorem canon_passSorus (s : State) (n : Nat) (hc : Canon s) : Canon (State.passSorus s n) := by
  unfold State.passSorus
  repeat' first | with_reducible assumption | (with_reducible intro _) | with_reducible apply canon_setPart |
                 with_reducible apply canon_setCore | with_reducible apply canon_setSorus |
                 with_reducible apply canon_tenantChanged | with_reducible apply canon_poke |
                 with_reducible apply canon_foldl | with_reducible apply canon_ite

theorem canon_claimBanks (s : State) (L : Nat) (mask : Nat) (fid : Nat) (actor : Nat) (hc : Canon s) : Canon
    (State.claimBanks s L mask fid actor) := by
  unfold State.claimBanks
  repeat' first | with_reducible assumption | (with_reducible intro _) | with_reducible apply canon_wipeBank |
                 with_reducible apply canon_setBank | with_reducible apply canon_foldl | with_reducible apply canon_ite

theorem canon_drawVrid (s : State) (t : Nat) (hc : Canon s) : Canon (s.drawVrid t).2 := by
  unfold State.drawVrid
  repeat' first | with_reducible assumption | with_reducible apply canon_setSlot

theorem canon_placeFiring (s : State) (h : Nat) (f : Firing) (entry : Word) (hc : Canon s) : Canon (State.placeFiring s h f
    entry) := by
  unfold State.placeFiring
  repeat' first | with_reducible assumption | with_reducible apply canon_setAux | with_reducible apply canon_setCtx |
                 with_reducible apply canon_setCore | with_reducible apply canon_poke | with_reducible apply canon_trace

theorem canon_injectKill (s : State) (L ch t : Nat) (hc : Canon s) : Canon (s.injectKill L ch t).2 := by
  unfold State.injectKill
  repeat' first | with_reducible assumption | with_reducible apply canon_finjDone | split

theorem canon_startWork (s : State) (L : Nat) (h : Nat) (r : Resv) (hc : Canon s) : Canon (State.startWork s L h r) := by
  unfold State.startWork
  repeat' first | with_reducible assumption | with_reducible apply canon_setCore | with_reducible apply canon_newId |
                 with_reducible apply canon_drawVrid | with_reducible apply canon_injectKill |
                 with_reducible apply canon_claimBanks | with_reducible apply canon_placeFiring |
                 with_reducible apply canon_pokeChannel | with_reducible apply canon_capEvent |
                 with_reducible apply canon_dlReset

theorem canon_startChan (s : State) (L : Nat) (n : Nat) (hc : Canon s) : Canon (State.startChan s L n) := by
  unfold State.startChan
  repeat' first | with_reducible assumption | with_reducible apply canon_setCore | with_reducible apply canon_newId |
                 with_reducible apply canon_drawVrid | with_reducible apply canon_injectKill |
                 with_reducible apply canon_placeFiring | with_reducible apply canon_poke |
                 with_reducible apply canon_pokeChannel | with_reducible apply canon_capEvent | split |
                 (simp only [canon_mk_iff, wf_mem_iff])

theorem canon_startOwner (s : State) (L : Nat) (id : Nat) (hc : Canon s) : Canon (State.startOwner s L id) := by
  unfold State.startOwner
  repeat' first | with_reducible assumption | with_reducible apply canon_setCore | with_reducible apply canon_poke |
                 with_reducible apply canon_ownerReply | with_reducible apply canon_newId |
                 with_reducible apply canon_finjDone | with_reducible apply canon_placeFiring | split |
                 (simp only [canon_mk_iff, wf_mem_iff])

theorem canon_fillBlock (s : State) (p : Nat) (va : Word) (a3 : Nat) (hc : Canon s) : Canon (State.fillBlock s p va a3) := by
  induction a3 generalizing s va with
  | zero => exact hc
  | succ k ih =>
    unfold State.fillBlock
    have h1 : Canon s.freeWord.2 := canon_freeWord _ hc
    split
    rename_i e
    rw [e] at h1
    split
    · exact ih _ _ (canon_writeNat h1 ..)
    · exact ih _ _ h1

theorem canon_parkCopies (s : State) (L : Nat) (fid : Nat) (hc : Canon s) : Canon (State.parkCopies s L fid) := by
  unfold State.parkCopies
  repeat' first | with_reducible assumption | with_reducible apply canon_setCore | with_reducible apply canon_poke |
                 with_reducible apply canon_ite | (simp only [canon_mk_iff, wf_mem_iff])

theorem canon_rejoinCopies (s : State) (h : Nat) (fid : Nat) (hc : Canon s) : Canon (State.rejoinCopies s h fid) := by
  unfold State.rejoinCopies
  repeat' first | with_reducible assumption | (with_reducible intro _) | with_reducible apply canon_poke |
                 with_reducible apply canon_setCore | with_reducible apply canon_setCopy |
                 with_reducible apply canon_foldl | with_reducible apply canon_ite

theorem canon_saveFails (s : State) (h : Nat) (code : Nat) (hc : Canon s) : Canon (State.saveFails s h code) := by
  unfold State.saveFails
  repeat' first | with_reducible assumption | with_reducible apply canon_preqsDone | with_reducible apply canon_setCtx |
                 with_reducible apply canon_setAux | with_reducible apply canon_countsWake |
                 with_reducible apply canon_restartPorts | with_reducible apply canon_rejoinCopies | split |
                 (simp only [canon_mk_iff, wf_mem_iff])

theorem canon_afterSave (s : State) (h : Nat) (f : Firing) (hc : Canon s) : Canon (State.afterSave s h f) := by
  unfold State.afterSave
  have h1 (t : State) (ht : Canon t) : Canon (match f.key with
      | some k =>
        State.dlStart (match t.launchOf f with | some l => t.setLaunch k { l with dlDue := none, dlLeft := none } | none => t) k
      | none => t) := by
    split
    · refine canon_dlStart _ _ ?_
      split
      · exact canon_setLaunch _ _ _ ht
      · exact ht
    · exact ht
  refine h1 _ (canon_ite (canon_poke _ _ ?_) ?_)
  all_goals
    repeat' first
      | with_reducible assumption
      | with_reducible apply canon_poke
      | with_reducible apply canon_ite
      | with_reducible apply canon_ticketLifts
      | with_reducible apply canon_settleKeep
      | with_reducible apply canon_setLaunch
      | with_reducible apply canon_setCtx
      | split

theorem canon_saveFiring (s : State) (h : Nat) (hc : Canon s) : Canon (State.saveFiring s h) := by
  unfold State.saveFiring
  repeat' first | with_reducible assumption | with_reducible apply canon_saveFails | with_reducible apply canon_newId |
                 with_reducible apply canon_elog | with_reducible apply canon_fillBlock |
                 with_reducible apply canon_trace | with_reducible apply canon_setCore |
                 with_reducible apply canon_releaseRows | with_reducible apply canon_releaseBanks |
                 with_reducible apply canon_setPart | with_reducible apply canon_preqsDone |
                 with_reducible apply canon_setLaunch | with_reducible apply canon_afterSave |
                 with_reducible apply canon_freeCtx | with_reducible apply canon_ite | split |
                 (simp only [canon_mk_iff, wf_mem_iff]) | with_reducible refine canon_snd (by assumption) ?_

theorem canon_saveNow (s : State) (h : Nat) (hc : Canon s) : Canon (State.saveNow s h) := by
  unfold State.saveNow
  repeat' first | with_reducible assumption | with_reducible apply canon_saveFiring | with_reducible apply canon_ite |
                 split | (simp only [canon_mk_iff, wf_mem_iff])

theorem canon_enterSaving (s : State) (h : Nat) (hc : Canon s) : Canon (State.enterSaving s h) := by
  unfold State.enterSaving
  repeat' first | with_reducible assumption | with_reducible apply canon_setAux | with_reducible apply canon_setCtx |
                 with_reducible apply canon_poke | with_reducible apply canon_parkCopies | split

theorem canon_reachSafe (s : State) (h : Nat) (hc : Canon s) : Canon (State.reachSafe s h) := by
  unfold State.reachSafe
  repeat' first | with_reducible assumption | with_reducible apply canon_poke | with_reducible apply canon_enterSaving |
                 with_reducible apply canon_closeChunk | with_reducible apply canon_refuseDrain |
                 with_reducible apply canon_preqsDone | with_reducible apply canon_ite | split |
                 (simp only [canon_mk_iff, wf_mem_iff])

theorem canon_moveBursts (s : State) (a : Nat) (b : Nat) (n : Nat) (hc : Canon s) : Canon (State.moveBursts s a b n) := by
  unfold State.moveBursts
  repeat' first | with_reducible assumption | with_reducible apply canon_setSorus | with_reducible apply canon_ite

theorem canon_startResume (s : State) (L : Nat) (v : Saved) (hc : Canon s) : Canon (State.startResume s L v) := by
  unfold State.startResume
  repeat' first | with_reducible assumption | (with_reducible intro _) | with_reducible apply canon_setCore |
                 with_reducible apply canon_setPart | with_reducible apply canon_claimBanks |
                 with_reducible apply canon_clearRange | with_reducible apply canon_setAux |
                 with_reducible apply canon_setCtx | with_reducible apply canon_moveBursts |
                 with_reducible apply canon_poke | with_reducible apply canon_foldl |
                 with_reducible apply wf_foldl_tset | split | (simp only [canon_mk_iff, wf_mem_iff])

theorem canon_freeBlock (s : State) (h : Nat) (p : Nat) (hc : Canon s) : Canon (State.freeBlock s h p) := by
  unfold State.freeBlock
  repeat' first | with_reducible assumption | with_reducible apply canon_setAux | with_reducible apply canon_setPart |
                 split

theorem canon_resumePorts (s : State) (h : Nat) (hc : Canon s) : Canon (State.resumePorts s h) := by
  unfold State.resumePorts
  repeat' first | with_reducible assumption | (with_reducible intro _) | with_reducible apply canon_poke |
                 with_reducible apply canon_foldl

theorem canon_restoreNow (s : State) (h : Nat) (hc : Canon s) : Canon (State.restoreNow s h) := by
  unfold State.restoreNow
  repeat' first | with_reducible assumption | with_reducible apply canon_kill | with_reducible apply canon_freeBlock |
                 with_reducible apply canon_elog | with_reducible apply canon_countFault |
                 with_reducible apply canon_setCtx | with_reducible apply canon_trace |
                 with_reducible apply canon_traceSync | with_reducible apply canon_pokeYield |
                 with_reducible apply canon_resumePorts | with_reducible apply canon_rejoinCopies |
                 with_reducible apply canon_waitCommit | with_reducible apply canon_ite | split |
                 (simp only [canon_mk_iff, wf_mem_iff])

theorem canon_ticketAsk (s : State) (L : Nat) (hc : Canon s) : Canon (State.ticketAsk s L) := by
  unfold State.ticketAsk
  repeat' first | with_reducible assumption | (with_reducible intro _) | with_reducible apply canon_poke |
                 with_reducible apply canon_foldl | with_reducible apply canon_ite | split

theorem canon_select (s : State) (L : Nat) (hc : Canon s) : Canon (State.select s L) := by
  unfold State.select
  repeat' first | with_reducible assumption | with_reducible apply canon_ticketAsk |
                 with_reducible apply canon_startOwner | with_reducible apply canon_startResume |
                 with_reducible apply canon_poke | with_reducible apply canon_startWork |
                 with_reducible apply canon_startChan | with_reducible apply canon_ite | split |
                 (simp only [canon_mk_iff, wf_mem_iff])

theorem canon_deadlock (s : State) (p : Nat) (slot : Nat) (l : Launch) (hc : Canon s) : Canon (State.deadlock s p slot l) := by
  unfold State.deadlock
  repeat' first | with_reducible assumption | with_reducible apply canon_elog | with_reducible apply canon_poke |
                 with_reducible apply canon_killLaunch | with_reducible apply canon_setLaunch

theorem canon_relieve (s : State) (p : Nat) (slot : Nat) (l : Launch) (hc : Canon s) : Canon (State.relieve s p slot l) := by
  unfold State.relieve
  repeat' first | with_reducible assumption | with_reducible apply canon_poke | with_reducible apply canon_askYield |
                 with_reducible apply canon_setLaunch

theorem canon_stuckKill (s : State) (slot : Nat) (L : Nat) (addr : Word) (f : Firing) (kill : State → State) (hk : ∀ s, Canon
    s → Canon (kill s)) (hc : Canon s) : Canon (State.stuckKill s slot L addr f kill) := by
  unfold State.stuckKill
  exact hk _ (canon_elog _ _ _ _ _ _ (canon_countFault _ _ hc))

theorem canon_stuckKills (s : State) (p : Nat) (slot : Nat) (l : Launch) (hc : Canon s) : Canon (State.stuckKills s p slot l) := by
  unfold State.stuckKills
  repeat' first | with_reducible assumption | (with_reducible intro _) | with_reducible apply canon_stuckKill |
                 with_reducible apply canon_kill | with_reducible apply canon_killSaved |
                 with_reducible apply canon_foldl | split

theorem canon_detect (s : State) (p : Nat) (slot : Nat) (due : Nat) (hc : Canon s) : Canon (State.detect s p slot due) := by
  unfold State.detect
  repeat' first | with_reducible assumption | with_reducible apply canon_after | with_reducible apply canon_setLaunch |
                 with_reducible apply canon_dlStart | with_reducible apply canon_deadlock |
                 with_reducible apply canon_relieve | with_reducible apply canon_stuckKills |
                 with_reducible apply canon_ite | split

theorem canon_between (s : State) (h : Nat) (take : State → State) (ht : ∀ s, Canon s → Canon (take s)) (hc : Canon s) :
    Canon (State.between s h take) := by
  unfold State.between
  exact canon_ite (ht _ hc) (canon_closeChunk _ _ hc)

theorem canon_takeEi (s : State) (h : Nat) (hc : Canon s) : Canon (State.takeEi s h) := by
  unfold State.takeEi
  repeat' first | with_reducible assumption | with_reducible apply canon_takeTrap | with_reducible apply canon_setCtx

theorem canon_interruptNow (s : State) (h : Nat) (hc : Canon s) : Canon (State.interruptNow s h) := by
  unfold State.interruptNow
  repeat' first | with_reducible assumption | (with_reducible intro _) | with_reducible apply canon_between |
                 with_reducible apply canon_takeEi | with_reducible apply canon_ite

theorem canon_endTransfer (s : State) (h : Nat) (e : EngFault) (hc : Canon s) : Canon (State.endTransfer s h e) := by
  unfold State.endTransfer
  repeat' first | with_reducible assumption | with_reducible apply canon_copyEnd | with_reducible apply canon_poke |
                 with_reducible apply canon_countsWake | with_reducible apply canon_setAux |
                 with_reducible apply canon_ite | split

theorem canon_takeEngine (s : State) (h : Nat) (hc : Canon s) : Canon (State.takeEngine s h) := by
  unfold State.takeEngine
  repeat' first | with_reducible assumption | with_reducible apply canon_setAux |
                 with_reducible apply canon_endTransfer | with_reducible apply canon_faultInstead |
                 with_reducible apply canon_takeTrap | with_reducible apply canon_ite | split |
                 (simp only [canon_mk_iff, wf_mem_iff])

theorem canon_engineNow (s : State) (h : Nat) (hc : Canon s) : Canon (State.engineNow s h) := by
  unfold State.engineNow
  repeat' first | with_reducible assumption | (with_reducible intro _) | with_reducible apply canon_takeEngine |
                 with_reducible apply canon_between | with_reducible apply canon_ite | split

theorem canon_takeLate (s : State) (h : Nat) (hc : Canon s) : Canon (State.takeLate s h) := by
  unfold State.takeLate
  repeat' first | with_reducible assumption | with_reducible apply canon_setAux | with_reducible apply canon_takeTrap |
                 with_reducible apply canon_ite | split | (simp only [canon_mk_iff, wf_mem_iff])

theorem canon_trapNow (s : State) (h : Nat) (r : TrapReq) (hc : Canon s) : Canon (State.trapNow s h r) := by
  unfold State.trapNow
  repeat' first | with_reducible assumption | (with_reducible intro _) | with_reducible apply canon_takeTrap |
                 with_reducible apply canon_takeLate | with_reducible apply canon_between |
                 with_reducible apply canon_ite

theorem canon_errReaches (s : State) (fid : Nat) (L : Nat) (kind : Nat) (addr : Word) (hc : Canon s) : Canon
    (State.errReaches s fid L kind addr) := by
  unfold State.errReaches
  repeat' first | with_reducible assumption | with_reducible apply canon_elog | with_reducible apply canon_countFault |
                 split

theorem canon_errEi (s : State) (fid : Nat) (L : Nat) (kind : Nat) (addr : Word) (hc : Canon s) : Canon (State.errEi s fid L
    kind addr) := by
  unfold State.errEi
  repeat' first | with_reducible assumption | with_reducible apply canon_setEi | with_reducible apply canon_errReaches

theorem canon_errLoad (s : State) (h : Nat) (va : Word) (hc : Canon s) : Canon (State.errLoad s h va) := by
  unfold State.errLoad
  repeat' first | with_reducible assumption | with_reducible apply canon_killByHardware |
                 with_reducible apply canon_elog | split

theorem canon_zeroRest (s : State) (key : Nat) (o : Chunk) (hc : Canon s) : Canon (State.zeroRest s key o) := by
  unfold State.zeroRest
  repeat' first | with_reducible assumption | (with_reducible intro _) | with_reducible apply canon_writeNat |
                 with_reducible apply canon_foldl | with_reducible apply canon_ite

theorem canon_errDrain (s : State) (h : Nat) (key : Nat) (va : Word) (hc : Canon s) : Canon (State.errDrain s h key va) := by
  unfold State.errDrain
  repeat' first | with_reducible assumption | with_reducible apply canon_errEi | with_reducible apply canon_drainDone |
                 with_reducible apply canon_localDone | with_reducible apply canon_zeroRest |
                 with_reducible apply canon_ite | split

theorem canon_errCopy (s : State) (L : Nat) (a : Nat) (hc : Canon s) : Canon (State.errCopy s L a) := by
  unfold State.errCopy
  repeat' first | with_reducible assumption | with_reducible apply canon_errEi | with_reducible apply canon_copyEnd |
                 with_reducible apply canon_ite | split

theorem canon_errTile (s : State) (L : Nat) (off : Nat) (hc : Canon s) : Canon (State.errTile s L off) := by
  unfold State.errTile
  repeat' first | with_reducible assumption | with_reducible apply canon_errEi | with_reducible apply canon_tileDone |
                 with_reducible apply canon_ite | split

theorem canon_errDatum (s : State) (id : Nat) (hc : Canon s) : Canon (State.errDatum s id) := by
  unfold State.errDatum
  repeat' first | with_reducible assumption | with_reducible apply canon_poke | with_reducible apply canon_setCtx |
                 split | (simp only [canon_mk_iff, wf_mem_iff])

theorem canon_errCrozier (s : State) (k : Nat) (tag : Nat) (hc : Canon s) : Canon (State.errCrozier s k tag) := by
  unfold State.errCrozier
  repeat' first | with_reducible assumption | (with_reducible intro _) | with_reducible apply canon_setCombines |
                 with_reducible apply canon_errReaches | with_reducible apply canon_poke |
                 with_reducible apply canon_crzCollect | with_reducible apply canon_foldl | split

theorem canon_errLogEntry (s : State) (p : Nat) (slice : Nat) (idx : Nat) (hc : Canon s) : Canon (State.errLogEntry s p slice
    idx) := by
  unfold State.errLogEntry
  repeat' first | with_reducible assumption | with_reducible apply canon_errReaches |
                 with_reducible apply canon_setPart | split | (simp only [canon_mk_iff, wf_mem_iff])

theorem canon_errCache (s : State) (n : Nat) (i : Nat) (hc : Canon s) : Canon (State.errCache s n i) := by
  unfold State.errCache
  repeat' first | with_reducible assumption | with_reducible apply canon_elog | with_reducible apply canon_setSorus |
                 with_reducible apply canon_ite

theorem canon_errorAt (s : State) (a1 : ErrSite) (hc : Canon s) : Canon (State.errorAt s a1) := by
  unfold State.errorAt
  repeat' first | with_reducible assumption | with_reducible apply canon_elog | with_reducible apply canon_errLoad |
                 with_reducible apply canon_errDrain | with_reducible apply canon_errCopy |
                 with_reducible apply canon_errTile | with_reducible apply canon_errDatum |
                 with_reducible apply canon_errCrozier | with_reducible apply canon_errLogEntry |
                 with_reducible apply canon_errCache | with_reducible apply canon_advanceEpoch |
                 with_reducible apply canon_ite | split

theorem canon_hostWrite (s : State) (line : Nat) (data : BitVec 512) (hc : Canon s) : Canon (State.hostWrite s line data) := by
  unfold State.hostWrite
  repeat' first | with_reducible assumption | with_reducible apply canon_after | with_reducible apply canon_stamp |
                 with_reducible apply canon_deviceCommit | with_reducible apply canon_writeNat |
                 with_reducible apply canon_ite

theorem canon_hostRead (s : State) (line : Nat) (hc : Canon s) : Canon (State.hostRead s line) := by
  unfold State.hostRead
  repeat' first | with_reducible assumption | with_reducible apply canon_emit | with_reducible apply canon_ite |
                 (simp only [canon_mk_iff, wf_mem_iff])

theorem canon_windowHeader (s : State) (w : Tab Word) (hc : Canon s) : Canon (s.windowHeader w).2 := by
  unfold State.windowHeader
  repeat' first | with_reducible assumption | (with_reducible intro _) | with_reducible apply canon_freeWord |
                 with_reducible apply canon_foldl_snd | split

theorem canon_windowWrite (s : State) (t : Nat) (k : Nat) (first : Nat) (ws : List Word) (posted : Bool) (hc : Canon s) :
    Canon (State.windowWrite s t k first ws posted) := by
  unfold State.windowWrite
  repeat' first | with_reducible assumption | with_reducible apply canon_hostRefuse |
                 with_reducible apply canon_setSlot | with_reducible apply canon_windowHeader |
                 with_reducible apply canon_poke | with_reducible apply canon_ite | split

theorem canon_msixWrite (s : State) (t : Nat) (i : Nat) (v : Word) (hc : Canon s) : Canon (State.msixWrite s t i v) := by
  unfold State.msixWrite
  repeat' first | with_reducible assumption | with_reducible apply canon_setSlot | with_reducible apply canon_emit |
                 with_reducible apply canon_ite

theorem canon_functionWrite (s : State) (t : Nat) (o : Nat) (v : Word) (posted : Bool) (hc : Canon s) : Canon
    (State.functionWrite s t o v posted) := by
  unfold State.functionWrite
  repeat' first | with_reducible assumption | with_reducible apply canon_windowWrite |
                 with_reducible apply canon_msixWrite | with_reducible apply canon_hostRefuse |
                 with_reducible apply canon_ite

theorem canon_writeDlcfg (s : State) (v : Word) (hc : Canon s) : Canon (State.writeDlcfg s v) := by
  unfold State.writeDlcfg
  repeat' first | with_reducible assumption | (simp only [canon_mk_iff, wf_mem_iff])

theorem canon_barDebug (s : State) (n : Nat) (c : Nat) (v : Word) (hc : Canon s) : Canon (State.barDebug s n c v) := by
  unfold State.barDebug
  repeat' first | with_reducible assumption | with_reducible apply canon_writeDbgrdat |
                 with_reducible apply canon_debugPut | with_reducible apply canon_ite

theorem canon_windowHubWrite (s : State) (off : Nat) (v : Word) (posted : Bool) (hc : Canon s) : Canon (State.windowHubWrite
    s off v posted) := by
  unfold State.windowHubWrite
  split
  · exact canon_ite (canon_hubWrite _ _ _ hc) (canon_hostRefuse _ _ _ _ hc)
  · exact canon_hostRefuse _ _ _ _ hc

theorem canon_barWrite (s : State) (off : Nat) (v : Word) (posted : Bool) (hc : Canon s) : Canon (State.barWrite s off v
    posted) := by
  unfold State.barWrite
  repeat' first | with_reducible assumption | with_reducible apply canon_writeMboot |
                 with_reducible apply canon_writeDlcfg | with_reducible apply canon_writeNat |
                 with_reducible apply canon_functionWrite | with_reducible apply canon_barDebug |
                 with_reducible apply canon_windowHubWrite | with_reducible apply canon_hostRefuse |
                 with_reducible apply canon_ite | (simp only [canon_mk_iff, wf_mem_iff])

theorem canon_msixHalf (s : State) (fn : Nat) (off : Nat) (v : Word) (hc : Canon s) : Canon (State.msixHalf s fn off v) := by
  unfold State.msixHalf
  repeat' first | with_reducible assumption | with_reducible apply canon_msixWrite | with_reducible apply canon_ite

theorem canon_hostBarWrite (s : State) (fn : Nat) (off : Nat) (n : Nat) (v : Word) (posted : Bool) (hc : Canon s) : Canon
    (State.hostBarWrite s fn off n v posted) := by
  unfold State.hostBarWrite
  repeat' first | with_reducible assumption | with_reducible apply canon_msixHalf |
                 with_reducible apply canon_hostRefuse | with_reducible apply canon_barWrite |
                 with_reducible apply canon_functionWrite | with_reducible apply canon_ite

theorem canon_hostInvalid (s : State) (fn : Nat) (off : Nat) (n : Nat) (posted : Bool) (hc : Canon s) : Canon
    (State.hostInvalid s fn off n posted) := by
  unfold State.hostInvalid
  repeat' first | with_reducible assumption | with_reducible apply canon_hostRefuse | with_reducible apply canon_ite

theorem canon_abortQueued (s : State) (p : Nat) (hc : Canon s) : Canon (State.abortQueued s p) := by
  unfold State.abortQueued
  repeat' first | with_reducible assumption | (with_reducible intro _) | with_reducible apply canon_setPart |
                 with_reducible apply canon_signal | with_reducible apply canon_writeRecord |
                 with_reducible apply canon_foldl

theorem canon_flrEntry (s : State) (L : Nat) (f : Firing) (pc : Word) (hc : Canon s) : Canon (State.flrEntry s L f pc) := by
  unfold State.flrEntry
  repeat' first | with_reducible assumption | with_reducible apply canon_elog

theorem canon_flrEntries (s : State) (k : Nat) (hc : Canon s) : Canon (State.flrEntries s k) := by
  unfold State.flrEntries
  repeat' first | with_reducible assumption | (with_reducible intro _) | with_reducible apply canon_flrEntry |
                 with_reducible apply canon_foldl | with_reducible apply canon_ite | split

theorem canon_abortResident (s : State) (p : Nat) (hc : Canon s) : Canon (State.abortResident s p) := by
  unfold State.abortResident
  repeat' first | with_reducible assumption | (with_reducible intro _) | with_reducible apply canon_poke |
                 with_reducible apply canon_killLaunch | with_reducible apply canon_flrEntries |
                 with_reducible apply canon_setLaunch | with_reducible apply canon_foldl

theorem canon_killSlot (s : State) (t : Nat) (hc : Canon s) : Canon (State.killSlot s t) := by
  unfold State.killSlot
  repeat' first | with_reducible assumption | (with_reducible intro _) | with_reducible apply canon_kill |
                 with_reducible apply canon_flrEntry | with_reducible apply canon_foldl |
                 with_reducible apply canon_ite | split

theorem canon_cancelSlot (s : State) (t : Nat) (hc : Canon s) : Canon (State.cancelSlot s t) := by
  unfold State.cancelSlot
  repeat' first | with_reducible assumption | (with_reducible intro _) | with_reducible apply canon_cancelCopy |
                 with_reducible apply canon_foldl | with_reducible apply canon_ite

theorem canon_revokeSlot (s : State) (t : Nat) (hc : Canon s) : Canon (State.revokeSlot s t) := by
  unfold State.revokeSlot
  repeat' first | with_reducible assumption | (with_reducible intro _) | with_reducible apply canon_revokeWindow |
                 with_reducible apply canon_foldl

theorem canon_flrBegin (s : State) (t : Nat) (hc : Canon s) : Canon (State.flrBegin s t) := by
  unfold State.flrBegin
  repeat' first | with_reducible assumption | (with_reducible intro _) | with_reducible apply canon_setSlot |
                 with_reducible apply canon_cancelSlot | with_reducible apply canon_abortResident |
                 with_reducible apply canon_abortQueued | with_reducible apply canon_after |
                 with_reducible apply canon_revokeSlot | with_reducible apply canon_killSlot |
                 with_reducible apply canon_foldl | with_reducible apply canon_ite

theorem canon_flrEnd (s : State) (t : Nat) (hc : Canon s) : Canon (State.flrEnd s t) := by
  unfold State.flrEnd
  repeat' first | with_reducible assumption | with_reducible apply canon_after | with_reducible apply canon_setSlot |
                 with_reducible apply canon_ite

theorem canon_controllerStep (s : State) (hc : Canon s) : Canon (State.controllerStep s) := by
  unfold State.controllerStep
  repeat' first | with_reducible assumption | (with_reducible intro _) | with_reducible apply canon_setSlot |
                 with_reducible apply canon_writeSpart | with_reducible apply canon_foldl |
                 with_reducible apply canon_ite | split | (simp only [canon_mk_iff, wf_mem_iff])

theorem canon_drainEnd (s : State) (L : Nat) (hc : Canon s) : Canon (State.drainEnd s L) := by
  unfold State.drainEnd
  repeat' first | with_reducible assumption | with_reducible apply canon_after | with_reducible apply canon_setCore |
                 with_reducible apply canon_ite | split | (simp only [canon_mk_iff, wf_mem_iff])

theorem canon_stallFor (s : State) (ids : List Nat) (hc : Canon s) : Canon (State.stallFor s ids) := by
  unfold State.stallFor
  repeat' first | with_reducible assumption | with_reducible apply canon_setAux | with_reducible apply canon_dlStart |
                 with_reducible apply canon_dlReset | with_reducible apply canon_ite | split |
                 (simp only [canon_mk_iff, wf_mem_iff])

theorem canon_fenceEnd (s : State) (h : Nat) (hc : Canon s) : Canon (State.fenceEnd s h) := by
  unfold State.fenceEnd
  repeat' first | with_reducible assumption | (with_reducible intro _) | with_reducible apply canon_setAux |
                 with_reducible apply canon_fetchGo | with_reducible apply canon_setCtx |
                 with_reducible apply canon_foldl | with_reducible apply canon_ite

theorem canon_sendMessage (s : State) (c : Bool) (t : Word) (ch : Nat) (ws : List Word) (hc : Canon s) : Canon
    (State.sendMessage s c t ch ws) := by
  unfold State.sendMessage
  repeat' first | with_reducible assumption | with_reducible apply canon_note | with_reducible apply canon_hold |
                 with_reducible apply canon_step4 | with_reducible apply canon_stepEnd | with_reducible apply canon_ite

theorem canon_haltWith (s : State) (mask : Nat) (actor : Nat) (hc : Canon s) : Canon (State.haltWith s mask actor) := by
  unfold State.haltWith
  repeat' first | with_reducible assumption | with_reducible apply canon_stepSync | with_reducible apply canon_hold

theorem canon_withFetchWord (s : State) (_nbits : Nat) (w : Nat) (hc : Canon s) : Canon (State.withFetchWord s _nbits w) := by
  unfold State.withFetchWord
  repeat' first | with_reducible assumption | with_reducible apply canon_setSorus | with_reducible apply canon_setSx |
                 with_reducible apply canon_setCore | with_reducible apply canon_setPart |
                 with_reducible apply canon_setSlot | with_reducible apply canon_writeNat |
                 with_reducible apply canon_setAux | with_reducible apply canon_setCtx |
                 (simp only [canon_mk_iff, wf_mem_iff])

end Sys2Proof.Machine
end

