-- ==== Sys2Proof/Laws/CanonExec.lean ====
section
/-! SUPPORT. Every meaning keeps the canonical form of memory. -/

namespace Sys2Proof.Machine

open Sys2Proof

set_option Elab.async false
set_option linter.unusedSimpArgs false
set_option linter.unusedVariables false

/-- A computation that may stop: its value meets `P`, and the state it stalls in has its form. -/
def CanonE {α : Type} (P : α → Prop) (x : Except Stop α) : Prop := (∀ a, x = .ok a → P a) ∧ ∀ t, x = .error (.stall t) → Canon t
theorem canonE_ok {α : Type} {P : α → Prop} {a : α} (h : P a) : CanonE P (.ok a) :=
  ⟨(fun b e => by cases e; exact h), (fun t e => nomatch e)⟩
theorem canonE_trap {α : Type} {P : α → Prop} {c : Nat} {v : Word} : CanonE P (.error (.trap c v)) :=
  ⟨(fun b e => nomatch e), (fun t e => nomatch e)⟩
theorem canonE_illegal {α : Type} {P : α → Prop} {r : Nat} {i : Instr} : CanonE P (.error (illegal r i)) :=
  ⟨(fun b e => nomatch e), fun t e => by simp [illegal] at e⟩
theorem canonE_before {α : Type} {P : α → Prop} : CanonE P (.error .before) :=
  ⟨(fun b e => nomatch e), (fun t e => nomatch e)⟩
theorem canonE_stall {α : Type} {P : α → Prop} {s : State} (h : Canon s) : CanonE P (.error (.stall s)) :=
  ⟨(fun b e => nomatch e), (fun t e => by cases e; exact h)⟩
theorem canonE_ite {α : Type} {P : α → Prop} {c : Prop} [Decidable c] {a b : Except Stop α} (ha : CanonE P a) (hb : CanonE P b) :
    CanonE P (if c then a else b) := by split <;> assumption
theorem canonE_bind {α β : Type} {P : α → Prop} {Q : β → Prop} {x : Except Stop α} {f : α → Except Stop β} (hx : CanonE P x)
    (hf : ∀ a, P a → CanonE Q (f a)) : CanonE Q (x >>= f) := by
  cases x with
  | error e => exact ⟨(fun b e2 => nomatch e2), (fun t e2 => hx.2 t (by cases e2; rfl))⟩
  | ok a => exact hf a (hx.1 a rfl)
/-- An outcome keeps the form. -/
def CanonO (o : Out) : Prop := ∀ t, o = .next t → Canon t
theorem canonO_next {t : State} (h : Canon t) : CanonO (.next t) := fun u e => by cases e; exact h
theorem canonO_fault {f : Fault} : CanonO (.fault f) := fun u e => nomatch e
theorem canonO_ite {c : Prop} [Decidable c] {a b : Out} (ha : CanonO a) (hb : CanonO b) : CanonO (if c then a else b) := by split <;> assumption
theorem canonO_finish {s : State} {r : Except Stop State} (hs : Canon s) (h : CanonE Canon r) : CanonO (finish s r) := by
  match r with
  | .ok t => exact canonO_next (h.1 t rfl)
  | .error (.trap c v) => exact canonO_next (canon_raise _ _ _ hs)
  | .error .before => exact canonO_next (canon_boundBefore _ hs)
  | .error (.stall t) => exact canonO_next (canon_spend _ (h.2 t rfl))
/-- The work before an issue keeps the form. -/
def CanonPre (p : Pre) : Prop := ∀ t, p = .done t → Canon t
theorem canonPre_go {i : Instr} : CanonPre (.go i) := fun t e => nomatch e
theorem canonPre_done {t : State} (h : Canon t) : CanonPre (.done t) := fun u e => by cases e; exact h
theorem canonPre_ite {c : Prop} [Decidable c] {a b : Pre} (ha : CanonPre a) (hb : CanonPre b) : CanonPre (if c then a else b) := by split <;> assumption

/-! ### Meanings -/

theorem canonE_check (b : Bool) (c : Nat) (v : Word) : CanonE (fun _ => True) (check b c v) := by
  unfold check
  repeat' first | with_reducible apply canonE_ok | with_reducible apply canonE_trap | with_reducible apply canonE_ite |
                 with_reducible exact True.intro

theorem canonE_places (s : State) (acc : Acc) (w : Nat) (vas : List Word) (hc : Canon s) : CanonE (fun _ => True)
    (State.places s acc w vas) := by
  unfold State.places
  repeat' first | with_reducible apply canonE_ok | with_reducible apply canonE_trap | with_reducible exact True.intro |
                 split | (simp only [canon_mk_iff, wf_mem_iff])

theorem canonE_chargeHost (s : State) (ps : List Place) (w : Nat) (hc : Canon s) : CanonE Canon (State.chargeHost s ps w) := by
  unfold State.chargeHost
  repeat' first | with_reducible assumption | with_reducible apply canon_charge | with_reducible apply canon_waitTurn |
                 with_reducible apply canonE_ok | with_reducible apply canonE_stall | with_reducible apply canonE_ite |
                 split | with_reducible refine canon_opt (by assumption) ?_

theorem canonE_loads (s : State) (w : Nat) (vas : List Word) (hc : Canon s) : CanonE (fun a => Canon a.2) (State.loads s w
    vas) := by
  unfold State.loads
  repeat' first | with_reducible assumption | (with_reducible intro _) | with_reducible apply canonE_places |
                 with_reducible apply canon_wakeBanks | with_reducible apply canonE_chargeHost |
                 with_reducible apply canon_setHart | with_reducible apply canonE_ok |
                 with_reducible apply canonE_before | with_reducible apply canonE_stall |
                 with_reducible apply canonE_ite | with_reducible apply canonE_bind

theorem canonE_load1 (s : State) (w : Nat) (va : Word) (hc : Canon s) : CanonE (fun a => Canon a.2) (State.load1 s w va) := by
  unfold State.load1
  repeat' first | with_reducible assumption | (with_reducible intro _) | with_reducible apply canonE_loads |
                 with_reducible apply canonE_ok | with_reducible apply canonE_bind

theorem canonE_stores (s : State) (w : Nat) (vas : List Word) (vs : List Nat) (hc : Canon s) : CanonE Canon (State.stores s w
    vas vs) := by
  unfold State.stores
  repeat' first | with_reducible assumption | (with_reducible intro _) | with_reducible apply canonE_places |
                 with_reducible apply canon_wakeBanks | with_reducible apply canon_setHart |
                 with_reducible apply canonE_ok | with_reducible apply canonE_before |
                 with_reducible apply canonE_stall | with_reducible apply canonE_ite | with_reducible apply canonE_bind

theorem canonE_descriptor (s : State) (al : Nat) (n : Nat) (va : Word) (hc : Canon s) : CanonE (fun a => Canon a.2)
    (State.descriptor s al n va) := by
  unfold State.descriptor
  repeat' first | with_reducible assumption | (with_reducible intro _) | with_reducible apply canonE_check |
                 with_reducible apply canonE_loads | with_reducible apply canonE_ok | with_reducible apply canonE_bind

theorem canonO_putX (s : State) (d : Reg) (v : Word) (hc : Canon s) : CanonO (State.putX s d v) := by
  unfold State.putX
  repeat' first | with_reducible assumption | with_reducible apply canon_step4 | with_reducible apply canon_setX |
                 with_reducible apply canonO_next

theorem canonO_putV (s : State) (d : Reg) (v : VReg) (hc : Canon s) : CanonO (State.putV s d v) := by
  unfold State.putV
  repeat' first | with_reducible assumption | with_reducible apply canon_step4 | with_reducible apply canon_setV |
                 with_reducible apply canonO_next

theorem canonO_putP (s : State) (d : Reg3) (v : PReg) (hc : Canon s) : CanonO (State.putP s d v) := by
  unfold State.putP
  repeat' first | with_reducible assumption | with_reducible apply canon_step4 | with_reducible apply canon_setP |
                 with_reducible apply canonO_next

theorem canonO_putA (s : State) (d : Reg3) (v : AReg) (hc : Canon s) : CanonO (State.putA s d v) := by
  unfold State.putA
  repeat' first | with_reducible assumption | with_reducible apply canon_step4 | with_reducible apply canon_setAcc |
                 with_reducible apply canonO_next

theorem canonE_require (b : Bool) (reason : Nat) (i : Instr) : CanonE (fun _ => True) (require b reason i) := by
  unfold require
  repeat' first | with_reducible apply canonE_ok | with_reducible apply canonE_illegal |
                 with_reducible apply canonE_ite | with_reducible exact True.intro

theorem canonO_vmap (s : State) (g : Reg3) (w : Nat) (d : Reg) (f : Nat → Nat) (hc : Canon s) : CanonO (State.vmap s g w d f) := by
  unfold State.vmap
  repeat' first | with_reducible assumption | with_reducible apply canonO_putV

theorem canonO_vint (s : State) (g : Reg3) (ty : ITy) (d : Reg) (a : Reg) (b : Reg) (op : Nat → Nat → Nat → Nat) (hc : Canon
    s) : CanonO (State.vint s g ty d a b op) := by
  unfold State.vint
  repeat' first | with_reducible assumption | with_reducible apply canonO_vmap

theorem canonO_vflt (s : State) (g : Reg3) (ty : FTy) (d : Reg) (a : Reg) (b : Reg) (op : Fmt → Nat → Nat → Nat → Nat) (hc :
    Canon s) : CanonO (State.vflt s g ty d a b op) := by
  unfold State.vflt
  repeat' first | with_reducible assumption | with_reducible apply canonO_vmap

theorem canonO_vspec (s : State) (g : Reg3) (ty : FTy) (d : Reg) (a : Reg) (fn : Nat) (hc : Canon s) : CanonO (State.vspec s
    g ty d a fn) := by
  unfold State.vspec
  repeat' first | with_reducible assumption | with_reducible apply canonO_vmap

theorem canonO_vcmp (s : State) (g : Reg3) (w : Nat) (d : Reg3) (f : Nat → Bool) (hc : Canon s) : CanonO (State.vcmp s g w d
    f) := by
  unfold State.vcmp
  repeat' first | with_reducible assumption | with_reducible apply canonO_putP

theorem canonO_vcmpI (s : State) (g : Reg3) (ty : ITy) (d : Reg3) (a : Reg) (b : Reg) (op : Nat → Nat → Nat → Bool) (hc :
    Canon s) : CanonO (State.vcmpI s g ty d a b op) := by
  unfold State.vcmpI
  repeat' first | with_reducible assumption | with_reducible apply canonO_vcmp

theorem canonO_vcmpF (s : State) (g : Reg3) (ty : FTy) (d : Reg3) (a : Reg) (b : Reg) (op : Fmt → Nat → Nat → Bool) (hc :
    Canon s) : CanonO (State.vcmpF s g ty d a b op) := by
  unfold State.vcmpF
  repeat' first | with_reducible assumption | with_reducible apply canonO_vcmp

theorem canonO_execVadd (g : Reg3) (ty : ITy) (vd : Reg) (va : Reg) (vb : Reg) (s : State) (hc : Canon s) : CanonO (execVadd
    g ty vd va vb s) := by
  unfold execVadd
  repeat' first | with_reducible assumption | with_reducible apply canonO_vint

theorem canonO_execVsub (g : Reg3) (ty : ITy) (vd : Reg) (va : Reg) (vb : Reg) (s : State) (hc : Canon s) : CanonO (execVsub
    g ty vd va vb s) := by
  unfold execVsub
  repeat' first | with_reducible assumption | with_reducible apply canonO_vint

theorem canonO_execVmul (g : Reg3) (ty : ITy) (vd : Reg) (va : Reg) (vb : Reg) (s : State) (hc : Canon s) : CanonO (execVmul
    g ty vd va vb s) := by
  unfold execVmul
  repeat' first | with_reducible assumption | with_reducible apply canonO_vint

theorem canonO_execVsadd (g : Reg3) (ty : ITy) (vd : Reg) (va : Reg) (vb : Reg) (s : State) (hc : Canon s) : CanonO
    (execVsadd g ty vd va vb s) := by
  unfold execVsadd
  repeat' first | with_reducible assumption | with_reducible apply canonO_vint

theorem canonO_execVssub (g : Reg3) (ty : ITy) (vd : Reg) (va : Reg) (vb : Reg) (s : State) (hc : Canon s) : CanonO
    (execVssub g ty vd va vb s) := by
  unfold execVssub
  repeat' first | with_reducible assumption | with_reducible apply canonO_vint

theorem canonO_execVmin (g : Reg3) (ty : ITy) (vd : Reg) (va : Reg) (vb : Reg) (s : State) (hc : Canon s) : CanonO (execVmin
    g ty vd va vb s) := by
  unfold execVmin
  repeat' first | with_reducible assumption | with_reducible apply canonO_vint

theorem canonO_execVmax (g : Reg3) (ty : ITy) (vd : Reg) (va : Reg) (vb : Reg) (s : State) (hc : Canon s) : CanonO (execVmax
    g ty vd va vb s) := by
  unfold execVmax
  repeat' first | with_reducible assumption | with_reducible apply canonO_vint

theorem canonO_execVminu (g : Reg3) (ty : ITy) (vd : Reg) (va : Reg) (vb : Reg) (s : State) (hc : Canon s) : CanonO
    (execVminu g ty vd va vb s) := by
  unfold execVminu
  repeat' first | with_reducible assumption | with_reducible apply canonO_vint

theorem canonO_execVmaxu (g : Reg3) (ty : ITy) (vd : Reg) (va : Reg) (vb : Reg) (s : State) (hc : Canon s) : CanonO
    (execVmaxu g ty vd va vb s) := by
  unfold execVmaxu
  repeat' first | with_reducible assumption | with_reducible apply canonO_vint

theorem canonO_execVand (g : Reg3) (ty : ITy) (vd : Reg) (va : Reg) (vb : Reg) (s : State) (hc : Canon s) : CanonO (execVand
    g ty vd va vb s) := by
  unfold execVand
  repeat' first | with_reducible assumption | with_reducible apply canonO_vint

theorem canonO_execVor (g : Reg3) (ty : ITy) (vd : Reg) (va : Reg) (vb : Reg) (s : State) (hc : Canon s) : CanonO (execVor g
    ty vd va vb s) := by
  unfold execVor
  repeat' first | with_reducible assumption | with_reducible apply canonO_vint

theorem canonO_execVxor (g : Reg3) (ty : ITy) (vd : Reg) (va : Reg) (vb : Reg) (s : State) (hc : Canon s) : CanonO (execVxor
    g ty vd va vb s) := by
  unfold execVxor
  repeat' first | with_reducible assumption | with_reducible apply canonO_vint

theorem canonO_execVsll (g : Reg3) (ty : ITy) (vd : Reg) (va : Reg) (vb : Reg) (s : State) (hc : Canon s) : CanonO (execVsll
    g ty vd va vb s) := by
  unfold execVsll
  repeat' first | with_reducible assumption | with_reducible apply canonO_vint

theorem canonO_execVsrl (g : Reg3) (ty : ITy) (vd : Reg) (va : Reg) (vb : Reg) (s : State) (hc : Canon s) : CanonO (execVsrl
    g ty vd va vb s) := by
  unfold execVsrl
  repeat' first | with_reducible assumption | with_reducible apply canonO_vint

theorem canonO_execVsra (g : Reg3) (ty : ITy) (vd : Reg) (va : Reg) (vb : Reg) (s : State) (hc : Canon s) : CanonO (execVsra
    g ty vd va vb s) := by
  unfold execVsra
  repeat' first | with_reducible assumption | with_reducible apply canonO_vint

theorem canonO_execVsel (g : Reg3) (ty : ITy) (vd : Reg) (va : Reg) (vb : Reg) (s : State) (hc : Canon s) : CanonO (execVsel
    g ty vd va vb s) := by
  unfold execVsel
  repeat' first | with_reducible assumption | with_reducible apply canonO_putV

theorem canonO_execVfadd (g : Reg3) (ty : FTy) (vd : Reg) (va : Reg) (vb : Reg) (s : State) (hc : Canon s) : CanonO
    (execVfadd g ty vd va vb s) := by
  unfold execVfadd
  repeat' first | with_reducible assumption | with_reducible apply canonO_vflt

theorem canonO_execVfsub (g : Reg3) (ty : FTy) (vd : Reg) (va : Reg) (vb : Reg) (s : State) (hc : Canon s) : CanonO
    (execVfsub g ty vd va vb s) := by
  unfold execVfsub
  repeat' first | with_reducible assumption | with_reducible apply canonO_vflt

theorem canonO_execVfmul (g : Reg3) (ty : FTy) (vd : Reg) (va : Reg) (vb : Reg) (s : State) (hc : Canon s) : CanonO
    (execVfmul g ty vd va vb s) := by
  unfold execVfmul
  repeat' first | with_reducible assumption | with_reducible apply canonO_vflt

theorem canonO_execVfma (g : Reg3) (ty : FTy) (vd : Reg) (va : Reg) (vb : Reg) (s : State) (hc : Canon s) : CanonO (execVfma
    g ty vd va vb s) := by
  unfold execVfma
  repeat' first | with_reducible assumption | with_reducible apply canonO_vflt

theorem canonO_execVfmin (g : Reg3) (ty : FTy) (vd : Reg) (va : Reg) (vb : Reg) (s : State) (hc : Canon s) : CanonO
    (execVfmin g ty vd va vb s) := by
  unfold execVfmin
  repeat' first | with_reducible assumption | with_reducible apply canonO_vflt

theorem canonO_execVfmax (g : Reg3) (ty : FTy) (vd : Reg) (va : Reg) (vb : Reg) (s : State) (hc : Canon s) : CanonO
    (execVfmax g ty vd va vb s) := by
  unfold execVfmax
  repeat' first | with_reducible assumption | with_reducible apply canonO_vflt

theorem canonO_execVfdiv (g : Reg3) (ty : FTy) (vd : Reg) (va : Reg) (vb : Reg) (s : State) (hc : Canon s) : CanonO
    (execVfdiv g ty vd va vb s) := by
  unfold execVfdiv
  repeat' first | with_reducible assumption | with_reducible apply canonO_vflt

theorem canonO_execVfexp2 (g : Reg3) (ty : FTy) (vd : Reg) (va : Reg) (s : State) (hc : Canon s) : CanonO (execVfexp2 g ty vd
    va s) := by
  unfold execVfexp2
  repeat' first | with_reducible assumption | with_reducible apply canonO_vspec

theorem canonO_execVflog2 (g : Reg3) (ty : FTy) (vd : Reg) (va : Reg) (s : State) (hc : Canon s) : CanonO (execVflog2 g ty vd
    va s) := by
  unfold execVflog2
  repeat' first | with_reducible assumption | with_reducible apply canonO_vspec

theorem canonO_execVfrcp (g : Reg3) (ty : FTy) (vd : Reg) (va : Reg) (s : State) (hc : Canon s) : CanonO (execVfrcp g ty vd
    va s) := by
  unfold execVfrcp
  repeat' first | with_reducible assumption | with_reducible apply canonO_vspec

theorem canonO_execVfrsqrt (g : Reg3) (ty : FTy) (vd : Reg) (va : Reg) (s : State) (hc : Canon s) : CanonO (execVfrsqrt g ty
    vd va s) := by
  unfold execVfrsqrt
  repeat' first | with_reducible assumption | with_reducible apply canonO_vspec

theorem canonO_execVfsqrt (g : Reg3) (ty : FTy) (vd : Reg) (va : Reg) (s : State) (hc : Canon s) : CanonO (execVfsqrt g ty vd
    va s) := by
  unfold execVfsqrt
  repeat' first | with_reducible assumption | with_reducible apply canonO_vspec

theorem canonO_execVftanh (g : Reg3) (ty : FTy) (vd : Reg) (va : Reg) (s : State) (hc : Canon s) : CanonO (execVftanh g ty vd
    va s) := by
  unfold execVftanh
  repeat' first | with_reducible assumption | with_reducible apply canonO_vspec

theorem canonO_execVfsig (g : Reg3) (ty : FTy) (vd : Reg) (va : Reg) (s : State) (hc : Canon s) : CanonO (execVfsig g ty vd
    va s) := by
  unfold execVfsig
  repeat' first | with_reducible assumption | with_reducible apply canonO_vspec

theorem canonO_execVferf (g : Reg3) (ty : FTy) (vd : Reg) (va : Reg) (s : State) (hc : Canon s) : CanonO (execVferf g ty vd
    va s) := by
  unfold execVferf
  repeat' first | with_reducible assumption | with_reducible apply canonO_vspec

theorem canonO_execVcmpeq (g : Reg3) (ty : ITy) (pd : Reg3) (va : Reg) (vb : Reg) (s : State) (hc : Canon s) : CanonO
    (execVcmpeq g ty pd va vb s) := by
  unfold execVcmpeq
  repeat' first | with_reducible assumption | with_reducible apply canonO_vcmpI

theorem canonO_execVcmplt (g : Reg3) (ty : ITy) (pd : Reg3) (va : Reg) (vb : Reg) (s : State) (hc : Canon s) : CanonO
    (execVcmplt g ty pd va vb s) := by
  unfold execVcmplt
  repeat' first | with_reducible assumption | with_reducible apply canonO_vcmpI

theorem canonO_execVcmple (g : Reg3) (ty : ITy) (pd : Reg3) (va : Reg) (vb : Reg) (s : State) (hc : Canon s) : CanonO
    (execVcmple g ty pd va vb s) := by
  unfold execVcmple
  repeat' first | with_reducible assumption | with_reducible apply canonO_vcmpI

theorem canonO_execVcmpltu (g : Reg3) (ty : ITy) (pd : Reg3) (va : Reg) (vb : Reg) (s : State) (hc : Canon s) : CanonO
    (execVcmpltu g ty pd va vb s) := by
  unfold execVcmpltu
  repeat' first | with_reducible assumption | with_reducible apply canonO_vcmpI

theorem canonO_execVfcmpeq (g : Reg3) (ty : FTy) (pd : Reg3) (va : Reg) (vb : Reg) (s : State) (hc : Canon s) : CanonO
    (execVfcmpeq g ty pd va vb s) := by
  unfold execVfcmpeq
  repeat' first | with_reducible assumption | with_reducible apply canonO_vcmpF

theorem canonO_execVfcmplt (g : Reg3) (ty : FTy) (pd : Reg3) (va : Reg) (vb : Reg) (s : State) (hc : Canon s) : CanonO
    (execVfcmplt g ty pd va vb s) := by
  unfold execVfcmplt
  repeat' first | with_reducible assumption | with_reducible apply canonO_vcmpF

theorem canonO_execVfcmple (g : Reg3) (ty : FTy) (pd : Reg3) (va : Reg) (vb : Reg) (s : State) (hc : Canon s) : CanonO
    (execVfcmple g ty pd va vb s) := by
  unfold execVfcmple
  repeat' first | with_reducible assumption | with_reducible apply canonO_vcmpF

theorem canonO_execVfcmpun (g : Reg3) (ty : FTy) (pd : Reg3) (va : Reg) (vb : Reg) (s : State) (hc : Canon s) : CanonO
    (execVfcmpun g ty pd va vb s) := by
  unfold execVfcmpun
  repeat' first | with_reducible assumption | with_reducible apply canonO_vcmpF

theorem canonE_overlap (b : Bool) (i : Instr) : CanonE (fun _ => True) (overlap b i) := by
  unfold overlap
  repeat' first | with_reducible apply canonE_check

theorem canonO_execVcvt (tyd : Ty3) (mode : RMode) (tys : Ty3) (sat : Bool) (vd : Reg) (vs : Reg) (s : State) (hc : Canon s)
    : CanonO (execVcvt tyd mode tys sat vd vs s) := by
  unfold execVcvt
  repeat' first | with_reducible assumption | (with_reducible intro _) | with_reducible apply canonE_overlap |
                 with_reducible apply canon_step4 | with_reducible apply canon_setRegs |
                 with_reducible apply canonO_finish | with_reducible apply canonE_ok | with_reducible apply canonE_bind

theorem canonO_execPand (pd : Reg3) (pa : Reg3) (pb : Reg3) (s : State) (hc : Canon s) : CanonO (execPand pd pa pb s) := by
  unfold execPand
  repeat' first | with_reducible assumption | with_reducible apply canonO_putP

theorem canonO_execPor (pd : Reg3) (pa : Reg3) (pb : Reg3) (s : State) (hc : Canon s) : CanonO (execPor pd pa pb s) := by
  unfold execPor
  repeat' first | with_reducible assumption | with_reducible apply canonO_putP

theorem canonO_execPxor (pd : Reg3) (pa : Reg3) (pb : Reg3) (s : State) (hc : Canon s) : CanonO (execPxor pd pa pb s) := by
  unfold execPxor
  repeat' first | with_reducible assumption | with_reducible apply canonO_putP

theorem canonO_execPandn (pd : Reg3) (pa : Reg3) (pb : Reg3) (s : State) (hc : Canon s) : CanonO (execPandn pd pa pb s) := by
  unfold execPandn
  repeat' first | with_reducible assumption | with_reducible apply canonO_putP

theorem canonO_execPnot (pd : Reg3) (pa : Reg3) (s : State) (hc : Canon s) : CanonO (execPnot pd pa s) := by
  unfold execPnot
  repeat' first | with_reducible assumption | with_reducible apply canonO_putP

theorem canonO_execPcnt (xd : Reg) (pa : Reg3) (s : State) (hc : Canon s) : CanonO (execPcnt xd pa s) := by
  unfold execPcnt
  repeat' first | with_reducible assumption | with_reducible apply canonO_putX

theorem canonO_execPfirst (xd : Reg) (pa : Reg3) (s : State) (hc : Canon s) : CanonO (execPfirst xd pa s) := by
  unfold execPfirst
  repeat' first | with_reducible assumption | with_reducible apply canonO_putX

theorem canonO_execPlt (pd : Reg3) (xs : Reg) (s : State) (hc : Canon s) : CanonO (execPlt pd xs s) := by
  unfold execPlt
  repeat' first | with_reducible assumption | with_reducible apply canonO_putP

theorem canonO_execVredsum (ty : ITy) (xd : Reg) (va : Reg) (s : State) (hc : Canon s) : CanonO (execVredsum ty xd va s) := by
  unfold execVredsum
  repeat' first | with_reducible assumption | with_reducible apply canonO_putX

theorem canonO_execVredmax (ty : ITy) (xd : Reg) (va : Reg) (s : State) (hc : Canon s) : CanonO (execVredmax ty xd va s) := by
  unfold execVredmax
  repeat' first | with_reducible assumption | with_reducible apply canonO_putX

theorem canonO_execVredmin (ty : ITy) (xd : Reg) (va : Reg) (s : State) (hc : Canon s) : CanonO (execVredmin ty xd va s) := by
  unfold execVredmin
  repeat' first | with_reducible assumption | with_reducible apply canonO_putX

theorem canonO_vfred (s : State) (ty : FTy) (xd : Reg) (va : Reg) (op : Nat → Nat → Nat) (hc : Canon s) : CanonO (State.vfred
    s ty xd va op) := by
  unfold State.vfred
  repeat' first | with_reducible assumption | with_reducible apply canonO_putX

theorem canonO_execVfredsum (ty : FTy) (xd : Reg) (va : Reg) (s : State) (hc : Canon s) : CanonO (execVfredsum ty xd va s) := by
  unfold execVfredsum
  repeat' first | with_reducible assumption | with_reducible apply canonO_vfred

theorem canonO_execVfredmax (ty : FTy) (xd : Reg) (va : Reg) (s : State) (hc : Canon s) : CanonO (execVfredmax ty xd va s) := by
  unfold execVfredmax
  repeat' first | with_reducible assumption | with_reducible apply canonO_vfred

theorem canonO_execVfredmin (ty : FTy) (xd : Reg) (va : Reg) (s : State) (hc : Canon s) : CanonO (execVfredmin ty xd va s) := by
  unfold execVfredmin
  repeat' first | with_reducible assumption | with_reducible apply canonO_vfred

theorem canonO_execVslideup (vd : Reg) (va : Reg) (xn : Reg) (s : State) (hc : Canon s) : CanonO (execVslideup vd va xn s) := by
  unfold execVslideup
  repeat' first | with_reducible assumption | with_reducible apply canonO_putV

theorem canonO_execVslidedn (vd : Reg) (va : Reg) (xn : Reg) (s : State) (hc : Canon s) : CanonO (execVslidedn vd va xn s) := by
  unfold execVslidedn
  repeat' first | with_reducible assumption | with_reducible apply canonO_putV

theorem canonO_execVperm (vd : Reg) (va : Reg) (vi : Reg) (s : State) (hc : Canon s) : CanonO (execVperm vd va vi s) := by
  unfold execVperm
  repeat' first | with_reducible assumption | with_reducible apply canonO_putV

theorem canonO_execVbcast (k : BcastW) (vd : Reg) (xs : Reg) (s : State) (hc : Canon s) : CanonO (execVbcast k vd xs s) := by
  unfold execVbcast
  repeat' first | with_reducible assumption | with_reducible apply canonO_putV

theorem canonO_execVget (xd : Reg) (va : Reg) (xi : Reg) (s : State) (hc : Canon s) : CanonO (execVget xd va xi s) := by
  unfold execVget
  repeat' first | with_reducible assumption | with_reducible apply canonO_putX

theorem canonO_execVset (vd : Reg) (xv : Reg) (xi : Reg) (s : State) (hc : Canon s) : CanonO (execVset vd xv xi s) := by
  unfold execVset
  repeat' first | with_reducible assumption | with_reducible apply canonO_putV

theorem canonO_vload (s : State) (g : Reg3) (vd : Reg) (addr : Nat → Word) (hc : Canon s) : CanonO (State.vload s g vd addr) := by
  unfold State.vload
  repeat' first | with_reducible assumption | (with_reducible intro _) | with_reducible apply canonE_loads |
                 with_reducible apply canon_step4 | with_reducible apply canon_setV |
                 with_reducible apply canonO_finish | with_reducible apply canonE_ok | with_reducible apply canonE_bind

theorem canonO_vstore (s : State) (g : Reg3) (vd : Reg) (addr : Nat → Word) (hc : Canon s) : CanonO (State.vstore s g vd
    addr) := by
  unfold State.vstore
  repeat' first | with_reducible assumption | (with_reducible intro _) | with_reducible apply canonE_stores |
                 with_reducible apply canon_step4 | with_reducible apply canonO_finish |
                 with_reducible apply canonE_ok | with_reducible apply canonE_bind

theorem canonO_execVld (g : Reg3) (vd : Reg) (xb : Reg) (s : State) (hc : Canon s) : CanonO (execVld g vd xb s) := by
  unfold execVld
  repeat' first | with_reducible assumption | with_reducible apply canonO_vload

theorem canonO_execVst (g : Reg3) (vd : Reg) (xb : Reg) (s : State) (hc : Canon s) : CanonO (execVst g vd xb s) := by
  unfold execVst
  repeat' first | with_reducible assumption | with_reducible apply canonO_vstore

theorem canonO_execVlds (g : Reg3) (vd : Reg) (xb : Reg) (xs : Reg) (s : State) (hc : Canon s) : CanonO (execVlds g vd xb xs
    s) := by
  unfold execVlds
  repeat' first | with_reducible assumption | with_reducible apply canonO_vload

theorem canonO_execVsts (g : Reg3) (vd : Reg) (xb : Reg) (xs : Reg) (s : State) (hc : Canon s) : CanonO (execVsts g vd xb xs
    s) := by
  unfold execVsts
  repeat' first | with_reducible assumption | with_reducible apply canonO_vstore

theorem canonO_execVldx (g : Reg3) (vd : Reg) (xb : Reg) (vi : Reg) (s : State) (hc : Canon s) : CanonO (execVldx g vd xb vi
    s) := by
  unfold execVldx
  repeat' first | with_reducible assumption | with_reducible apply canonO_vload

theorem canonO_execVstx (g : Reg3) (vd : Reg) (xb : Reg) (vi : Reg) (s : State) (hc : Canon s) : CanonO (execVstx g vd xb vi
    s) := by
  unfold execVstx
  repeat' first | with_reducible assumption | with_reducible apply canonO_vstore

theorem canonO_execVldf (g : Reg3) (ty : FTy) (vd : Reg) (xb : Reg) (s : State) (hc : Canon s) : CanonO (execVldf g ty vd xb
    s) := by
  unfold execVldf
  repeat' first | with_reducible assumption | (with_reducible intro _) | with_reducible apply canonE_check |
                 with_reducible apply canonE_loads | with_reducible apply canon_step4 |
                 with_reducible apply canon_setV | with_reducible apply canonO_finish | with_reducible apply canonE_ok |
                 with_reducible apply canonE_trap | with_reducible apply canonE_bind | split |
                 (simp only [canon_mk_iff, wf_mem_iff])

theorem canonE_needs (s : State) (p : Priv) (i : Instr) (hc : Canon s) : CanonE (fun _ => True) (State.needs s p i) := by
  unfold State.needs
  repeat' first | with_reducible apply canonE_check

theorem canonE_notRtc (s : State) (i : Instr) (hc : Canon s) : CanonE (fun _ => True) (State.notRtc s i) := by
  unfold State.notRtc
  repeat' first | with_reducible apply canonE_require

theorem canonO_execVmacc (ty : MacTy) (ad : Reg3) (va : Reg) (vb : Reg) (s : State) (hc : Canon s) : CanonO (execVmacc ty ad
    va vb s) := by
  unfold execVmacc
  repeat' first | with_reducible assumption | with_reducible apply canon_mac | with_reducible apply canonO_next

theorem canonO_execVdot2 (ty : Dot2Ty) (ad : Reg3) (va : Reg) (vb : Reg) (s : State) (hc : Canon s) : CanonO (execVdot2 ty ad
    va vb s) := by
  unfold execVdot2
  repeat' first | with_reducible assumption | (with_reducible intro _) | with_reducible apply canonE_overlap |
                 with_reducible apply canon_mac | with_reducible apply canonO_finish | with_reducible apply canonE_ok |
                 with_reducible apply canonE_bind

theorem canonO_execVdot4 (ty : Dot4Ty) (ad : Reg3) (va : Reg) (vb : Reg) (s : State) (hc : Canon s) : CanonO (execVdot4 ty ad
    va vb s) := by
  unfold execVdot4
  repeat' first | with_reducible assumption | (with_reducible intro _) | with_reducible apply canonE_overlap |
                 with_reducible apply canon_mac | with_reducible apply canonO_finish | with_reducible apply canonE_ok |
                 with_reducible apply canonE_bind

theorem canonO_execVnarrow (ty : Ty3) (sat : Bool) (vd : Reg) (aa : Reg3) (s : State) (hc : Canon s) : CanonO (execVnarrow ty
    sat vd aa s) := by
  unfold execVnarrow
  repeat' first | with_reducible assumption | (with_reducible intro _) | with_reducible apply canonE_overlap |
                 with_reducible apply canon_step4 | with_reducible apply canon_setRegs |
                 with_reducible apply canonO_finish | with_reducible apply canonE_ok | with_reducible apply canonE_bind

theorem canonO_execAccz (ad : Reg3) (s : State) (hc : Canon s) : CanonO (execAccz ad s) := by
  unfold execAccz
  repeat' first | with_reducible assumption | with_reducible apply canonO_putA

theorem canonO_execAccst (sa : Reg3) (xb : Reg) (s : State) (hc : Canon s) : CanonO (execAccst sa xb s) := by
  unfold execAccst
  repeat' first | with_reducible assumption | (with_reducible intro _) | with_reducible apply canonE_check |
                 with_reducible apply canonE_stores | with_reducible apply canon_step4 |
                 with_reducible apply canonO_finish | with_reducible apply canonE_ok | with_reducible apply canonE_bind

theorem canonO_execAccld (ad : Reg3) (xb : Reg) (s : State) (hc : Canon s) : CanonO (execAccld ad xb s) := by
  unfold execAccld
  repeat' first | with_reducible assumption | (with_reducible intro _) | with_reducible apply canonE_check |
                 with_reducible apply canonE_loads | with_reducible apply canon_step4 |
                 with_reducible apply canon_setAcc | with_reducible apply canonO_finish |
                 with_reducible apply canonE_ok | with_reducible apply canonE_bind

theorem canonO_execVxchg (vd : Reg) (va : Reg) (s : State) (hc : Canon s) : CanonO (execVxchg vd va s) := by
  unfold execVxchg
  repeat' first | with_reducible assumption | (with_reducible intro _) | with_reducible apply canonE_notRtc |
                 with_reducible apply canon_newId | with_reducible apply canon_hold | with_reducible apply canon_await |
                 with_reducible apply canon_beginWait | with_reducible apply canon_note |
                 with_reducible apply canonO_finish | with_reducible apply canonE_ok | with_reducible apply canonE_bind

theorem canonE_mayRequest (s : State) (hc : Canon s) : CanonE (fun _ => True) (State.mayRequest s) := by
  unfold State.mayRequest
  repeat' first | with_reducible assumption | with_reducible apply canonE_ok | with_reducible apply canonE_stall |
                 with_reducible apply canonE_ite | with_reducible exact True.intro

theorem canonO_remote (s : State) (i : Instr) (narrow : Bool) (op : Nat) (nr : Bool) (xd : Reg) (xv : Reg) (xa : Reg) (hc :
    Canon s) : CanonO (State.remote s i narrow op nr xd xv xa) := by
  have hmay := canonE_mayRequest s hc
  unfold State.remote
  refine canonO_finish hc ?_
  refine canonE_bind (canonE_require _ _ _) fun _ _ => canonE_bind (canonE_require _ _ _) fun _ _ => canonE_bind (canonE_check _ _ _) fun _ _ => ?_
  split
  · exact canonE_trap
  · generalize idempotent op nr = b
    have h1 := canon_newId s hc
    have h2 := canon_ask s xd hc
    cases b <;> cases nr <;>
      simp only [Bool.not_true, Bool.not_false, if_true, if_false, Bool.false_eq_true] <;>
      repeat' first
        | with_reducible assumption
        | (with_reducible intro _)
        | with_reducible apply canonE_ok
        | with_reducible apply canonE_bind hmay
        | with_reducible apply canon_step4
        | with_reducible apply canon_setHart
        | with_reducible apply canon_note
        | with_reducible apply canon_hold
        | refine canonE_ok ?_

theorem canonO_execRmadd (nr : Bool) (xd : Reg) (xv : Reg) (xa : Reg) (s : State) (hc : Canon s) : CanonO (execRmadd nr xd xv
    xa s) := by
  unfold execRmadd
  repeat' first | with_reducible assumption | with_reducible apply canonO_remote

theorem canonO_execRmand (nr : Bool) (xd : Reg) (xv : Reg) (xa : Reg) (s : State) (hc : Canon s) : CanonO (execRmand nr xd xv
    xa s) := by
  unfold execRmand
  repeat' first | with_reducible assumption | with_reducible apply canonO_remote

theorem canonO_execRmor (nr : Bool) (xd : Reg) (xv : Reg) (xa : Reg) (s : State) (hc : Canon s) : CanonO (execRmor nr xd xv
    xa s) := by
  unfold execRmor
  repeat' first | with_reducible assumption | with_reducible apply canonO_remote

theorem canonO_execRmxor (nr : Bool) (xd : Reg) (xv : Reg) (xa : Reg) (s : State) (hc : Canon s) : CanonO (execRmxor nr xd xv
    xa s) := by
  unfold execRmxor
  repeat' first | with_reducible assumption | with_reducible apply canonO_remote

theorem canonO_execRmmin (nr : Bool) (xd : Reg) (xv : Reg) (xa : Reg) (s : State) (hc : Canon s) : CanonO (execRmmin nr xd xv
    xa s) := by
  unfold execRmmin
  repeat' first | with_reducible assumption | with_reducible apply canonO_remote

theorem canonO_execRmmax (nr : Bool) (xd : Reg) (xv : Reg) (xa : Reg) (s : State) (hc : Canon s) : CanonO (execRmmax nr xd xv
    xa s) := by
  unfold execRmmax
  repeat' first | with_reducible assumption | with_reducible apply canonO_remote

theorem canonO_execRmminu (nr : Bool) (xd : Reg) (xv : Reg) (xa : Reg) (s : State) (hc : Canon s) : CanonO (execRmminu nr xd
    xv xa s) := by
  unfold execRmminu
  repeat' first | with_reducible assumption | with_reducible apply canonO_remote

theorem canonO_execRmmaxu (nr : Bool) (xd : Reg) (xv : Reg) (xa : Reg) (s : State) (hc : Canon s) : CanonO (execRmmaxu nr xd
    xv xa s) := by
  unfold execRmmaxu
  repeat' first | with_reducible assumption | with_reducible apply canonO_remote

theorem canonO_execRmswap (nr : Bool) (xd : Reg) (xv : Reg) (xa : Reg) (s : State) (hc : Canon s) : CanonO (execRmswap nr xd
    xv xa s) := by
  unfold execRmswap
  repeat' first | with_reducible assumption | with_reducible apply canonO_remote

theorem canonO_execRmcas (nr : Bool) (xd : Reg) (xv : Reg) (xa : Reg) (s : State) (hc : Canon s) : CanonO (execRmcas nr xd xv
    xa s) := by
  unfold execRmcas
  repeat' first | with_reducible assumption | with_reducible apply canonO_remote

theorem canonO_execRmaddI32 (nr : Bool) (xd : Reg) (xv : Reg) (xa : Reg) (s : State) (hc : Canon s) : CanonO (execRmaddI32 nr
    xd xv xa s) := by
  unfold execRmaddI32
  repeat' first | with_reducible assumption | with_reducible apply canonO_remote

theorem canonO_execRmandI32 (nr : Bool) (xd : Reg) (xv : Reg) (xa : Reg) (s : State) (hc : Canon s) : CanonO (execRmandI32 nr
    xd xv xa s) := by
  unfold execRmandI32
  repeat' first | with_reducible assumption | with_reducible apply canonO_remote

theorem canonO_execRmorI32 (nr : Bool) (xd : Reg) (xv : Reg) (xa : Reg) (s : State) (hc : Canon s) : CanonO (execRmorI32 nr
    xd xv xa s) := by
  unfold execRmorI32
  repeat' first | with_reducible assumption | with_reducible apply canonO_remote

theorem canonO_execRmxorI32 (nr : Bool) (xd : Reg) (xv : Reg) (xa : Reg) (s : State) (hc : Canon s) : CanonO (execRmxorI32 nr
    xd xv xa s) := by
  unfold execRmxorI32
  repeat' first | with_reducible assumption | with_reducible apply canonO_remote

theorem canonO_execRmminI32 (nr : Bool) (xd : Reg) (xv : Reg) (xa : Reg) (s : State) (hc : Canon s) : CanonO (execRmminI32 nr
    xd xv xa s) := by
  unfold execRmminI32
  repeat' first | with_reducible assumption | with_reducible apply canonO_remote

theorem canonO_execRmmaxI32 (nr : Bool) (xd : Reg) (xv : Reg) (xa : Reg) (s : State) (hc : Canon s) : CanonO (execRmmaxI32 nr
    xd xv xa s) := by
  unfold execRmmaxI32
  repeat' first | with_reducible assumption | with_reducible apply canonO_remote

theorem canonO_execRmminuI32 (nr : Bool) (xd : Reg) (xv : Reg) (xa : Reg) (s : State) (hc : Canon s) : CanonO (execRmminuI32
    nr xd xv xa s) := by
  unfold execRmminuI32
  repeat' first | with_reducible assumption | with_reducible apply canonO_remote

theorem canonO_execRmmaxuI32 (nr : Bool) (xd : Reg) (xv : Reg) (xa : Reg) (s : State) (hc : Canon s) : CanonO (execRmmaxuI32
    nr xd xv xa s) := by
  unfold execRmmaxuI32
  repeat' first | with_reducible assumption | with_reducible apply canonO_remote

theorem canonO_execRmswapI32 (nr : Bool) (xd : Reg) (xv : Reg) (xa : Reg) (s : State) (hc : Canon s) : CanonO (execRmswapI32
    nr xd xv xa s) := by
  unfold execRmswapI32
  repeat' first | with_reducible assumption | with_reducible apply canonO_remote

theorem canonO_execRmcasI32 (nr : Bool) (xd : Reg) (xv : Reg) (xa : Reg) (s : State) (hc : Canon s) : CanonO (execRmcasI32 nr
    xd xv xa s) := by
  unfold execRmcasI32
  repeat' first | with_reducible assumption | with_reducible apply canonO_remote

theorem canonO_execRmfadd (nr : Bool) (xd : Reg) (xv : Reg) (xa : Reg) (s : State) (hc : Canon s) : CanonO (execRmfadd nr xd
    xv xa s) := by
  unfold execRmfadd
  repeat' first | with_reducible assumption | with_reducible apply canonO_remote

theorem canonO_execRmfmin (nr : Bool) (xd : Reg) (xv : Reg) (xa : Reg) (s : State) (hc : Canon s) : CanonO (execRmfmin nr xd
    xv xa s) := by
  unfold execRmfmin
  repeat' first | with_reducible assumption | with_reducible apply canonO_remote

theorem canonO_execRmfmax (nr : Bool) (xd : Reg) (xv : Reg) (xa : Reg) (s : State) (hc : Canon s) : CanonO (execRmfmax nr xd
    xv xa s) := by
  unfold execRmfmax
  repeat' first | with_reducible assumption | with_reducible apply canonO_remote

theorem canonO_execLogapp (xa : Reg) (xv : Reg) (s : State) (hc : Canon s) : CanonO (execLogapp xa xv s) := by
  unfold execLogapp
  repeat' first | with_reducible assumption | (with_reducible intro _) | with_reducible apply canonE_require |
                 with_reducible apply canonE_check | with_reducible apply canon_step4 |
                 with_reducible apply canon_hold | with_reducible apply canonO_finish | with_reducible apply canonE_ok |
                 with_reducible apply canonE_trap | with_reducible apply canonE_bind | split

theorem canonE_issueTile (s : State) (k : TileKind) (hc : Canon s) : CanonE Canon (State.issueTile s k) := by
  unfold State.issueTile
  repeat' first | with_reducible assumption | with_reducible apply canon_newId | with_reducible apply canon_setAux |
                 with_reducible apply canon_hold | with_reducible apply canon_note | with_reducible apply canonE_ok |
                 with_reducible apply canonE_before | with_reducible apply canonE_stall |
                 with_reducible apply canonE_ite

theorem canonE_checkProduct (s : State) (i : Instr) (form : Nat) (pair : Pair) (cmd : Word) (a : Word) (b : Word) (hc : Canon
    s) : CanonE (fun _ => True) (State.checkProduct s i form pair cmd a b) := by
  unfold State.checkProduct
  repeat' first | (with_reducible intro _) | with_reducible apply canonE_require | with_reducible apply canonE_bind

theorem canonO_product (s : State) (i : Instr) (form : Nat) (pair : Pair) (cmd : Word) (a : Word) (b : Word) (hc : Canon s) :
    CanonO (State.product s i form pair cmd a b) := by
  unfold State.product
  repeat' first | with_reducible assumption | (with_reducible intro _) | with_reducible apply canonE_checkProduct |
                 with_reducible apply canonE_issueTile | with_reducible apply canon_step4 |
                 with_reducible apply canonO_finish | with_reducible apply canonE_ok | with_reducible apply canonE_bind

theorem canonO_execMma (pair : Pair) (xc : Reg) (xa : Reg) (xb : Reg) (s : State) (hc : Canon s) : CanonO (execMma pair xc xa
    xb s) := by
  unfold execMma
  repeat' first | with_reducible assumption | with_reducible apply canonO_product

theorem canonO_execMmav (pair : Pair) (xc : Reg) (xa : Reg) (xb : Reg) (s : State) (hc : Canon s) : CanonO (execMmav pair xc
    xa xb s) := by
  unfold execMmav
  repeat' first | with_reducible assumption | with_reducible apply canonO_product

theorem canonO_execMmat (pair : Pair) (xc : Reg) (xa : Reg) (xb : Reg) (s : State) (hc : Canon s) : CanonO (execMmat pair xc
    xa xb s) := by
  unfold execMmat
  repeat' first | with_reducible assumption | with_reducible apply canonO_product

theorem canonO_execAclr (xs : Reg) (s : State) (hc : Canon s) : CanonO (execAclr xs s) := by
  unfold execAclr
  repeat' first | with_reducible assumption | (with_reducible intro _) | with_reducible apply canonE_require |
                 with_reducible apply canonE_issueTile | with_reducible apply canon_step4 |
                 with_reducible apply canon_setCore | with_reducible apply canonO_finish |
                 with_reducible apply canonE_ok | with_reducible apply canonE_ite | with_reducible apply canonE_bind

theorem canonE_regionHeld (s : State) (i : Instr) (w : Word) (hc : Canon s) : CanonE (fun _ => True) (State.regionHeld s i w) := by
  unfold State.regionHeld
  repeat' first | with_reducible apply canonE_ok | with_reducible apply canonE_illegal |
                 with_reducible apply canonE_ite | with_reducible exact True.intro | split

theorem canonE_checkRegionMem (s : State) (i : Instr) (d : Word) (r : Region) (e : Nat) (mfs : List Nat) (hc : Canon s) :
    CanonE (fun _ => True) (State.checkRegionMem s i d r e mfs) := by
  unfold State.checkRegionMem
  repeat' first | (with_reducible intro _) | with_reducible apply canonE_require | with_reducible apply canonE_bind

theorem canonO_execAnarrow (ty : Ty3) (mode : RMode) (sat : Bool) (xm : Reg) (xg : Reg) (s : State) (hc : Canon s) : CanonO
    (execAnarrow ty mode sat xm xg s) := by
  unfold execAnarrow
  repeat' first | with_reducible assumption | (with_reducible intro _) | with_reducible apply canonE_regionHeld |
                 with_reducible apply canonE_checkRegionMem | with_reducible apply canonE_issueTile |
                 with_reducible apply canon_step4 | with_reducible apply canonO_finish |
                 with_reducible apply canonE_ok | with_reducible apply canonE_bind

theorem canonO_execAld (xg : Reg) (xm : Reg) (s : State) (hc : Canon s) : CanonO (execAld xg xm s) := by
  unfold execAld
  repeat' first | with_reducible assumption | (with_reducible intro _) | with_reducible apply canonE_regionHeld |
                 with_reducible apply canonE_checkRegionMem | with_reducible apply canonE_issueTile |
                 with_reducible apply canon_step4 | with_reducible apply canonO_finish |
                 with_reducible apply canonE_ok | with_reducible apply canonE_bind

theorem canonO_execAst (xg : Reg) (xm : Reg) (s : State) (hc : Canon s) : CanonO (execAst xg xm s) := by
  unfold execAst
  repeat' first | with_reducible assumption | (with_reducible intro _) | with_reducible apply canonE_regionHeld |
                 with_reducible apply canonE_checkRegionMem | with_reducible apply canonE_issueTile |
                 with_reducible apply canon_step4 | with_reducible apply canonO_finish |
                 with_reducible apply canonE_ok | with_reducible apply canonE_bind

theorem canonO_execAscale (xg : Reg) (xs : Reg) (s : State) (hc : Canon s) : CanonO (execAscale xg xs s) := by
  unfold execAscale
  repeat' first | with_reducible assumption | (with_reducible intro _) | with_reducible apply canonE_regionHeld |
                 with_reducible apply canonE_issueTile | with_reducible apply canon_step4 |
                 with_reducible apply canonO_finish | with_reducible apply canonE_ok | with_reducible apply canonE_bind

theorem canonO_execAmovv (vd : Reg) (xg : Reg) (s : State) (hc : Canon s) : CanonO (execAmovv vd xg s) := by
  unfold execAmovv
  repeat' first | with_reducible assumption | (with_reducible intro _) | with_reducible apply canonE_regionHeld |
                 with_reducible apply canonE_require | with_reducible apply canon_step4 |
                 with_reducible apply canon_setV | with_reducible apply canonO_finish | with_reducible apply canonE_ok |
                 with_reducible apply canonE_bind

theorem canonO_execAmova (xg : Reg) (vb : Reg) (s : State) (hc : Canon s) : CanonO (execAmova xg vb s) := by
  unfold execAmova
  repeat' first | with_reducible assumption | (with_reducible intro _) | with_reducible apply canonE_regionHeld |
                 with_reducible apply canonE_require | with_reducible apply canonE_issueTile |
                 with_reducible apply canon_step4 | with_reducible apply canonO_finish |
                 with_reducible apply canonE_ok | with_reducible apply canonE_bind

theorem canonO_execUnfcfg (xs : Reg) (s : State) (hc : Canon s) : CanonO (execUnfcfg xs s) := by
  unfold execUnfcfg
  repeat' first | with_reducible assumption | (with_reducible intro _) | with_reducible apply canonE_descriptor |
                 with_reducible apply canonE_require | with_reducible apply canonE_issueTile |
                 with_reducible apply canon_step4 | with_reducible apply canon_setAux |
                 with_reducible apply canonO_finish | with_reducible apply canonE_ok |
                 with_reducible apply canonE_before | with_reducible apply canonE_stall |
                 with_reducible apply canonE_ite | with_reducible apply canonE_bind

theorem canonO_csrOp (s : State) (i : Instr) (op : Nat) (rd : Reg) (csr : BitVec 12) (field : BitVec 5) (y : Word) (hc :
    Canon s) : CanonO (State.csrOp s i op rd csr field y) := by
  unfold State.csrOp
  repeat' first | with_reducible assumption | (with_reducible intro _) | with_reducible apply canon_raise |
                 with_reducible apply canonE_check | with_reducible apply canon_hold |
                 with_reducible apply canon_step4 | with_reducible apply canon_setX |
                 with_reducible apply canon_stepSync | with_reducible apply canon_setHart |
                 with_reducible apply canonO_next | with_reducible apply canonO_finish |
                 with_reducible apply canonE_ok | with_reducible apply canonE_ite | with_reducible apply canonE_bind |
                 with_reducible apply canon_ite | split | (simp only [canon_mk_iff, wf_mem_iff])

theorem canonO_execCsrrw (rd : Reg) (csr : BitVec 12) (rs : Reg) (s : State) (hc : Canon s) : CanonO (execCsrrw rd csr rs s) := by
  unfold execCsrrw
  repeat' first | with_reducible assumption | with_reducible apply canonO_csrOp

theorem canonO_execCsrrs (rd : Reg) (csr : BitVec 12) (rs : Reg) (s : State) (hc : Canon s) : CanonO (execCsrrs rd csr rs s) := by
  unfold execCsrrs
  repeat' first | with_reducible assumption | with_reducible apply canonO_csrOp

theorem canonO_execCsrrc (rd : Reg) (csr : BitVec 12) (rs : Reg) (s : State) (hc : Canon s) : CanonO (execCsrrc rd csr rs s) := by
  unfold execCsrrc
  repeat' first | with_reducible assumption | with_reducible apply canonO_csrOp

theorem canonO_execCsrrwi (rd : Reg) (csr : BitVec 12) (u : BitVec 5) (s : State) (hc : Canon s) : CanonO (execCsrrwi rd csr
    u s) := by
  unfold execCsrrwi
  repeat' first | with_reducible assumption | with_reducible apply canonO_csrOp

theorem canonO_execCsrrsi (rd : Reg) (csr : BitVec 12) (u : BitVec 5) (s : State) (hc : Canon s) : CanonO (execCsrrsi rd csr
    u s) := by
  unfold execCsrrsi
  repeat' first | with_reducible assumption | with_reducible apply canonO_csrOp

theorem canonO_execCsrrci (rd : Reg) (csr : BitVec 12) (u : BitVec 5) (s : State) (hc : Canon s) : CanonO (execCsrrci rd csr
    u s) := by
  unfold execCsrrci
  repeat' first | with_reducible assumption | with_reducible apply canonO_csrOp

theorem canonO_execQbind (q : Reg3) (xs : Reg) (s : State) (hc : Canon s) : CanonO (execQbind q xs s) := by
  unfold execQbind
  repeat' first | with_reducible assumption | (with_reducible intro _) | with_reducible apply canonE_descriptor |
                 with_reducible apply canonE_require | with_reducible apply canon_newId |
                 with_reducible apply canon_step4 | with_reducible apply canon_fetchGo |
                 with_reducible apply canon_setPort | with_reducible apply canonO_finish |
                 with_reducible apply canonE_ok | with_reducible apply canonE_bind

theorem canonO_execQunbind (q : Reg3) (s : State) (hc : Canon s) : CanonO (execQunbind q s) := by
  unfold execQunbind
  repeat' first | with_reducible assumption | with_reducible apply canon_step4 | with_reducible apply canon_setPort |
                 with_reducible apply canonO_next

theorem canonE_streamPort (s : State) (q : Reg3) (dir : Bool) (i : Instr) (hc : Canon s) : CanonE (fun _ => True)
    (State.streamPort s q dir i) := by
  unfold State.streamPort
  repeat' first | with_reducible apply canonE_ok | with_reducible apply canonE_illegal |
                 with_reducible apply canonE_ite | with_reducible exact True.intro | split

theorem canonE_takeEls (s : State) (q : Nat) (p : Port) (n : Nat) (hc : Canon s) : CanonE (fun a => Canon a.2) (State.takeEls
    s q p n) := by
  unfold State.takeEls
  repeat' first | with_reducible assumption | with_reducible apply canon_fetchGo | with_reducible apply canon_setAux |
                 with_reducible apply canon_setPort | with_reducible apply canonE_ok |
                 with_reducible apply canonE_stall | with_reducible apply canonE_ite

theorem canonE_putEls (s : State) (q : Nat) (p : Port) (vs : List Nat) (hc : Canon s) : CanonE Canon (State.putEls s q p vs) := by
  unfold State.putEls
  repeat' first | with_reducible assumption | with_reducible apply canon_hold | with_reducible apply canon_setPort |
                 with_reducible apply canonE_ok | with_reducible apply canonE_before |
                 with_reducible apply canonE_stall | with_reducible apply canonE_ite | split

theorem canonO_execQld (vd : Reg) (q : Reg3) (s : State) (hc : Canon s) : CanonO (execQld vd q s) := by
  unfold execQld
  repeat' first | with_reducible assumption | (with_reducible intro _) | with_reducible apply canonE_streamPort |
                 with_reducible apply canonE_takeEls | with_reducible apply canon_step4 |
                 with_reducible apply canon_setV | with_reducible apply canonO_finish | with_reducible apply canonE_ok |
                 with_reducible apply canonE_bind

theorem canonO_execQst (q : Reg3) (vb : Reg) (s : State) (hc : Canon s) : CanonO (execQst q vb s) := by
  unfold execQst
  repeat' first | with_reducible assumption | (with_reducible intro _) | with_reducible apply canonE_streamPort |
                 with_reducible apply canonE_putEls | with_reducible apply canon_step4 |
                 with_reducible apply canonO_finish | with_reducible apply canonE_ok | with_reducible apply canonE_bind

theorem canonO_execQldx (xd : Reg) (q : Reg3) (s : State) (hc : Canon s) : CanonO (execQldx xd q s) := by
  unfold execQldx
  repeat' first | with_reducible assumption | (with_reducible intro _) | with_reducible apply canonE_streamPort |
                 with_reducible apply canonE_takeEls | with_reducible apply canon_step4 |
                 with_reducible apply canon_setX | with_reducible apply canonO_finish | with_reducible apply canonE_ok |
                 with_reducible apply canonE_bind

theorem canonO_execQstx (q : Reg3) (xs : Reg) (s : State) (hc : Canon s) : CanonO (execQstx q xs s) := by
  unfold execQstx
  repeat' first | with_reducible assumption | (with_reducible intro _) | with_reducible apply canonE_streamPort |
                 with_reducible apply canonE_putEls | with_reducible apply canon_step4 |
                 with_reducible apply canonO_finish | with_reducible apply canonE_ok | with_reducible apply canonE_bind

theorem canonO_execQpos (xd : Reg) (q : Reg3) (s : State) (hc : Canon s) : CanonO (execQpos xd q s) := by
  unfold execQpos
  repeat' first | with_reducible assumption | with_reducible apply canonO_putX

theorem canonO_execQflush (q : Reg3) (s : State) (hc : Canon s) : CanonO (execQflush q s) := by
  unfold execQflush
  repeat' first | with_reducible assumption | with_reducible apply canon_step4 | with_reducible apply canon_setAux |
                 with_reducible apply canon_fetchGo | with_reducible apply canonO_next |
                 with_reducible apply canonO_ite | split

theorem canonE_issueCopy (s : State) (xd : Reg) (xp : Reg) (follow : Option Tile) (hc : Canon s) : CanonE Canon
    (State.issueCopy s xd xp follow) := by
  unfold State.issueCopy
  repeat' first | with_reducible assumption | with_reducible apply canon_newId | with_reducible apply canon_await |
                 with_reducible apply canon_note | with_reducible apply canon_hold | with_reducible apply canonE_ok |
                 with_reducible apply canonE_stall | with_reducible apply canonE_ite | with_reducible apply canon_ite

theorem canonO_execCpyGo (xd : Reg) (xp : Reg) (s : State) (hc : Canon s) : CanonO (execCpyGo xd xp s) := by
  unfold execCpyGo
  repeat' first | with_reducible assumption | (with_reducible intro _) | with_reducible apply canonE_issueCopy |
                 with_reducible apply canon_stepEnd | with_reducible apply canonO_finish |
                 with_reducible apply canonE_ok | with_reducible apply canonE_bind

theorem canonO_execCpyGoM (xd : Reg) (xp : Reg) (xr : Reg) (s : State) (hc : Canon s) : CanonO (execCpyGoM xd xp xr s) := by
  unfold execCpyGoM
  repeat' first | with_reducible assumption | (with_reducible intro _) | with_reducible apply canonE_descriptor |
                 with_reducible apply canonE_require | with_reducible apply canonE_checkProduct |
                 with_reducible apply canon_newId | with_reducible apply canon_setAux |
                 with_reducible apply canonE_issueCopy | with_reducible apply canon_note |
                 with_reducible apply canon_stepEnd | with_reducible apply canonO_finish |
                 with_reducible apply canonE_ok | with_reducible apply canonE_illegal |
                 with_reducible apply canonE_before | with_reducible apply canonE_stall |
                 with_reducible apply canonE_ite | with_reducible apply canonE_bind | split

theorem canonO_execCpyCancel (xn : Reg) (s : State) (hc : Canon s) : CanonO (execCpyCancel xn s) := by
  unfold execCpyCancel
  repeat' first | with_reducible assumption | with_reducible apply canon_stepSync | with_reducible apply canon_hold |
                 with_reducible apply canonO_next

theorem canonO_execCpyProg (xd : Reg) (xn : Reg) (s : State) (hc : Canon s) : CanonO (execCpyProg xd xn s) := by
  unfold execCpyProg
  repeat' first | with_reducible assumption | with_reducible apply canonO_putX

theorem canonO_execWaitc (nl : BitVec 5) (ns : BitVec 5) (nc : BitVec 5) (nt : BitVec 5) (s : State) (hc : Canon s) : CanonO
    (execWaitc nl ns nc nt s) := by
  unfold execWaitc
  repeat' first | with_reducible assumption | (with_reducible intro _) | with_reducible apply canonE_notRtc |
                 with_reducible apply canon_beginWait | with_reducible apply canonO_finish |
                 with_reducible apply canonE_ok | with_reducible apply canonE_bind

theorem canonE_crzCheck (s : State) (i : Instr) (d : List Word) (hc : Canon s) : CanonE (fun _ => True) (State.crzCheck s i
    d) := by
  unfold State.crzCheck
  repeat' first | (with_reducible intro _) | with_reducible apply canonE_require | with_reducible apply canonE_bind

theorem canonO_crzSend (s : State) (i : Instr) (op : Nat) (xa : Reg) (xo : Reg) (hc : Canon s) : CanonO (State.crzSend s i op
    xa xo) := by
  unfold State.crzSend
  repeat' first | with_reducible assumption | (with_reducible intro _) | with_reducible apply canonE_descriptor |
                 with_reducible apply canonE_require | with_reducible apply canonE_crzCheck |
                 with_reducible apply canon_step4 | with_reducible apply canon_hold |
                 with_reducible apply canonO_finish | with_reducible apply canonE_ok | with_reducible apply canonE_bind

theorem canonO_execCrzsendAdd (xa : Reg) (xo : Reg) (s : State) (hc : Canon s) : CanonO (execCrzsendAdd xa xo s) := by
  unfold execCrzsendAdd
  repeat' first | with_reducible assumption | with_reducible apply canonO_crzSend

theorem canonO_execCrzsendMax (xa : Reg) (xo : Reg) (s : State) (hc : Canon s) : CanonO (execCrzsendMax xa xo s) := by
  unfold execCrzsendMax
  repeat' first | with_reducible assumption | with_reducible apply canonO_crzSend

theorem canonO_execCrzsendMin (xa : Reg) (xo : Reg) (s : State) (hc : Canon s) : CanonO (execCrzsendMin xa xo s) := by
  unfold execCrzsendMin
  repeat' first | with_reducible assumption | with_reducible apply canonO_crzSend

theorem canonO_execCrzsendAnd (xa : Reg) (xo : Reg) (s : State) (hc : Canon s) : CanonO (execCrzsendAnd xa xo s) := by
  unfold execCrzsendAnd
  repeat' first | with_reducible assumption | with_reducible apply canonO_crzSend

theorem canonO_execCrzsendOr (xa : Reg) (xo : Reg) (s : State) (hc : Canon s) : CanonO (execCrzsendOr xa xo s) := by
  unfold execCrzsendOr
  repeat' first | with_reducible assumption | with_reducible apply canonO_crzSend

theorem canonO_execCrzsendXor (xa : Reg) (xo : Reg) (s : State) (hc : Canon s) : CanonO (execCrzsendXor xa xo s) := by
  unfold execCrzsendXor
  repeat' first | with_reducible assumption | with_reducible apply canonO_crzSend

theorem canonO_execCrzsendBadd (xa : Reg) (xo : Reg) (s : State) (hc : Canon s) : CanonO (execCrzsendBadd xa xo s) := by
  unfold execCrzsendBadd
  repeat' first | with_reducible assumption | with_reducible apply canonO_crzSend

theorem canonO_execCrzrecv (xd : Reg) (xa : Reg) (s : State) (hc : Canon s) : CanonO (execCrzrecv xd xa s) := by
  unfold execCrzrecv
  repeat' first | with_reducible assumption | (with_reducible intro _) | with_reducible apply canonE_descriptor |
                 with_reducible apply canonE_crzCheck | with_reducible apply canon_ask |
                 with_reducible apply canon_step4 | with_reducible apply canon_hold |
                 with_reducible apply canonO_finish | with_reducible apply canonE_ok | with_reducible apply canonE_bind

theorem canonO_execWaitC (xs : Reg) (s : State) (hc : Canon s) : CanonO (execWaitC xs s) := by
  unfold execWaitC
  repeat' first | with_reducible assumption | (with_reducible intro _) | with_reducible apply canonE_notRtc |
                 with_reducible apply canon_beginWait | with_reducible apply canonO_finish |
                 with_reducible apply canonE_ok | with_reducible apply canonE_bind

theorem canonO_execWaitT (xs : Reg) (s : State) (hc : Canon s) : CanonO (execWaitT xs s) := by
  unfold execWaitT
  repeat' first | with_reducible assumption | (with_reducible intro _) | with_reducible apply canonE_notRtc |
                 with_reducible apply canon_beginWait | with_reducible apply canonO_finish |
                 with_reducible apply canonE_ok | with_reducible apply canonE_bind

theorem canonO_execWaitTr (xs : Reg) (s : State) (hc : Canon s) : CanonO (execWaitTr xs s) := by
  unfold execWaitTr
  repeat' first | with_reducible assumption | (with_reducible intro _) | with_reducible apply canonE_notRtc |
                 with_reducible apply canon_beginWait | with_reducible apply canonO_finish |
                 with_reducible apply canonE_ok | with_reducible apply canonE_bind

theorem canonO_execBreq (prio : BitVec 3) (level : BitVec 2) (s : State) (hc : Canon s) : CanonO (execBreq prio level s) := by
  unfold execBreq
  repeat' first | with_reducible assumption | with_reducible apply canon_holdSync | with_reducible apply canonO_next

theorem canonO_execEretS (s : State) (hc : Canon s) : CanonO (execEretS s) := by
  unfold execEretS
  repeat' first | with_reducible assumption | (with_reducible intro _) | with_reducible apply canonE_needs |
                 with_reducible apply canon_holdSync | with_reducible apply canonO_finish |
                 with_reducible apply canonE_ok | with_reducible apply canonE_bind

theorem canonO_execEretM (s : State) (hc : Canon s) : CanonO (execEretM s) := by
  unfold execEretM
  repeat' first | with_reducible assumption | (with_reducible intro _) | with_reducible apply canonE_needs |
                 with_reducible apply canon_holdSync | with_reducible apply canonO_finish |
                 with_reducible apply canonE_ok | with_reducible apply canonE_bind

theorem canonO_execTron (s : State) (hc : Canon s) : CanonO (execTron s) := by
  unfold execTron
  repeat' first | with_reducible assumption | with_reducible apply canon_holdSync | with_reducible apply canonO_next

theorem canonO_execTroff (s : State) (hc : Canon s) : CanonO (execTroff s) := by
  unfold execTroff
  repeat' first | with_reducible assumption | with_reducible apply canon_holdSync | with_reducible apply canonO_next

theorem canonO_execTrmark (xs : Reg) (s : State) (hc : Canon s) : CanonO (execTrmark xs s) := by
  unfold execTrmark
  repeat' first | with_reducible assumption | with_reducible apply canon_step4 | with_reducible apply canon_hold |
                 with_reducible apply canonO_next

theorem canonO_execCapon (n : BitVec 5) (s : State) (hc : Canon s) : CanonO (execCapon n s) := by
  unfold execCapon
  repeat' first | with_reducible assumption | with_reducible apply canon_holdSync | with_reducible apply canonO_next

theorem canonO_execCapoff (n : BitVec 5) (s : State) (hc : Canon s) : CanonO (execCapoff n s) := by
  unfold execCapoff
  repeat' first | with_reducible assumption | with_reducible apply canon_holdSync | with_reducible apply canonO_next

theorem canonO_execCaprd (xd : Reg) (n : BitVec 5) (s : State) (hc : Canon s) : CanonO (execCaprd xd n s) := by
  unfold execCaprd
  repeat' first | with_reducible assumption | with_reducible apply canonO_putX

theorem canonE_scanAccess (s : State) (va : Word) (hc : Canon s) : CanonE (fun _ => True) (State.scanAccess s va) := by
  have hit (rs : List (Word × Except Nat Place)) (c : Nat) (e : Stop)
      (h : (rs.find? (fun r => match r.2 with | .error d => d == c | .ok _ => false)).map (fun r => Stop.trap c r.1) = some e) :
      CanonE (fun _ => True) (.error e : Except Stop Unit) := by
    obtain ⟨r, -, rfl⟩ := Option.map_eq_some_iff.1 h
    exact canonE_trap
  unfold State.scanAccess
  refine canonE_ite (canonE_ok trivial) ?_
  dsimp only
  split
  all_goals first
    | exact canonE_ok trivial
    | exact hit _ _ _ (by assumption)

theorem canonO_execScanrun (xd : Reg) (xs : Reg) (s : State) (hc : Canon s) : CanonO (execScanrun xd xs s) := by
  unfold execScanrun
  repeat' first | with_reducible assumption | (with_reducible intro _) | with_reducible apply canonE_needs |
                 with_reducible apply canonE_scanAccess | with_reducible apply canon_ask |
                 with_reducible apply canon_holdSync | with_reducible apply canonO_finish |
                 with_reducible apply canonE_ok | with_reducible apply canonE_bind

theorem canonO_execScanstat (xd : Reg) (s : State) (hc : Canon s) : CanonO (execScanstat xd s) := by
  unfold execScanstat
  repeat' first | with_reducible assumption | (with_reducible intro _) | with_reducible apply canonE_needs |
                 with_reducible apply canon_step4 | with_reducible apply canon_setX |
                 with_reducible apply canonO_finish | with_reducible apply canonE_ok | with_reducible apply canonE_bind

theorem canonO_execScanabort (s : State) (hc : Canon s) : CanonO (execScanabort s) := by
  unfold execScanabort
  repeat' first | with_reducible assumption | (with_reducible intro _) | with_reducible apply canonE_needs |
                 with_reducible apply canon_holdSync | with_reducible apply canonO_finish |
                 with_reducible apply canonE_ok | with_reducible apply canonE_bind

theorem canonO_execMaprd (xd : Reg) (xs : Reg) (s : State) (hc : Canon s) : CanonO (execMaprd xd xs s) := by
  unfold execMaprd
  repeat' first | with_reducible assumption | (with_reducible intro _) | with_reducible apply canonE_needs |
                 with_reducible apply canon_step4 | with_reducible apply canon_setX |
                 with_reducible apply canonO_finish | with_reducible apply canonE_ok | with_reducible apply canonE_bind

theorem canonO_execMaprm (xs : Reg) (s : State) (hc : Canon s) : CanonO (execMaprm xs s) := by
  unfold execMaprm
  repeat' first | with_reducible assumption | (with_reducible intro _) | with_reducible apply canonE_needs |
                 with_reducible apply canon_holdSync | with_reducible apply canonO_finish |
                 with_reducible apply canonE_ok | with_reducible apply canonE_bind

theorem canonO_execMapadd (xs : Reg) (s : State) (hc : Canon s) : CanonO (execMapadd xs s) := by
  unfold execMapadd
  repeat' first | with_reducible assumption | (with_reducible intro _) | with_reducible apply canonE_needs |
                 with_reducible apply canon_holdSync | with_reducible apply canonO_finish |
                 with_reducible apply canonE_ok | with_reducible apply canonE_bind

theorem canonO_execPreq (xd : Reg) (xs : Reg) (s : State) (hc : Canon s) : CanonO (execPreq xd xs s) := by
  unfold execPreq
  repeat' first | with_reducible assumption | (with_reducible intro _) | with_reducible apply canonE_needs |
                 with_reducible apply canon_ask | with_reducible apply canon_holdSync |
                 with_reducible apply canonO_finish | with_reducible apply canonE_ok | with_reducible apply canonE_bind

theorem canonO_execGrant (s : State) (hc : Canon s) : CanonO (execGrant s) := by
  unfold execGrant
  repeat' first | with_reducible assumption | with_reducible apply canon_grantNext | with_reducible apply canon_taken |
                 with_reducible apply canonO_next | split

theorem canonO_execBroadcastArrival (s : State) (hc : Canon s) : CanonO (execBroadcastArrival s) := by
  unfold execBroadcastArrival
  repeat' first | with_reducible assumption | with_reducible apply canon_after | with_reducible apply canon_taken |
                 with_reducible apply canon_processBroadcast | with_reducible apply canonO_next |
                 with_reducible apply canon_ite | split

theorem canonO_execDrainComplete (s : State) (hc : Canon s) : CanonO (execDrainComplete s) := by
  unfold execDrainComplete
  repeat' first | with_reducible assumption | with_reducible apply canon_drainDone | with_reducible apply canon_taken |
                 with_reducible apply canonO_next | split

theorem canonO_execLocalCommit (s : State) (hc : Canon s) : CanonO (execLocalCommit s) := by
  unfold execLocalCommit
  repeat' first | with_reducible assumption | with_reducible apply canon_localDone | with_reducible apply canon_taken |
                 with_reducible apply canonO_next | split

theorem canonO_execReservationTimeout (s : State) (hc : Canon s) : CanonO (execReservationTimeout s) := by
  unfold execReservationTimeout
  repeat' first | with_reducible assumption | with_reducible apply canon_dropResv | with_reducible apply canon_taken |
                 with_reducible apply canonO_next | with_reducible apply canon_ite | split

theorem canonO_execLoadDataReturn (s : State) (hc : Canon s) : CanonO (execLoadDataReturn s) := by
  unfold execLoadDataReturn
  repeat' first | with_reducible assumption | with_reducible apply canon_dataBack | with_reducible apply canon_taken |
                 with_reducible apply canonO_next | split

theorem canonO_execFundamentalReset (s : State) (hc : Canon s) : CanonO (execFundamentalReset s) := by
  unfold execFundamentalReset
  repeat' first | with_reducible assumption | with_reducible apply canon_resetNow | with_reducible apply canonO_next |
                 split

theorem canonO_execPfFunctionLevelReset (s : State) (hc : Canon s) : CanonO (execPfFunctionLevelReset s) := by
  unfold execPfFunctionLevelReset
  repeat' first | with_reducible assumption | with_reducible apply canon_resetNow | with_reducible apply canonO_next |
                 split

theorem canonO_execSecondaryBusReset (s : State) (hc : Canon s) : CanonO (execSecondaryBusReset s) := by
  unfold execSecondaryBusReset
  repeat' first | with_reducible assumption | with_reducible apply canon_resetNow | with_reducible apply canonO_next |
                 split

theorem canonO_execBringupPhaseEnd (s : State) (hc : Canon s) : CanonO (execBringupPhaseEnd s) := by
  unfold execBringupPhaseEnd
  repeat' first | with_reducible assumption | with_reducible apply canon_phaseEnd | with_reducible apply canon_taken |
                 with_reducible apply canonO_next | split

theorem canonO_execConfigRequest (s : State) (hc : Canon s) : CanonO (execConfigRequest s) := by
  unfold execConfigRequest
  repeat' first | with_reducible assumption | with_reducible apply canon_emit | with_reducible apply canon_taken |
                 with_reducible apply canonO_next | split

theorem canonO_execMbootGo (s : State) (hc : Canon s) : CanonO (execMbootGo s) := by
  unfold execMbootGo
  repeat' first | with_reducible assumption | with_reducible apply canon_writeMboot | with_reducible apply canon_taken |
                 with_reducible apply canonO_next | split

theorem canonO_execImageCheck (s : State) (hc : Canon s) : CanonO (execImageCheck s) := by
  unfold execImageCheck
  repeat' first | with_reducible assumption | with_reducible apply canon_imageTake | with_reducible apply canon_taken |
                 with_reducible apply canonO_next | split

theorem canonO_execRawRailChange (s : State) (hc : Canon s) : CanonO (execRawRailChange s) := by
  unfold execRawRailChange
  repeat' first | with_reducible assumption | with_reducible apply canon_railChange | with_reducible apply canon_taken |
                 with_reducible apply canonO_next | split

theorem canonO_execRailSample (s : State) (hc : Canon s) : CanonO (execRailSample s) := by
  unfold execRailSample
  repeat' first | with_reducible assumption | with_reducible apply canon_railLook | with_reducible apply canon_taken |
                 with_reducible apply canonO_next | split

theorem canonO_execTimeBeacon (s : State) (hc : Canon s) : CanonO (execTimeBeacon s) := by
  unfold execTimeBeacon
  repeat' first | with_reducible assumption | with_reducible apply canon_beacon | with_reducible apply canon_taken |
                 with_reducible apply canonO_next | split

theorem canonO_execBeaconLoss (s : State) (hc : Canon s) : CanonO (execBeaconLoss s) := by
  unfold execBeaconLoss
  repeat' first | with_reducible assumption | with_reducible apply canon_beaconLost | with_reducible apply canon_taken |
                 with_reducible apply canonO_next | split

theorem canonO_execLinkLaneFailure (s : State) (hc : Canon s) : CanonO (execLinkLaneFailure s) := by
  unfold execLinkLaneFailure
  repeat' first | with_reducible assumption | with_reducible apply canon_linkFail | with_reducible apply canon_taken |
                 with_reducible apply canonO_next | split

theorem canonO_execLinkRetrainEnd (s : State) (hc : Canon s) : CanonO (execLinkRetrainEnd s) := by
  unfold execLinkRetrainEnd
  repeat' first | with_reducible assumption | with_reducible apply canon_linkBack | with_reducible apply canon_taken |
                 with_reducible apply canonO_next | split

theorem canonO_execPortLaneFailure (s : State) (hc : Canon s) : CanonO (execPortLaneFailure s) := by
  unfold execPortLaneFailure
  repeat' first | with_reducible assumption | with_reducible apply canon_ckMove | with_reducible apply canon_portFail |
                 with_reducible apply canon_taken | with_reducible apply canonO_next | split

theorem canonO_execPortRetrainEnd (s : State) (hc : Canon s) : CanonO (execPortRetrainEnd s) := by
  unfold execPortRetrainEnd
  repeat' first | with_reducible assumption | with_reducible apply canon_portBack | with_reducible apply canon_taken |
                 with_reducible apply canonO_next | split

theorem canonO_execHostLaneFailure (s : State) (hc : Canon s) : CanonO (execHostLaneFailure s) := by
  unfold execHostLaneFailure
  repeat' first | with_reducible assumption | with_reducible apply canon_hostFail | with_reducible apply canon_taken |
                 with_reducible apply canonO_next | split

theorem canonO_execDebugHalt (s : State) (hc : Canon s) : CanonO (execDebugHalt s) := by
  unfold execDebugHalt
  repeat' first | with_reducible assumption | with_reducible apply canon_haltSorus | with_reducible apply canon_taken |
                 with_reducible apply canonO_next | split

theorem canonO_execDebugResume (s : State) (hc : Canon s) : CanonO (execDebugResume s) := by
  unfold execDebugResume
  repeat' first | with_reducible assumption | with_reducible apply canon_resumeSorus |
                 with_reducible apply canon_taken | with_reducible apply canonO_next | split

theorem canonO_execDebugStep (s : State) (hc : Canon s) : CanonO (execDebugStep s) := by
  unfold execDebugStep
  repeat' first | with_reducible assumption | with_reducible apply canon_stepSorus | with_reducible apply canon_taken |
                 with_reducible apply canonO_next | split

theorem canonO_execDbgrdatWrite (s : State) (hc : Canon s) : CanonO (execDbgrdatWrite s) := by
  unfold execDbgrdatWrite
  repeat' first | with_reducible assumption | with_reducible apply canon_writeDbgrdat |
                 with_reducible apply canon_taken | with_reducible apply canonO_next | split

theorem canonO_execRouterGridPeriod (s : State) (hc : Canon s) : CanonO (execRouterGridPeriod s) := by
  unfold execRouterGridPeriod
  repeat' first | with_reducible assumption | with_reducible apply canon_gridPeriod | with_reducible apply canon_taken |
                 with_reducible apply canonO_next | split

theorem canonO_execSelection (s : State) (hc : Canon s) : CanonO (execSelection s) := by
  unfold execSelection
  repeat' first | with_reducible assumption | with_reducible apply canon_select | with_reducible apply canon_taken |
                 with_reducible apply canonO_next | split

theorem canonO_execStartingComplete (s : State) (hc : Canon s) : CanonO (execStartingComplete s) := by
  unfold execStartingComplete
  repeat' first | with_reducible assumption | with_reducible apply canon_pokeYield | with_reducible apply canon_setCtx |
                 with_reducible apply canon_taken | with_reducible apply canonO_next | with_reducible apply canon_ite |
                 split

theorem canonO_execBankWakeComplete (s : State) (hc : Canon s) : CanonO (execBankWakeComplete s) := by
  unfold execBankWakeComplete
  repeat' first | with_reducible assumption | with_reducible apply canon_after | with_reducible apply canon_taken |
                 with_reducible apply canon_setBank | with_reducible apply canon_wipeBank |
                 with_reducible apply canonO_next | with_reducible apply canon_ite | split

theorem canonO_execRetentionExpiry (s : State) (hc : Canon s) : CanonO (execRetentionExpiry s) := by
  unfold execRetentionExpiry
  repeat' first | with_reducible assumption | with_reducible apply canon_after | with_reducible apply canon_taken |
                 with_reducible apply canon_poke | with_reducible apply canon_bankDown |
                 with_reducible apply canonO_next | with_reducible apply canon_ite | split

theorem canonO_execGroupDispatch (s : State) (hc : Canon s) : CanonO (execGroupDispatch s) := by
  unfold execGroupDispatch
  repeat' first | with_reducible assumption | with_reducible apply canon_dispatch | with_reducible apply canon_taken |
                 with_reducible apply canonO_next | split

theorem canonO_execLaunchHeaderArrival (s : State) (hc : Canon s) : CanonO (execLaunchHeaderArrival s) := by
  unfold execLaunchHeaderArrival
  repeat' first | with_reducible assumption | with_reducible apply canon_headerArrive |
                 with_reducible apply canon_taken | with_reducible apply canonO_next | split

theorem canonO_execHubQueueRefill (s : State) (hc : Canon s) : CanonO (execHubQueueRefill s) := by
  unfold execHubQueueRefill
  repeat' first | with_reducible assumption | with_reducible apply canon_refillQueue |
                 with_reducible apply canon_taken | with_reducible apply canonO_next | split

theorem canonO_execResidentSlotCopy (s : State) (hc : Canon s) : CanonO (execResidentSlotCopy s) := by
  unfold execResidentSlotCopy
  repeat' first | with_reducible assumption | with_reducible apply canon_slotCopy | with_reducible apply canon_taken |
                 with_reducible apply canonO_next | split

theorem canonO_execSorusPass (s : State) (hc : Canon s) : CanonO (execSorusPass s) := by
  unfold execSorusPass
  repeat' first | with_reducible assumption | with_reducible apply canon_passSorus | with_reducible apply canon_taken |
                 with_reducible apply canonO_next | split

theorem canonO_execPreemptionRequest (s : State) (hc : Canon s) : CanonO (execPreemptionRequest s) := by
  unfold execPreemptionRequest
  repeat' first | with_reducible assumption | with_reducible apply canon_after | with_reducible apply canon_taken |
                 with_reducible apply canon_preempt | with_reducible apply canonO_next |
                 with_reducible apply canon_ite | split

theorem canonO_execSafePoint (s : State) (hc : Canon s) : CanonO (execSafePoint s) := by
  unfold execSafePoint
  repeat' first | with_reducible assumption | with_reducible apply canon_reachSafe | with_reducible apply canon_taken |
                 with_reducible apply canonO_next | split

theorem canonO_execSaveComplete (s : State) (hc : Canon s) : CanonO (execSaveComplete s) := by
  unfold execSaveComplete
  repeat' first | with_reducible assumption | with_reducible apply canon_saveNow | with_reducible apply canon_taken |
                 with_reducible apply canonO_next | split

theorem canonO_execRestoreComplete (s : State) (hc : Canon s) : CanonO (execRestoreComplete s) := by
  unfold execRestoreComplete
  repeat' first | with_reducible assumption | with_reducible apply canon_restoreNow | with_reducible apply canon_taken |
                 with_reducible apply canonO_next | split

theorem canonO_execLaunchCompletion (s : State) (hc : Canon s) : CanonO (execLaunchCompletion s) := by
  unfold execLaunchCompletion
  repeat' first | with_reducible assumption | with_reducible apply canon_complete | with_reducible apply canon_taken |
                 with_reducible apply canonO_next | split

theorem canonO_execTileOperationComplete (s : State) (hc : Canon s) : CanonO (execTileOperationComplete s) := by
  unfold execTileOperationComplete
  repeat' first | with_reducible assumption | with_reducible apply canon_tileDone | with_reducible apply canon_taken |
                 with_reducible apply canonO_next | with_reducible apply canon_ite | split

theorem canonO_execCopyHeadCheck (s : State) (hc : Canon s) : CanonO (execCopyHeadCheck s) := by
  unfold execCopyHeadCheck
  repeat' first | with_reducible assumption | with_reducible apply canon_taken | with_reducible apply canon_copyEnd |
                 with_reducible apply canon_poke | with_reducible apply canon_setCopy |
                 with_reducible apply canonO_next | with_reducible apply canonO_ite | with_reducible apply canon_ite |
                 split

theorem canonO_execCopySectorWritten (s : State) (hc : Canon s) : CanonO (execCopySectorWritten s) := by
  unfold execCopySectorWritten
  repeat' first | with_reducible assumption | with_reducible apply canon_taken | with_reducible apply canon_copyFreeze |
                 with_reducible apply canon_copySector | with_reducible apply canonO_next |
                 with_reducible apply canon_ite | split

theorem canonO_execStreamFetchReturn (s : State) (hc : Canon s) : CanonO (execStreamFetchReturn s) := by
  unfold execStreamFetchReturn
  repeat' first | with_reducible assumption | with_reducible apply canon_fetchReturn |
                 with_reducible apply canon_taken | with_reducible apply canonO_next | split

theorem canonO_execStreamWriteTransferDone (s : State) (hc : Canon s) : CanonO (execStreamWriteTransferDone s) := by
  unfold execStreamWriteTransferDone
  repeat' first | with_reducible assumption | with_reducible apply canon_transferDone |
                 with_reducible apply canon_taken | with_reducible apply canonO_next | split

theorem canonO_execBarrierUpdate (s : State) (hc : Canon s) : CanonO (execBarrierUpdate s) := by
  unfold execBarrierUpdate
  repeat' first | with_reducible assumption | with_reducible apply canon_taken | with_reducible apply canon_after |
                 with_reducible apply canon_setSorus | with_reducible apply canon_poke |
                 with_reducible apply canon_barUpdate | with_reducible apply canonO_next |
                 with_reducible apply canonO_ite | with_reducible apply canon_ite | split

theorem canonO_execExchangeComplete (s : State) (hc : Canon s) : CanonO (execExchangeComplete s) := by
  unfold execExchangeComplete
  repeat' first | with_reducible assumption | with_reducible apply canon_xchgComplete |
                 with_reducible apply canon_taken | with_reducible apply canonO_next | split

theorem canonO_execGroupBarrierComplete (s : State) (hc : Canon s) : CanonO (execGroupBarrierComplete s) := by
  unfold execGroupBarrierComplete
  repeat' first | with_reducible assumption | with_reducible apply canon_gbarComplete |
                 with_reducible apply canon_taken | with_reducible apply canonO_next | split

theorem canonO_execLaunchBarrierComplete (s : State) (hc : Canon s) : CanonO (execLaunchBarrierComplete s) := by
  unfold execLaunchBarrierComplete
  repeat' first | with_reducible assumption | with_reducible apply canon_lbarComplete |
                 with_reducible apply canon_taken | with_reducible apply canonO_next | split

theorem canonO_execLogMergeDone (s : State) (hc : Canon s) : CanonO (execLogMergeDone s) := by
  unfold execLogMergeDone
  repeat' first | with_reducible assumption | with_reducible apply canon_mergeDone | with_reducible apply canon_taken |
                 with_reducible apply canonO_next | split

theorem canonO_execCrozierContribution (s : State) (hc : Canon s) : CanonO (execCrozierContribution s) := by
  unfold execCrozierContribution
  repeat' first | with_reducible assumption | with_reducible apply canon_crzContribution |
                 with_reducible apply canon_taken | with_reducible apply canonO_next | split

theorem canonO_execPromiseExpiry (s : State) (hc : Canon s) : CanonO (execPromiseExpiry s) := by
  unfold execPromiseExpiry
  repeat' first | with_reducible assumption | with_reducible apply canon_copyLate | with_reducible apply canon_taken |
                 with_reducible apply canonO_next | split

theorem canonO_execSyncPeriod (s : State) (hc : Canon s) : CanonO (execSyncPeriod s) := by
  unfold execSyncPeriod
  repeat' first | with_reducible assumption | (with_reducible intro _) | with_reducible apply canon_taken |
                 with_reducible apply canon_traceSync | with_reducible apply canonO_next |
                 with_reducible apply canon_foldl | with_reducible apply canon_ite | split

theorem canonO_execDatagramArrival (s : State) (hc : Canon s) : CanonO (execDatagramArrival s) := by
  unfold execDatagramArrival
  repeat' first | with_reducible assumption | with_reducible apply canon_datagramIn | with_reducible apply canon_taken |
                 with_reducible apply canonO_next | split

theorem canonO_execExportRequest (s : State) (hc : Canon s) : CanonO (execExportRequest s) := by
  unfold execExportRequest
  repeat' first | with_reducible assumption | with_reducible apply canon_exportDo | with_reducible apply canon_taken |
                 with_reducible apply canonO_next | split

theorem canonO_execRevoke (s : State) (hc : Canon s) : CanonO (execRevoke s) := by
  unfold execRevoke
  repeat' first | with_reducible assumption | with_reducible apply canon_revokeNow | with_reducible apply canon_taken |
                 with_reducible apply canonO_next | split

theorem canonO_execRevokeDrainEnd (s : State) (hc : Canon s) : CanonO (execRevokeDrainEnd s) := by
  unfold execRevokeDrainEnd
  repeat' first | with_reducible assumption | with_reducible apply canon_revokeDone | with_reducible apply canon_taken |
                 with_reducible apply canonO_next | split

theorem canonO_execBucketRefill (s : State) (hc : Canon s) : CanonO (execBucketRefill s) := by
  unfold execBucketRefill
  repeat' first | with_reducible assumption | with_reducible apply canon_refillAll | with_reducible apply canon_taken |
                 with_reducible apply canonO_next | split

theorem canonO_execHeadRequestRelease (s : State) (hc : Canon s) : CanonO (execHeadRequestRelease s) := by
  unfold execHeadRequestRelease
  repeat' first | with_reducible assumption | with_reducible apply canon_releaseHead |
                 with_reducible apply canon_taken | with_reducible apply canonO_next | split

theorem canonO_execDebtstallTimer (s : State) (hc : Canon s) : CanonO (execDebtstallTimer s) := by
  unfold execDebtstallTimer
  repeat' first | with_reducible assumption | with_reducible apply canon_debtStall | with_reducible apply canon_taken |
                 with_reducible apply canonO_next | split

theorem canonO_execCheckpointGo (s : State) (hc : Canon s) : CanonO (execCheckpointGo s) := by
  unfold execCheckpointGo
  repeat' first | with_reducible assumption | with_reducible apply canon_writeCkcfg | with_reducible apply canon_taken |
                 with_reducible apply canonO_next | split

theorem canonO_execCheckpointUnitAck (s : State) (hc : Canon s) : CanonO (execCheckpointUnitAck s) := by
  unfold execCheckpointUnitAck
  repeat' first | with_reducible assumption | with_reducible apply canon_ckAck | with_reducible apply canon_taken |
                 with_reducible apply canonO_next | split

theorem canonO_execCheckpointResend (s : State) (hc : Canon s) : CanonO (execCheckpointResend s) := by
  unfold execCheckpointResend
  repeat' first | with_reducible assumption | with_reducible apply canon_ckResend | with_reducible apply canon_taken |
                 with_reducible apply canonO_next | split

theorem canonO_execPstatRead (s : State) (hc : Canon s) : CanonO (execPstatRead s) := by
  unfold execPstatRead
  repeat' first | with_reducible assumption | with_reducible apply canon_clearPstat | with_reducible apply canon_emit |
                 with_reducible apply canon_taken | with_reducible apply canonO_next | with_reducible apply canon_ite |
                 split

theorem canonO_execTrapEntry (s : State) (hc : Canon s) : CanonO (execTrapEntry s) := by
  unfold execTrapEntry
  repeat' first | with_reducible assumption | with_reducible apply canon_after | with_reducible apply canon_taken |
                 with_reducible apply canon_trapNow | with_reducible apply canonO_next |
                 with_reducible apply canon_ite | split

theorem canonO_execInterruptEntry (s : State) (hc : Canon s) : CanonO (execInterruptEntry s) := by
  unfold execInterruptEntry
  repeat' first | with_reducible assumption | with_reducible apply canon_after | with_reducible apply canon_taken |
                 with_reducible apply canon_interruptNow | with_reducible apply canonO_next |
                 with_reducible apply canon_ite | split

theorem canonO_execEnginePageFault (s : State) (hc : Canon s) : CanonO (execEnginePageFault s) := by
  unfold execEnginePageFault
  repeat' first | with_reducible assumption | with_reducible apply canon_after | with_reducible apply canon_taken |
                 with_reducible apply canon_engineNow | with_reducible apply canonO_next |
                 with_reducible apply canon_ite | split

theorem canonO_execDetectionTimerExpiry (s : State) (hc : Canon s) : CanonO (execDetectionTimerExpiry s) := by
  unfold execDetectionTimerExpiry
  repeat' first | with_reducible assumption | with_reducible apply canon_detect | with_reducible apply canon_taken |
                 with_reducible apply canonO_next | split

theorem canonO_execUncorrectableError (s : State) (hc : Canon s) : CanonO (execUncorrectableError s) := by
  unfold execUncorrectableError
  repeat' first | with_reducible assumption | with_reducible apply canon_errorAt | with_reducible apply canon_taken |
                 with_reducible apply canonO_next | split

theorem canonO_execFinjWrite (s : State) (hc : Canon s) : CanonO (execFinjWrite s) := by
  unfold execFinjWrite
  repeat' first | with_reducible assumption | with_reducible apply canon_writeFinj | with_reducible apply canon_taken |
                 with_reducible apply canonO_next | split

theorem canonO_execFinjRead (s : State) (hc : Canon s) : CanonO (execFinjRead s) := by
  unfold execFinjRead
  repeat' first | with_reducible assumption | with_reducible apply canon_clearFinj | with_reducible apply canon_emit |
                 with_reducible apply canon_taken | with_reducible apply canonO_next | split

theorem canonO_execHcdataWrite (s : State) (hc : Canon s) : CanonO (execHcdataWrite s) := by
  unfold execHcdataWrite
  repeat' first | with_reducible assumption | with_reducible apply canon_hubWrite | with_reducible apply canon_taken |
                 with_reducible apply canonO_next | split

theorem canonO_execHubWindowWrite (s : State) (hc : Canon s) : CanonO (execHubWindowWrite s) := by
  unfold execHubWindowWrite
  repeat' first | with_reducible assumption | with_reducible apply canon_hostBarWrite |
                 with_reducible apply canon_taken | with_reducible apply canonO_next | split

theorem canonO_execPtrootWrite (s : State) (hc : Canon s) : CanonO (execPtrootWrite s) := by
  unfold execPtrootWrite
  repeat' first | with_reducible assumption | with_reducible apply canon_putPtroot | with_reducible apply canon_taken |
                 with_reducible apply canonO_next | with_reducible apply canon_ite | split

theorem canonO_execTlbinvWrite (s : State) (hc : Canon s) : CanonO (execTlbinvWrite s) := by
  unfold execTlbinvWrite
  repeat' first | with_reducible assumption | with_reducible apply canon_putTlbinv | with_reducible apply canon_taken |
                 with_reducible apply canonO_next | with_reducible apply canon_ite | split

theorem canonO_execBoostlvlWrite (s : State) (hc : Canon s) : CanonO (execBoostlvlWrite s) := by
  unfold execBoostlvlWrite
  repeat' first | with_reducible assumption | with_reducible apply canon_writeBoost | with_reducible apply canon_taken |
                 with_reducible apply canonO_next | split

theorem canonO_execPpoolWrite (s : State) (hc : Canon s) : CanonO (execPpoolWrite s) := by
  unfold execPpoolWrite
  repeat' first | with_reducible assumption | with_reducible apply canon_hubWrite | with_reducible apply canon_taken |
                 with_reducible apply canonO_next | with_reducible apply canon_ite | split

theorem canonO_execHostCxlMemWrite (s : State) (hc : Canon s) : CanonO (execHostCxlMemWrite s) := by
  unfold execHostCxlMemWrite
  repeat' first | with_reducible assumption | with_reducible apply canon_hostWrite | with_reducible apply canon_taken |
                 with_reducible apply canonO_next | split

theorem canonO_execHostCxlMemRead (s : State) (hc : Canon s) : CanonO (execHostCxlMemRead s) := by
  unfold execHostCxlMemRead
  repeat' first | with_reducible assumption | with_reducible apply canon_hostRead | with_reducible apply canon_taken |
                 with_reducible apply canonO_next | split

theorem canonO_execLaunchWindowWrite (s : State) (hc : Canon s) : CanonO (execLaunchWindowWrite s) := by
  unfold execLaunchWindowWrite
  repeat' first | with_reducible assumption | with_reducible apply canon_windowWrite |
                 with_reducible apply canon_taken | with_reducible apply canonO_next | split

theorem canonO_execHostBarInvalidAccess (s : State) (hc : Canon s) : CanonO (execHostBarInvalidAccess s) := by
  unfold execHostBarInvalidAccess
  repeat' first | with_reducible assumption | with_reducible apply canon_hostInvalid |
                 with_reducible apply canon_taken | with_reducible apply canonO_next | split

theorem canonO_execVfFunctionLevelReset (s : State) (hc : Canon s) : CanonO (execVfFunctionLevelReset s) := by
  unfold execVfFunctionLevelReset
  repeat' first | with_reducible assumption | with_reducible apply canon_flrBegin | with_reducible apply canon_taken |
                 with_reducible apply canonO_next | split

theorem canonO_execVfResetEnd (s : State) (hc : Canon s) : CanonO (execVfResetEnd s) := by
  unfold execVfResetEnd
  repeat' first | with_reducible assumption | with_reducible apply canon_flrEnd | with_reducible apply canon_taken |
                 with_reducible apply canonO_next | split

theorem canonO_execSpartWrite (s : State) (hc : Canon s) : CanonO (execSpartWrite s) := by
  unfold execSpartWrite
  repeat' first | with_reducible assumption | with_reducible apply canon_writeSpart | with_reducible apply canon_taken |
                 with_reducible apply canonO_next | with_reducible apply canon_ite | split

theorem canonO_execPartitionControllerStep (s : State) (hc : Canon s) : CanonO (execPartitionControllerStep s) := by
  unfold execPartitionControllerStep
  repeat' first | with_reducible assumption | with_reducible apply canon_controllerStep |
                 with_reducible apply canon_taken | with_reducible apply canonO_next | split

theorem canonO_execRegulatorSlewEnd (s : State) (hc : Canon s) : CanonO (execRegulatorSlewEnd s) := by
  unfold execRegulatorSlewEnd
  repeat' first | with_reducible assumption | with_reducible apply canon_slewEnd | with_reducible apply canon_taken |
                 with_reducible apply canonO_next | split

theorem canonO_execTratioWindowEnd (s : State) (hc : Canon s) : CanonO (execTratioWindowEnd s) := by
  unfold execTratioWindowEnd
  repeat' first | with_reducible assumption | with_reducible apply canon_taken | with_reducible apply canonO_next |
                 split

theorem canonO_execWaitCExpiry (s : State) (hc : Canon s) : CanonO (execWaitCExpiry s) := by
  unfold execWaitCExpiry
  repeat' first | with_reducible assumption | with_reducible apply canon_wakeHere | with_reducible apply canon_taken |
                 with_reducible apply canonO_next | with_reducible apply canon_ite | split

theorem canonO_execWaitTExpiry (s : State) (hc : Canon s) : CanonO (execWaitTExpiry s) := by
  unfold execWaitTExpiry
  repeat' first | with_reducible assumption | with_reducible apply canon_wakeHere | with_reducible apply canon_taken |
                 with_reducible apply canonO_next | with_reducible apply canon_ite | split

theorem canonO_execBoostRequestSample (s : State) (hc : Canon s) : CanonO (execBoostRequestSample s) := by
  unfold execBoostRequestSample
  repeat' first | with_reducible assumption | with_reducible apply canon_sampleAll | with_reducible apply canon_taken |
                 with_reducible apply canonO_next | split

theorem canonO_execPermitBoundary (s : State) (hc : Canon s) : CanonO (execPermitBoundary s) := by
  unfold execPermitBoundary
  repeat' first | with_reducible assumption | with_reducible apply canon_permitAll | with_reducible apply canon_taken |
                 with_reducible apply canonO_next | split

theorem canonO_execControllerStep (s : State) (hc : Canon s) : CanonO (execControllerStep s) := by
  unfold execControllerStep
  repeat' first | with_reducible assumption | with_reducible apply canon_controlAll | with_reducible apply canon_taken |
                 with_reducible apply canonO_next | split

theorem canonO_execAdmissionRequest (s : State) (hc : Canon s) : CanonO (execAdmissionRequest s) := by
  unfold execAdmissionRequest
  repeat' first | with_reducible assumption | with_reducible apply canon_admitFresh | with_reducible apply canon_taken |
                 with_reducible apply canonO_next | split

theorem canonO_execBallastLimit (s : State) (hc : Canon s) : CanonO (execBallastLimit s) := by
  unfold execBallastLimit
  repeat' first | with_reducible assumption | with_reducible apply canon_taken | with_reducible apply canon_setSorus |
                 with_reducible apply canonO_next | with_reducible apply canon_ite | split

theorem canonO_execExitGroupRelease (s : State) (hc : Canon s) : CanonO (execExitGroupRelease s) := by
  unfold execExitGroupRelease
  repeat' first | with_reducible assumption | with_reducible apply canon_gangRelease |
                 with_reducible apply canon_taken | with_reducible apply canon_lbarRelease |
                 with_reducible apply canonO_next | with_reducible apply canon_ite | split

theorem canonO_execOwnerRequestArrival (s : State) (hc : Canon s) : CanonO (execOwnerRequestArrival s) := by
  unfold execOwnerRequestArrival
  repeat' first | with_reducible assumption | with_reducible apply canon_ownerArrive |
                 with_reducible apply canon_taken | with_reducible apply canonO_next | split

theorem canonO_execReplyArrival (s : State) (hc : Canon s) : CanonO (execReplyArrival s) := by
  unfold execReplyArrival
  repeat' first | with_reducible assumption | with_reducible apply canon_replyCome | with_reducible apply canon_taken |
                 with_reducible apply canonO_next | split

theorem canonO_execResultCacheRetirement (s : State) (hc : Canon s) : CanonO (execResultCacheRetirement s) := by
  unfold execResultCacheRetirement
  repeat' first | with_reducible assumption | with_reducible apply canon_retireCache |
                 with_reducible apply canon_taken | with_reducible apply canonO_next | split

theorem canonO_execRetransmission (s : State) (hc : Canon s) : CanonO (execRetransmission s) := by
  unfold execRetransmission
  repeat' first | with_reducible assumption | with_reducible apply canon_resend | with_reducible apply canon_taken |
                 with_reducible apply canonO_next | split

theorem canonO_execRequestLastDeadline (s : State) (hc : Canon s) : CanonO (execRequestLastDeadline s) := by
  unfold execRequestLastDeadline
  repeat' first | with_reducible assumption | with_reducible apply canon_lastDeadline |
                 with_reducible apply canon_taken | with_reducible apply canonO_next | split

theorem canonO_execSerialWrapRelease (s : State) (hc : Canon s) : CanonO (execSerialWrapRelease s) := by
  unfold execSerialWrapRelease
  repeat' first | with_reducible assumption | with_reducible apply canon_wrapRelease |
                 with_reducible apply canon_taken | with_reducible apply canonO_next | split

theorem canonO_execMessageArrival (s : State) (hc : Canon s) : CanonO (execMessageArrival s) := by
  unfold execMessageArrival
  repeat' first | with_reducible assumption | with_reducible apply canon_arriveMsg | with_reducible apply canon_taken |
                 with_reducible apply canonO_next | split

theorem canonO_execMessageSendRelease (s : State) (hc : Canon s) : CanonO (execMessageSendRelease s) := by
  unfold execMessageSendRelease
  repeat' first | with_reducible assumption | with_reducible apply canon_releaseMsg | with_reducible apply canon_taken |
                 with_reducible apply canonO_next | split

theorem canonO_execPostGo (s : State) (hc : Canon s) : CanonO (execPostGo s) := by
  unfold execPostGo
  repeat' first | with_reducible assumption | with_reducible apply canon_hubWrite | with_reducible apply canon_taken |
                 with_reducible apply canonO_next | with_reducible apply canon_ite | split

theorem canonO_execHteHubWrite (s : State) (hc : Canon s) : CanonO (execHteHubWrite s) := by
  unfold execHteHubWrite
  repeat' first | with_reducible assumption | with_reducible apply canon_hubWrite | with_reducible apply canon_taken |
                 with_reducible apply canonO_next | with_reducible apply canon_ite | split

theorem canonO_execScanDrainEnd (s : State) (hc : Canon s) : CanonO (execScanDrainEnd s) := by
  unfold execScanDrainEnd
  repeat' first | with_reducible assumption | with_reducible apply canon_drainEnd | with_reducible apply canon_taken |
                 with_reducible apply canonO_next | split

theorem canonO_execScanDrainTimeout (s : State) (hc : Canon s) : CanonO (execScanDrainTimeout s) := by
  unfold execScanDrainTimeout
  repeat' first | with_reducible assumption | with_reducible apply canon_scanFinish | with_reducible apply canon_taken |
                 with_reducible apply canonO_next | with_reducible apply canon_ite | split

theorem canonO_execScanPatternEnd (s : State) (hc : Canon s) : CanonO (execScanPatternEnd s) := by
  unfold execScanPatternEnd
  repeat' first | with_reducible assumption | with_reducible apply canon_patternEnd | with_reducible apply canon_taken |
                 with_reducible apply canonO_next | split

theorem canonO_execReturnToService (s : State) (hc : Canon s) : CanonO (execReturnToService s) := by
  unfold execReturnToService
  repeat' first | with_reducible assumption | with_reducible apply canon_serve |
                 with_reducible apply canon_coreEndPhase | with_reducible apply canon_taken |
                 with_reducible apply canonO_next | with_reducible apply canon_ite | split

theorem canonO_execLcmapAbsentSet (s : State) (hc : Canon s) : CanonO (execLcmapAbsentSet s) := by
  unfold execLcmapAbsentSet
  repeat' first | with_reducible assumption | with_reducible apply canon_mapRemove | with_reducible apply canon_taken |
                 with_reducible apply canonO_next | split

theorem canonO_execLcmapAbsentClear (s : State) (hc : Canon s) : CanonO (execLcmapAbsentClear s) := by
  unfold execLcmapAbsentClear
  repeat' first | with_reducible assumption | with_reducible apply canon_mapAdd | with_reducible apply canon_taken |
                 with_reducible apply canonO_next | split

theorem canonPre_preExec (s : State) (i : Instr) (hc : Canon s) : CanonPre (State.preExec s i) := by
  unfold State.preExec
  repeat' first | with_reducible assumption | with_reducible apply canon_boundBefore |
                 with_reducible apply canon_giveUp | with_reducible apply canon_stallFor |
                 with_reducible apply canonPre_done | with_reducible apply canonPre_go |
                 with_reducible apply canonPre_ite

theorem canonPre_preFetch (s : State) (hc : Canon s) : CanonPre (State.preFetch s) := by
  unfold State.preFetch
  repeat' first | with_reducible assumption | with_reducible apply canon_raiseAt | with_reducible apply canon_raise |
                 with_reducible apply canonPre_preExec | with_reducible apply canonPre_done | split

theorem canonPre_preLimit (s : State) (f : Firing) (hc : Canon s) : CanonPre (State.preLimit s f) := by
  unfold State.preLimit
  repeat' first | with_reducible assumption | with_reducible apply canon_raiseAt |
                 with_reducible apply canonPre_preFetch | with_reducible apply canonPre_done |
                 with_reducible apply canonPre_ite

theorem canonPre_preDrain (s : State) (f : Firing) (hc : Canon s) : CanonPre (State.preDrain s f) := by
  unfold State.preDrain
  repeat' first | with_reducible assumption | with_reducible apply canon_refuseDrain |
                 with_reducible apply canon_giveUp | with_reducible apply canon_poke |
                 with_reducible apply canonPre_preLimit | with_reducible apply canonPre_done |
                 with_reducible apply canonPre_ite | split

theorem canonPre_preTake (s : State) (f : Firing) (hc : Canon s) : CanonPre (State.preTake s f) := by
  unfold State.preTake
  repeat' first | with_reducible assumption | with_reducible apply canon_giveUp | with_reducible apply canon_poke |
                 with_reducible apply canonPre_preDrain | with_reducible apply canonPre_done |
                 with_reducible apply canonPre_ite

theorem canonPre_preIssue (s : State) (hc : Canon s) : CanonPre (State.preIssue s) := by
  unfold State.preIssue
  repeat' first | with_reducible assumption | with_reducible apply canon_giveUp | with_reducible apply canon_kill |
                 with_reducible apply canon_spend | with_reducible apply canon_setHart |
                 with_reducible apply canon_ownerRun | with_reducible apply canon_fenceEnd |
                 with_reducible apply canonPre_preTake | with_reducible apply canonPre_done |
                 with_reducible apply canonPre_ite | split | (simp only [canon_mk_iff, wf_mem_iff])

theorem canonO_loadTo (s : State) (rd : Reg) (rs : Reg) (imm : BitVec 12) (w : Nat) (ext : Nat → Word) (hc : Canon s) :
    CanonO (State.loadTo s rd rs imm w ext) := by
  unfold State.loadTo
  repeat' first | with_reducible assumption | (with_reducible intro _) | with_reducible apply canonE_load1 |
                 with_reducible apply canon_step4 | with_reducible apply canon_setX |
                 with_reducible apply canonO_finish | with_reducible apply canonE_ok | with_reducible apply canonE_bind

theorem canonO_storeFrom (s : State) (rt : Reg) (rs : Reg) (imm : BitVec 12) (w : Nat) (hc : Canon s) : CanonO
    (State.storeFrom s rt rs imm w) := by
  unfold State.storeFrom
  repeat' first | with_reducible assumption | (with_reducible intro _) | with_reducible apply canonE_stores |
                 with_reducible apply canon_step4 | with_reducible apply canonO_finish |
                 with_reducible apply canonE_ok | with_reducible apply canonE_bind

theorem canonO_execLb (rd : Reg) (rs : Reg) (imm : BitVec 12) (s : State) (hc : Canon s) : CanonO (execLb rd rs imm s) := by
  unfold execLb
  repeat' first | with_reducible assumption | with_reducible apply canonO_loadTo

theorem canonO_execLh (rd : Reg) (rs : Reg) (imm : BitVec 12) (s : State) (hc : Canon s) : CanonO (execLh rd rs imm s) := by
  unfold execLh
  repeat' first | with_reducible assumption | with_reducible apply canonO_loadTo

theorem canonO_execLw (rd : Reg) (rs : Reg) (imm : BitVec 12) (s : State) (hc : Canon s) : CanonO (execLw rd rs imm s) := by
  unfold execLw
  repeat' first | with_reducible assumption | with_reducible apply canonO_loadTo

theorem canonO_execLd (rd : Reg) (rs : Reg) (imm : BitVec 12) (s : State) (hc : Canon s) : CanonO (execLd rd rs imm s) := by
  unfold execLd
  repeat' first | with_reducible assumption | with_reducible apply canonO_loadTo

theorem canonO_execLbu (rd : Reg) (rs : Reg) (imm : BitVec 12) (s : State) (hc : Canon s) : CanonO (execLbu rd rs imm s) := by
  unfold execLbu
  repeat' first | with_reducible assumption | with_reducible apply canonO_loadTo

theorem canonO_execLhu (rd : Reg) (rs : Reg) (imm : BitVec 12) (s : State) (hc : Canon s) : CanonO (execLhu rd rs imm s) := by
  unfold execLhu
  repeat' first | with_reducible assumption | with_reducible apply canonO_loadTo

theorem canonO_execLwu (rd : Reg) (rs : Reg) (imm : BitVec 12) (s : State) (hc : Canon s) : CanonO (execLwu rd rs imm s) := by
  unfold execLwu
  repeat' first | with_reducible assumption | with_reducible apply canonO_loadTo

theorem canonO_execSb (rt : Reg) (rs : Reg) (imm : BitVec 12) (s : State) (hc : Canon s) : CanonO (execSb rt rs imm s) := by
  unfold execSb
  repeat' first | with_reducible assumption | with_reducible apply canonO_storeFrom

theorem canonO_execSh (rt : Reg) (rs : Reg) (imm : BitVec 12) (s : State) (hc : Canon s) : CanonO (execSh rt rs imm s) := by
  unfold execSh
  repeat' first | with_reducible assumption | with_reducible apply canonO_storeFrom

theorem canonO_execSw (rt : Reg) (rs : Reg) (imm : BitVec 12) (s : State) (hc : Canon s) : CanonO (execSw rt rs imm s) := by
  unfold execSw
  repeat' first | with_reducible assumption | with_reducible apply canonO_storeFrom

theorem canonO_execSd (rt : Reg) (rs : Reg) (imm : BitVec 12) (s : State) (hc : Canon s) : CanonO (execSd rt rs imm s) := by
  unfold execSd
  repeat' first | with_reducible assumption | with_reducible apply canonO_storeFrom

theorem canonO_execSend (c : Bool) (ch : BitVec 4) (xt : Reg) (xw0 : Reg) (xw1 : Reg) (s : State) (hc : Canon s) : CanonO
    (execSend c ch xt xw0 xw1 s) := by
  unfold execSend
  repeat' first | with_reducible assumption | (with_reducible intro _) | with_reducible apply canonE_require |
                 with_reducible apply canon_sendMessage | with_reducible apply canonO_finish |
                 with_reducible apply canonE_ok | with_reducible apply canonE_bind

theorem canonO_execSendv (c : Bool) (ch : BitVec 4) (xt : Reg) (xn : Reg) (vb : Reg) (s : State) (hc : Canon s) : CanonO
    (execSendv c ch xt xn vb s) := by
  unfold execSendv
  repeat' first | with_reducible assumption | (with_reducible intro _) | with_reducible apply canonE_require |
                 with_reducible apply canon_sendMessage | with_reducible apply canonO_finish |
                 with_reducible apply canonE_ok | with_reducible apply canonE_bind

theorem canonO_execReply (xw0 : Reg) (xw1 : Reg) (s : State) (hc : Canon s) : CanonO (execReply xw0 xw1 s) := by
  unfold execReply
  repeat' first | with_reducible assumption | (with_reducible intro _) | with_reducible apply canonE_require |
                 with_reducible apply canon_note | with_reducible apply canon_hold | with_reducible apply canon_step4 |
                 with_reducible apply canonO_finish | with_reducible apply canonE_ok | with_reducible apply canonE_bind

theorem canonO_execMsgrd (xd : Reg) (s : State) (hc : Canon s) : CanonO (execMsgrd xd s) := by
  unfold execMsgrd
  repeat' first | with_reducible assumption | with_reducible apply canon_setX | with_reducible apply canon_step4 |
                 with_reducible apply canon_setHart | with_reducible apply canonO_putX |
                 with_reducible apply canonO_next | split | (simp only [canon_mk_iff, wf_mem_iff])

theorem canonO_execMsgsrc (xd : Reg) (s : State) (hc : Canon s) : CanonO (execMsgsrc xd s) := by
  unfold execMsgsrc
  repeat' first | with_reducible assumption | with_reducible apply canonO_putX

theorem canonO_execChon (ch : BitVec 4) (s : State) (hc : Canon s) : CanonO (execChon ch s) := by
  unfold execChon
  repeat' first | with_reducible assumption | with_reducible apply canon_stepSync | with_reducible apply canon_hold |
                 with_reducible apply canonO_next

theorem canonO_execChoff (ch : BitVec 4) (s : State) (hc : Canon s) : CanonO (execChoff ch s) := by
  unfold execChoff
  repeat' first | with_reducible assumption | with_reducible apply canon_stepSync | with_reducible apply canon_hold |
                 with_reducible apply canonO_next

theorem canonO_execAddi (rd : Reg) (rs : Reg) (imm : BitVec 12) (s : State) (hc : Canon s) : CanonO (execAddi rd rs imm s) := by
  unfold execAddi
  repeat' first | with_reducible assumption | with_reducible apply canonO_putX

theorem canonO_execSlti (rd : Reg) (rs : Reg) (imm : BitVec 12) (s : State) (hc : Canon s) : CanonO (execSlti rd rs imm s) := by
  unfold execSlti
  repeat' first | with_reducible assumption | with_reducible apply canonO_putX

theorem canonO_execSltiu (rd : Reg) (rs : Reg) (imm : BitVec 12) (s : State) (hc : Canon s) : CanonO (execSltiu rd rs imm s) := by
  unfold execSltiu
  repeat' first | with_reducible assumption | with_reducible apply canonO_putX

theorem canonO_execXori (rd : Reg) (rs : Reg) (imm : BitVec 12) (s : State) (hc : Canon s) : CanonO (execXori rd rs imm s) := by
  unfold execXori
  repeat' first | with_reducible assumption | with_reducible apply canonO_putX

theorem canonO_execOri (rd : Reg) (rs : Reg) (imm : BitVec 12) (s : State) (hc : Canon s) : CanonO (execOri rd rs imm s) := by
  unfold execOri
  repeat' first | with_reducible assumption | with_reducible apply canonO_putX

theorem canonO_execAndi (rd : Reg) (rs : Reg) (imm : BitVec 12) (s : State) (hc : Canon s) : CanonO (execAndi rd rs imm s) := by
  unfold execAndi
  repeat' first | with_reducible assumption | with_reducible apply canonO_putX

theorem canonO_execAddiw (rd : Reg) (rs : Reg) (imm : BitVec 12) (s : State) (hc : Canon s) : CanonO (execAddiw rd rs imm s) := by
  unfold execAddiw
  repeat' first | with_reducible assumption | with_reducible apply canonO_putX

theorem canonO_execSlli (rd : Reg) (rs : Reg) (sh : BitVec 6) (s : State) (hc : Canon s) : CanonO (execSlli rd rs sh s) := by
  unfold execSlli
  repeat' first | with_reducible assumption | with_reducible apply canonO_putX

theorem canonO_execSrli (rd : Reg) (rs : Reg) (sh : BitVec 6) (s : State) (hc : Canon s) : CanonO (execSrli rd rs sh s) := by
  unfold execSrli
  repeat' first | with_reducible assumption | with_reducible apply canonO_putX

theorem canonO_execSrai (rd : Reg) (rs : Reg) (sh : BitVec 6) (s : State) (hc : Canon s) : CanonO (execSrai rd rs sh s) := by
  unfold execSrai
  repeat' first | with_reducible assumption | with_reducible apply canonO_putX

theorem canonO_execSlliw (rd : Reg) (rs : Reg) (sh : BitVec 5) (s : State) (hc : Canon s) : CanonO (execSlliw rd rs sh s) := by
  unfold execSlliw
  repeat' first | with_reducible assumption | with_reducible apply canonO_putX

theorem canonO_execSrliw (rd : Reg) (rs : Reg) (sh : BitVec 5) (s : State) (hc : Canon s) : CanonO (execSrliw rd rs sh s) := by
  unfold execSrliw
  repeat' first | with_reducible assumption | with_reducible apply canonO_putX

theorem canonO_execSraiw (rd : Reg) (rs : Reg) (sh : BitVec 5) (s : State) (hc : Canon s) : CanonO (execSraiw rd rs sh s) := by
  unfold execSraiw
  repeat' first | with_reducible assumption | with_reducible apply canonO_putX

theorem canonO_execAdd (rd : Reg) (rs : Reg) (rt : Reg) (s : State) (hc : Canon s) : CanonO (execAdd rd rs rt s) := by
  unfold execAdd
  repeat' first | with_reducible assumption | with_reducible apply canonO_putX

theorem canonO_execSub (rd : Reg) (rs : Reg) (rt : Reg) (s : State) (hc : Canon s) : CanonO (execSub rd rs rt s) := by
  unfold execSub
  repeat' first | with_reducible assumption | with_reducible apply canonO_putX

theorem canonO_execSll (rd : Reg) (rs : Reg) (rt : Reg) (s : State) (hc : Canon s) : CanonO (execSll rd rs rt s) := by
  unfold execSll
  repeat' first | with_reducible assumption | with_reducible apply canonO_putX

theorem canonO_execSrl (rd : Reg) (rs : Reg) (rt : Reg) (s : State) (hc : Canon s) : CanonO (execSrl rd rs rt s) := by
  unfold execSrl
  repeat' first | with_reducible assumption | with_reducible apply canonO_putX

theorem canonO_execSra (rd : Reg) (rs : Reg) (rt : Reg) (s : State) (hc : Canon s) : CanonO (execSra rd rs rt s) := by
  unfold execSra
  repeat' first | with_reducible assumption | with_reducible apply canonO_putX

theorem canonO_execSlt (rd : Reg) (rs : Reg) (rt : Reg) (s : State) (hc : Canon s) : CanonO (execSlt rd rs rt s) := by
  unfold execSlt
  repeat' first | with_reducible assumption | with_reducible apply canonO_putX

theorem canonO_execSltu (rd : Reg) (rs : Reg) (rt : Reg) (s : State) (hc : Canon s) : CanonO (execSltu rd rs rt s) := by
  unfold execSltu
  repeat' first | with_reducible assumption | with_reducible apply canonO_putX

theorem canonO_execXor (rd : Reg) (rs : Reg) (rt : Reg) (s : State) (hc : Canon s) : CanonO (execXor rd rs rt s) := by
  unfold execXor
  repeat' first | with_reducible assumption | with_reducible apply canonO_putX

theorem canonO_execOr (rd : Reg) (rs : Reg) (rt : Reg) (s : State) (hc : Canon s) : CanonO (execOr rd rs rt s) := by
  unfold execOr
  repeat' first | with_reducible assumption | with_reducible apply canonO_putX

theorem canonO_execAnd (rd : Reg) (rs : Reg) (rt : Reg) (s : State) (hc : Canon s) : CanonO (execAnd rd rs rt s) := by
  unfold execAnd
  repeat' first | with_reducible assumption | with_reducible apply canonO_putX

theorem canonO_execMul (rd : Reg) (rs : Reg) (rt : Reg) (s : State) (hc : Canon s) : CanonO (execMul rd rs rt s) := by
  unfold execMul
  repeat' first | with_reducible assumption | with_reducible apply canonO_putX

theorem canonO_execMulh (rd : Reg) (rs : Reg) (rt : Reg) (s : State) (hc : Canon s) : CanonO (execMulh rd rs rt s) := by
  unfold execMulh
  repeat' first | with_reducible assumption | with_reducible apply canonO_putX

theorem canonO_execMulhsu (rd : Reg) (rs : Reg) (rt : Reg) (s : State) (hc : Canon s) : CanonO (execMulhsu rd rs rt s) := by
  unfold execMulhsu
  repeat' first | with_reducible assumption | with_reducible apply canonO_putX

theorem canonO_execMulhu (rd : Reg) (rs : Reg) (rt : Reg) (s : State) (hc : Canon s) : CanonO (execMulhu rd rs rt s) := by
  unfold execMulhu
  repeat' first | with_reducible assumption | with_reducible apply canonO_putX

theorem canonO_execDiv (rd : Reg) (rs : Reg) (rt : Reg) (s : State) (hc : Canon s) : CanonO (execDiv rd rs rt s) := by
  unfold execDiv
  repeat' first | with_reducible assumption | with_reducible apply canonO_putX

theorem canonO_execDivu (rd : Reg) (rs : Reg) (rt : Reg) (s : State) (hc : Canon s) : CanonO (execDivu rd rs rt s) := by
  unfold execDivu
  repeat' first | with_reducible assumption | with_reducible apply canonO_putX

theorem canonO_execRem (rd : Reg) (rs : Reg) (rt : Reg) (s : State) (hc : Canon s) : CanonO (execRem rd rs rt s) := by
  unfold execRem
  repeat' first | with_reducible assumption | with_reducible apply canonO_putX

theorem canonO_execRemu (rd : Reg) (rs : Reg) (rt : Reg) (s : State) (hc : Canon s) : CanonO (execRemu rd rs rt s) := by
  unfold execRemu
  repeat' first | with_reducible assumption | with_reducible apply canonO_putX

theorem canonO_execAddw (rd : Reg) (rs : Reg) (rt : Reg) (s : State) (hc : Canon s) : CanonO (execAddw rd rs rt s) := by
  unfold execAddw
  repeat' first | with_reducible assumption | with_reducible apply canonO_putX

theorem canonO_execSubw (rd : Reg) (rs : Reg) (rt : Reg) (s : State) (hc : Canon s) : CanonO (execSubw rd rs rt s) := by
  unfold execSubw
  repeat' first | with_reducible assumption | with_reducible apply canonO_putX

theorem canonO_execSllw (rd : Reg) (rs : Reg) (rt : Reg) (s : State) (hc : Canon s) : CanonO (execSllw rd rs rt s) := by
  unfold execSllw
  repeat' first | with_reducible assumption | with_reducible apply canonO_putX

theorem canonO_execSrlw (rd : Reg) (rs : Reg) (rt : Reg) (s : State) (hc : Canon s) : CanonO (execSrlw rd rs rt s) := by
  unfold execSrlw
  repeat' first | with_reducible assumption | with_reducible apply canonO_putX

theorem canonO_execSraw (rd : Reg) (rs : Reg) (rt : Reg) (s : State) (hc : Canon s) : CanonO (execSraw rd rs rt s) := by
  unfold execSraw
  repeat' first | with_reducible assumption | with_reducible apply canonO_putX

theorem canonO_execMulw (rd : Reg) (rs : Reg) (rt : Reg) (s : State) (hc : Canon s) : CanonO (execMulw rd rs rt s) := by
  unfold execMulw
  repeat' first | with_reducible assumption | with_reducible apply canonO_putX

theorem canonO_execDivw (rd : Reg) (rs : Reg) (rt : Reg) (s : State) (hc : Canon s) : CanonO (execDivw rd rs rt s) := by
  unfold execDivw
  repeat' first | with_reducible assumption | with_reducible apply canonO_putX

theorem canonO_execDivuw (rd : Reg) (rs : Reg) (rt : Reg) (s : State) (hc : Canon s) : CanonO (execDivuw rd rs rt s) := by
  unfold execDivuw
  repeat' first | with_reducible assumption | with_reducible apply canonO_putX

theorem canonO_execRemw (rd : Reg) (rs : Reg) (rt : Reg) (s : State) (hc : Canon s) : CanonO (execRemw rd rs rt s) := by
  unfold execRemw
  repeat' first | with_reducible assumption | with_reducible apply canonO_putX

theorem canonO_execRemuw (rd : Reg) (rs : Reg) (rt : Reg) (s : State) (hc : Canon s) : CanonO (execRemuw rd rs rt s) := by
  unfold execRemuw
  repeat' first | with_reducible assumption | with_reducible apply canonO_putX

theorem canonO_execLui (rd : Reg) (imm : BitVec 20) (s : State) (hc : Canon s) : CanonO (execLui rd imm s) := by
  unfold execLui
  repeat' first | with_reducible assumption | with_reducible apply canonO_putX

theorem canonO_execAuipc (rd : Reg) (imm : BitVec 20) (s : State) (hc : Canon s) : CanonO (execAuipc rd imm s) := by
  unfold execAuipc
  repeat' first | with_reducible assumption | with_reducible apply canonO_putX

theorem canonO_jump (s : State) (t : State) (target : Word) (ht : Canon t) (hc : Canon s) : CanonO (State.jump s t target) := by
  unfold State.jump
  exact canonO_ite (canonO_next (canon_retire _ _ ht)) (canonO_next (canon_raise _ _ _ hc))

theorem canonO_branch (s : State) (taken : Bool) (imm : BitVec 12) (hc : Canon s) : CanonO (State.branch s taken imm) := by
  unfold State.branch
  repeat' first | with_reducible assumption | with_reducible apply canonO_jump | with_reducible apply canon_step4 |
                 with_reducible apply canonO_next | with_reducible apply canonO_ite

theorem canonO_execBeq (rs : Reg) (rt : Reg) (imm : BitVec 12) (s : State) (hc : Canon s) : CanonO (execBeq rs rt imm s) := by
  unfold execBeq
  repeat' first | with_reducible assumption | with_reducible apply canonO_branch

theorem canonO_execBne (rs : Reg) (rt : Reg) (imm : BitVec 12) (s : State) (hc : Canon s) : CanonO (execBne rs rt imm s) := by
  unfold execBne
  repeat' first | with_reducible assumption | with_reducible apply canonO_branch

theorem canonO_execBlt (rs : Reg) (rt : Reg) (imm : BitVec 12) (s : State) (hc : Canon s) : CanonO (execBlt rs rt imm s) := by
  unfold execBlt
  repeat' first | with_reducible assumption | with_reducible apply canonO_branch

theorem canonO_execBge (rs : Reg) (rt : Reg) (imm : BitVec 12) (s : State) (hc : Canon s) : CanonO (execBge rs rt imm s) := by
  unfold execBge
  repeat' first | with_reducible assumption | with_reducible apply canonO_branch

theorem canonO_execBltu (rs : Reg) (rt : Reg) (imm : BitVec 12) (s : State) (hc : Canon s) : CanonO (execBltu rs rt imm s) := by
  unfold execBltu
  repeat' first | with_reducible assumption | with_reducible apply canonO_branch

theorem canonO_execBgeu (rs : Reg) (rt : Reg) (imm : BitVec 12) (s : State) (hc : Canon s) : CanonO (execBgeu rs rt imm s) := by
  unfold execBgeu
  repeat' first | with_reducible assumption | with_reducible apply canonO_branch

theorem canonO_execJal (rd : Reg) (imm : BitVec 20) (s : State) (hc : Canon s) : CanonO (execJal rd imm s) := by
  unfold execJal
  repeat' first | with_reducible assumption | with_reducible apply canonO_jump | with_reducible apply canon_setX

theorem canonO_execJalr (rd : Reg) (rs : Reg) (imm : BitVec 12) (s : State) (hc : Canon s) : CanonO (execJalr rd rs imm s) := by
  unfold execJalr
  repeat' first | with_reducible assumption | with_reducible apply canonO_jump | with_reducible apply canon_setX

theorem canonO_execFence (_fm : BitVec 4) (_pred : BitVec 4) (_succ : BitVec 4) (_rs : Reg) (_rd : Reg) (s : State) (hc :
    Canon s) : CanonO (execFence _fm _pred _succ _rs _rd s) := by
  unfold execFence
  repeat' first | with_reducible assumption | with_reducible apply canon_stepEnd | with_reducible apply canonO_next

theorem canonO_execEcall (s : State) (hc : Canon s) : CanonO (execEcall s) := by
  unfold execEcall
  repeat' first | with_reducible assumption | with_reducible apply canon_raise | with_reducible apply canonO_next

theorem canonO_execEbreak (s : State) (hc : Canon s) : CanonO (execEbreak s) := by
  unfold execEbreak
  repeat' first | with_reducible assumption | with_reducible apply canon_poke | with_reducible apply canon_spend |
                 with_reducible apply canon_raise | with_reducible apply canonO_next | with_reducible apply canonO_ite

theorem canonO_execLogmrg (xd : Reg) (xa : Reg) (s : State) (hc : Canon s) : CanonO (execLogmrg xd xa s) := by
  unfold execLogmrg
  repeat' first | with_reducible assumption | (with_reducible intro _) | with_reducible apply canonE_descriptor |
                 with_reducible apply canonE_require | with_reducible apply canon_ask |
                 with_reducible apply canon_step4 | with_reducible apply canon_hold |
                 with_reducible apply canonO_finish | with_reducible apply canonE_ok | with_reducible apply canonE_bind

theorem canonO_execTktget (xd : Reg) (xa : Reg) (s : State) (hc : Canon s) : CanonO (execTktget xd xa s) := by
  unfold execTktget
  repeat' first | with_reducible assumption | (with_reducible intro _) | with_reducible apply canonE_require |
                 with_reducible apply canon_ask | with_reducible apply canon_step4 | with_reducible apply canon_hold |
                 with_reducible apply canonO_finish | with_reducible apply canonE_ok | with_reducible apply canonE_bind

theorem canonO_execTktwait (xa : Reg) (xv : Reg) (s : State) (hc : Canon s) : CanonO (execTktwait xa xv s) := by
  unfold execTktwait
  repeat' first | with_reducible assumption | (with_reducible intro _) | with_reducible apply canonE_notRtc |
                 with_reducible apply canonE_require | with_reducible apply canon_beginWait |
                 with_reducible apply canonO_finish | with_reducible apply canonE_ok | with_reducible apply canonE_bind

theorem canonO_execTktadv (xa : Reg) (s : State) (hc : Canon s) : CanonO (execTktadv xa s) := by
  unfold execTktadv
  repeat' first | with_reducible assumption | (with_reducible intro _) | with_reducible apply canonE_require |
                 with_reducible apply canon_step4 | with_reducible apply canon_hold |
                 with_reducible apply canonO_finish | with_reducible apply canonE_ok | with_reducible apply canonE_bind

theorem canonO_execBararr (xa : Reg) (xv : Reg) (s : State) (hc : Canon s) : CanonO (execBararr xa xv s) := by
  unfold execBararr
  repeat' first | with_reducible assumption | (with_reducible intro _) | with_reducible apply canonE_require |
                 with_reducible apply canon_newId | with_reducible apply canon_step4 | with_reducible apply canon_note |
                 with_reducible apply canon_hold | with_reducible apply canonO_finish | with_reducible apply canonE_ok |
                 with_reducible apply canonE_bind

theorem canonO_execBarwait (xd : Reg) (xa : Reg) (s : State) (hc : Canon s) : CanonO (execBarwait xd xa s) := by
  unfold execBarwait
  repeat' first | with_reducible assumption | (with_reducible intro _) | with_reducible apply canonE_notRtc |
                 with_reducible apply canonE_require | with_reducible apply canon_ask |
                 with_reducible apply canon_beginWait | with_reducible apply canonO_finish |
                 with_reducible apply canonE_ok | with_reducible apply canonE_bind

theorem canonO_execGbar (xd : Reg) (s : State) (hc : Canon s) : CanonO (execGbar xd s) := by
  unfold execGbar
  repeat' first | with_reducible assumption | (with_reducible intro _) | with_reducible apply canonE_notRtc |
                 with_reducible apply canon_ask | with_reducible apply canon_beginWait |
                 with_reducible apply canon_note | with_reducible apply canon_hold |
                 with_reducible apply canonO_finish | with_reducible apply canonE_ok | with_reducible apply canonE_bind

theorem canonO_execLbar (xd : Reg) (xa : Reg) (s : State) (hc : Canon s) : CanonO (execLbar xd xa s) := by
  unfold execLbar
  repeat' first | with_reducible assumption | (with_reducible intro _) | with_reducible apply canonE_notRtc |
                 with_reducible apply canonE_require | with_reducible apply canon_ask |
                 with_reducible apply canon_beginWait | with_reducible apply canon_note |
                 with_reducible apply canon_hold | with_reducible apply canonO_finish | with_reducible apply canonE_ok |
                 with_reducible apply canonE_bind

theorem canonO_execChunkend (s : State) (hc : Canon s) : CanonO (execChunkend s) := by
  unfold execChunkend
  repeat' first | with_reducible assumption | with_reducible apply canon_stepEnd | with_reducible apply canonO_next

theorem canonO_execOtdecl (xd : Reg) (xa : Reg) (xv : Reg) (s : State) (hc : Canon s) : CanonO (execOtdecl xd xa xv s) := by
  unfold execOtdecl
  repeat' first | with_reducible assumption | (with_reducible intro _) | with_reducible apply canonE_require |
                 with_reducible apply canon_step4 | with_reducible apply canon_setX | with_reducible apply canon_hold |
                 with_reducible apply canon_setHart | with_reducible apply canonO_finish |
                 with_reducible apply canonE_ok | with_reducible apply canonE_ite | with_reducible apply canonE_bind

theorem canonO_execLaunch (xd : Reg) (xa : Reg) (s : State) (hc : Canon s) : CanonO (execLaunch xd xa s) := by
  unfold execLaunch
  repeat' first | with_reducible assumption | (with_reducible intro _) | with_reducible apply canonE_notRtc |
                 with_reducible apply canonE_descriptor | with_reducible apply canon_ask |
                 with_reducible apply canon_stepEnd | with_reducible apply canon_hold |
                 with_reducible apply canonO_finish | with_reducible apply canonE_ok | with_reducible apply canonE_bind

theorem canonO_execFenceX (a : BitVec 5) (b : BitVec 5) (s : State) (hc : Canon s) : CanonO (execFenceX a b s) := by
  unfold execFenceX
  repeat' first | with_reducible assumption | with_reducible apply canon_stepSync | with_reducible apply canon_hold |
                 with_reducible apply canonO_next

theorem canonO_execHalt (s : State) (hc : Canon s) : CanonO (execHalt s) := by
  unfold execHalt
  repeat' first | with_reducible assumption | with_reducible apply canon_haltWith | with_reducible apply canonO_next

theorem canonO_execHaltR (xm : Reg) (xn : Reg) (s : State) (hc : Canon s) : CanonO (execHaltR xm xn s) := by
  unfold execHaltR
  repeat' first | with_reducible assumption | with_reducible apply canon_haltWith | with_reducible apply canonO_next

/-- What an instruction or a happening does keeps the form. -/
theorem canonO_exec (i : Instr) (s : State) (hc : Canon s) : CanonO (exec i s) :=
  match i with
  | .lb rd rs imm => canonO_execLb rd rs imm s hc
  | .lh rd rs imm => canonO_execLh rd rs imm s hc
  | .lw rd rs imm => canonO_execLw rd rs imm s hc
  | .ld rd rs imm => canonO_execLd rd rs imm s hc
  | .lbu rd rs imm => canonO_execLbu rd rs imm s hc
  | .lhu rd rs imm => canonO_execLhu rd rs imm s hc
  | .lwu rd rs imm => canonO_execLwu rd rs imm s hc
  | .sb rt rs imm => canonO_execSb rt rs imm s hc
  | .sh rt rs imm => canonO_execSh rt rs imm s hc
  | .sw rt rs imm => canonO_execSw rt rs imm s hc
  | .sd rt rs imm => canonO_execSd rt rs imm s hc
  | .beq rs rt imm => canonO_execBeq rs rt imm s hc
  | .bne rs rt imm => canonO_execBne rs rt imm s hc
  | .blt rs rt imm => canonO_execBlt rs rt imm s hc
  | .bge rs rt imm => canonO_execBge rs rt imm s hc
  | .bltu rs rt imm => canonO_execBltu rs rt imm s hc
  | .bgeu rs rt imm => canonO_execBgeu rs rt imm s hc
  | .jalr rd rs imm => canonO_execJalr rd rs imm s hc
  | .jal rd imm => canonO_execJal rd imm s hc
  | .lui rd imm => canonO_execLui rd imm s hc
  | .auipc rd imm => canonO_execAuipc rd imm s hc
  | .addi rd rs imm => canonO_execAddi rd rs imm s hc
  | .slti rd rs imm => canonO_execSlti rd rs imm s hc
  | .sltiu rd rs imm => canonO_execSltiu rd rs imm s hc
  | .xori rd rs imm => canonO_execXori rd rs imm s hc
  | .ori rd rs imm => canonO_execOri rd rs imm s hc
  | .andi rd rs imm => canonO_execAndi rd rs imm s hc
  | .slli rd rs sh => canonO_execSlli rd rs sh s hc
  | .srli rd rs sh => canonO_execSrli rd rs sh s hc
  | .srai rd rs sh => canonO_execSrai rd rs sh s hc
  | .addiw rd rs imm => canonO_execAddiw rd rs imm s hc
  | .slliw rd rs sh => canonO_execSlliw rd rs sh s hc
  | .srliw rd rs sh => canonO_execSrliw rd rs sh s hc
  | .sraiw rd rs sh => canonO_execSraiw rd rs sh s hc
  | .add rd rs rt => canonO_execAdd rd rs rt s hc
  | .sll rd rs rt => canonO_execSll rd rs rt s hc
  | .slt rd rs rt => canonO_execSlt rd rs rt s hc
  | .sltu rd rs rt => canonO_execSltu rd rs rt s hc
  | .xor rd rs rt => canonO_execXor rd rs rt s hc
  | .srl rd rs rt => canonO_execSrl rd rs rt s hc
  | .or rd rs rt => canonO_execOr rd rs rt s hc
  | .and rd rs rt => canonO_execAnd rd rs rt s hc
  | .sub rd rs rt => canonO_execSub rd rs rt s hc
  | .sra rd rs rt => canonO_execSra rd rs rt s hc
  | .mul rd rs rt => canonO_execMul rd rs rt s hc
  | .mulh rd rs rt => canonO_execMulh rd rs rt s hc
  | .mulhsu rd rs rt => canonO_execMulhsu rd rs rt s hc
  | .mulhu rd rs rt => canonO_execMulhu rd rs rt s hc
  | .div rd rs rt => canonO_execDiv rd rs rt s hc
  | .divu rd rs rt => canonO_execDivu rd rs rt s hc
  | .rem rd rs rt => canonO_execRem rd rs rt s hc
  | .remu rd rs rt => canonO_execRemu rd rs rt s hc
  | .addw rd rs rt => canonO_execAddw rd rs rt s hc
  | .sllw rd rs rt => canonO_execSllw rd rs rt s hc
  | .srlw rd rs rt => canonO_execSrlw rd rs rt s hc
  | .subw rd rs rt => canonO_execSubw rd rs rt s hc
  | .sraw rd rs rt => canonO_execSraw rd rs rt s hc
  | .mulw rd rs rt => canonO_execMulw rd rs rt s hc
  | .divw rd rs rt => canonO_execDivw rd rs rt s hc
  | .divuw rd rs rt => canonO_execDivuw rd rs rt s hc
  | .remw rd rs rt => canonO_execRemw rd rs rt s hc
  | .remuw rd rs rt => canonO_execRemuw rd rs rt s hc
  | .fence fm pred succ rs rd => canonO_execFence fm pred succ rs rd s hc
  | .ecall => canonO_execEcall s hc
  | .ebreak => canonO_execEbreak s hc
  | .csrrw rd csr rs => canonO_execCsrrw rd csr rs s hc
  | .csrrs rd csr rs => canonO_execCsrrs rd csr rs s hc
  | .csrrc rd csr rs => canonO_execCsrrc rd csr rs s hc
  | .csrrwi rd csr u => canonO_execCsrrwi rd csr u s hc
  | .csrrsi rd csr u => canonO_execCsrrsi rd csr u s hc
  | .csrrci rd csr u => canonO_execCsrrci rd csr u s hc
  | .vadd g ty vd va vb => canonO_execVadd g ty vd va vb s hc
  | .vsub g ty vd va vb => canonO_execVsub g ty vd va vb s hc
  | .vmul g ty vd va vb => canonO_execVmul g ty vd va vb s hc
  | .vsel g ty vd va vb => canonO_execVsel g ty vd va vb s hc
  | .vsadd g ty vd va vb => canonO_execVsadd g ty vd va vb s hc
  | .vssub g ty vd va vb => canonO_execVssub g ty vd va vb s hc
  | .vmin g ty vd va vb => canonO_execVmin g ty vd va vb s hc
  | .vmax g ty vd va vb => canonO_execVmax g ty vd va vb s hc
  | .vminu g ty vd va vb => canonO_execVminu g ty vd va vb s hc
  | .vmaxu g ty vd va vb => canonO_execVmaxu g ty vd va vb s hc
  | .vand g ty vd va vb => canonO_execVand g ty vd va vb s hc
  | .vor g ty vd va vb => canonO_execVor g ty vd va vb s hc
  | .vxor g ty vd va vb => canonO_execVxor g ty vd va vb s hc
  | .vsll g ty vd va vb => canonO_execVsll g ty vd va vb s hc
  | .vsrl g ty vd va vb => canonO_execVsrl g ty vd va vb s hc
  | .vsra g ty vd va vb => canonO_execVsra g ty vd va vb s hc
  | .vfadd g ty vd va vb => canonO_execVfadd g ty vd va vb s hc
  | .vfsub g ty vd va vb => canonO_execVfsub g ty vd va vb s hc
  | .vfmul g ty vd va vb => canonO_execVfmul g ty vd va vb s hc
  | .vfma g ty vd va vb => canonO_execVfma g ty vd va vb s hc
  | .vfmin g ty vd va vb => canonO_execVfmin g ty vd va vb s hc
  | .vfmax g ty vd va vb => canonO_execVfmax g ty vd va vb s hc
  | .vfdiv g ty vd va vb => canonO_execVfdiv g ty vd va vb s hc
  | .vfexp2 g ty vd va => canonO_execVfexp2 g ty vd va s hc
  | .vflog2 g ty vd va => canonO_execVflog2 g ty vd va s hc
  | .vfrcp g ty vd va => canonO_execVfrcp g ty vd va s hc
  | .vfrsqrt g ty vd va => canonO_execVfrsqrt g ty vd va s hc
  | .vfsqrt g ty vd va => canonO_execVfsqrt g ty vd va s hc
  | .vftanh g ty vd va => canonO_execVftanh g ty vd va s hc
  | .vfsig g ty vd va => canonO_execVfsig g ty vd va s hc
  | .vferf g ty vd va => canonO_execVferf g ty vd va s hc
  | .vcmpeq g ty pd va vb => canonO_execVcmpeq g ty pd va vb s hc
  | .vcmplt g ty pd va vb => canonO_execVcmplt g ty pd va vb s hc
  | .vcmple g ty pd va vb => canonO_execVcmple g ty pd va vb s hc
  | .vcmpltu g ty pd va vb => canonO_execVcmpltu g ty pd va vb s hc
  | .vfcmpeq g ty pd va vb => canonO_execVfcmpeq g ty pd va vb s hc
  | .vfcmplt g ty pd va vb => canonO_execVfcmplt g ty pd va vb s hc
  | .vfcmple g ty pd va vb => canonO_execVfcmple g ty pd va vb s hc
  | .vfcmpun g ty pd va vb => canonO_execVfcmpun g ty pd va vb s hc
  | .vmacc ty ad va vb => canonO_execVmacc ty ad va vb s hc
  | .vdot2 ty ad va vb => canonO_execVdot2 ty ad va vb s hc
  | .vdot4 ty ad va vb => canonO_execVdot4 ty ad va vb s hc
  | .vnarrow ty sat vd aa => canonO_execVnarrow ty sat vd aa s hc
  | .accz ad => canonO_execAccz ad s hc
  | .accst sa xb => canonO_execAccst sa xb s hc
  | .accld ad xb => canonO_execAccld ad xb s hc
  | .vxchg vd va => canonO_execVxchg vd va s hc
  | .vld g vd xb => canonO_execVld g vd xb s hc
  | .vst g vd xb => canonO_execVst g vd xb s hc
  | .vlds g vd xb xs => canonO_execVlds g vd xb xs s hc
  | .vsts g vd xb xs => canonO_execVsts g vd xb xs s hc
  | .vldx g vd xb vi => canonO_execVldx g vd xb vi s hc
  | .vstx g vd xb vi => canonO_execVstx g vd xb vi s hc
  | .vldf g ty vd xb => canonO_execVldf g ty vd xb s hc
  | .pand pd pa pb => canonO_execPand pd pa pb s hc
  | .por pd pa pb => canonO_execPor pd pa pb s hc
  | .pxor pd pa pb => canonO_execPxor pd pa pb s hc
  | .pandn pd pa pb => canonO_execPandn pd pa pb s hc
  | .pnot pd pa => canonO_execPnot pd pa s hc
  | .pcnt xd pa => canonO_execPcnt xd pa s hc
  | .pfirst xd pa => canonO_execPfirst xd pa s hc
  | .plt pd xs => canonO_execPlt pd xs s hc
  | .vredsum ty xd va => canonO_execVredsum ty xd va s hc
  | .vredmax ty xd va => canonO_execVredmax ty xd va s hc
  | .vredmin ty xd va => canonO_execVredmin ty xd va s hc
  | .vfredsum ty xd va => canonO_execVfredsum ty xd va s hc
  | .vfredmax ty xd va => canonO_execVfredmax ty xd va s hc
  | .vfredmin ty xd va => canonO_execVfredmin ty xd va s hc
  | .vslideup vd va xn => canonO_execVslideup vd va xn s hc
  | .vslidedn vd va xn => canonO_execVslidedn vd va xn s hc
  | .vperm vd va vi => canonO_execVperm vd va vi s hc
  | .vbcast k vd xs => canonO_execVbcast k vd xs s hc
  | .vget xd va xi => canonO_execVget xd va xi s hc
  | .vset vd xv xi => canonO_execVset vd xv xi s hc
  | .vcvt tyd mode tys sat vd vs => canonO_execVcvt tyd mode tys sat vd vs s hc
  | .mma pair xc xa xb => canonO_execMma pair xc xa xb s hc
  | .mmav pair xc xa xb => canonO_execMmav pair xc xa xb s hc
  | .mmat pair xc xa xb => canonO_execMmat pair xc xa xb s hc
  | .aclr xs => canonO_execAclr xs s hc
  | .anarrow ty mode sat xm xg => canonO_execAnarrow ty mode sat xm xg s hc
  | .ald xg xm => canonO_execAld xg xm s hc
  | .ast xg xm => canonO_execAst xg xm s hc
  | .amovv vd xg => canonO_execAmovv vd xg s hc
  | .amova xg vb => canonO_execAmova xg vb s hc
  | .unfcfg xs => canonO_execUnfcfg xs s hc
  | .qbind q xs => canonO_execQbind q xs s hc
  | .qunbind q => canonO_execQunbind q s hc
  | .qld vd q => canonO_execQld vd q s hc
  | .qst q vb => canonO_execQst q vb s hc
  | .qldx xd q => canonO_execQldx xd q s hc
  | .qstx q xs => canonO_execQstx q xs s hc
  | .qpos xd q => canonO_execQpos xd q s hc
  | .qflush q => canonO_execQflush q s hc
  | .cpyGo xd xp => canonO_execCpyGo xd xp s hc
  | .cpyGoM xd xp xr => canonO_execCpyGoM xd xp xr s hc
  | .cpyCancel xn => canonO_execCpyCancel xn s hc
  | .cpyProg xd xn => canonO_execCpyProg xd xn s hc
  | .waitc nl ns nc nt => canonO_execWaitc nl ns nc nt s hc
  | .ascale xg xs => canonO_execAscale xg xs s hc
  | .send c ch xt xw0 xw1 => canonO_execSend c ch xt xw0 xw1 s hc
  | .sendv c ch xt xn vb => canonO_execSendv c ch xt xn vb s hc
  | .reply xw0 xw1 => canonO_execReply xw0 xw1 s hc
  | .msgrd xd => canonO_execMsgrd xd s hc
  | .msgsrc xd => canonO_execMsgsrc xd s hc
  | .chon ch => canonO_execChon ch s hc
  | .choff ch => canonO_execChoff ch s hc
  | .rmadd nr xd xv xa => canonO_execRmadd nr xd xv xa s hc
  | .rmand nr xd xv xa => canonO_execRmand nr xd xv xa s hc
  | .rmor nr xd xv xa => canonO_execRmor nr xd xv xa s hc
  | .rmxor nr xd xv xa => canonO_execRmxor nr xd xv xa s hc
  | .rmmin nr xd xv xa => canonO_execRmmin nr xd xv xa s hc
  | .rmmax nr xd xv xa => canonO_execRmmax nr xd xv xa s hc
  | .rmminu nr xd xv xa => canonO_execRmminu nr xd xv xa s hc
  | .rmmaxu nr xd xv xa => canonO_execRmmaxu nr xd xv xa s hc
  | .rmswap nr xd xv xa => canonO_execRmswap nr xd xv xa s hc
  | .rmcas nr xd xv xa => canonO_execRmcas nr xd xv xa s hc
  | .rmaddI32 nr xd xv xa => canonO_execRmaddI32 nr xd xv xa s hc
  | .rmandI32 nr xd xv xa => canonO_execRmandI32 nr xd xv xa s hc
  | .rmorI32 nr xd xv xa => canonO_execRmorI32 nr xd xv xa s hc
  | .rmxorI32 nr xd xv xa => canonO_execRmxorI32 nr xd xv xa s hc
  | .rmminI32 nr xd xv xa => canonO_execRmminI32 nr xd xv xa s hc
  | .rmmaxI32 nr xd xv xa => canonO_execRmmaxI32 nr xd xv xa s hc
  | .rmminuI32 nr xd xv xa => canonO_execRmminuI32 nr xd xv xa s hc
  | .rmmaxuI32 nr xd xv xa => canonO_execRmmaxuI32 nr xd xv xa s hc
  | .rmswapI32 nr xd xv xa => canonO_execRmswapI32 nr xd xv xa s hc
  | .rmcasI32 nr xd xv xa => canonO_execRmcasI32 nr xd xv xa s hc
  | .rmfadd nr xd xv xa => canonO_execRmfadd nr xd xv xa s hc
  | .rmfmin nr xd xv xa => canonO_execRmfmin nr xd xv xa s hc
  | .rmfmax nr xd xv xa => canonO_execRmfmax nr xd xv xa s hc
  | .logapp xa xv => canonO_execLogapp xa xv s hc
  | .logmrg xd xa => canonO_execLogmrg xd xa s hc
  | .tktget xd xa => canonO_execTktget xd xa s hc
  | .tktwait xa xv => canonO_execTktwait xa xv s hc
  | .tktadv xa => canonO_execTktadv xa s hc
  | .bararr xa xv => canonO_execBararr xa xv s hc
  | .barwait xd xa => canonO_execBarwait xd xa s hc
  | .gbar xd => canonO_execGbar xd s hc
  | .lbar xd xa => canonO_execLbar xd xa s hc
  | .chunkend => canonO_execChunkend s hc
  | .otdecl xd xa xv => canonO_execOtdecl xd xa xv s hc
  | .launch xd xa => canonO_execLaunch xd xa s hc
  | .fenceX a b => canonO_execFenceX a b s hc
  | .crzsendAdd xa xo => canonO_execCrzsendAdd xa xo s hc
  | .crzsendMax xa xo => canonO_execCrzsendMax xa xo s hc
  | .crzsendMin xa xo => canonO_execCrzsendMin xa xo s hc
  | .crzsendAnd xa xo => canonO_execCrzsendAnd xa xo s hc
  | .crzsendOr xa xo => canonO_execCrzsendOr xa xo s hc
  | .crzsendXor xa xo => canonO_execCrzsendXor xa xo s hc
  | .crzsendBadd xa xo => canonO_execCrzsendBadd xa xo s hc
  | .crzrecv xd xa => canonO_execCrzrecv xd xa s hc
  | .halt => canonO_execHalt s hc
  | .haltR xm xn => canonO_execHaltR xm xn s hc
  | .waitC xs => canonO_execWaitC xs s hc
  | .waitT xs => canonO_execWaitT xs s hc
  | .waitTr xs => canonO_execWaitTr xs s hc
  | .breq prio level => canonO_execBreq prio level s hc
  | .eretS => canonO_execEretS s hc
  | .eretM => canonO_execEretM s hc
  | .tron => canonO_execTron s hc
  | .troff => canonO_execTroff s hc
  | .trmark xs => canonO_execTrmark xs s hc
  | .capon n => canonO_execCapon n s hc
  | .capoff n => canonO_execCapoff n s hc
  | .caprd xd n => canonO_execCaprd xd n s hc
  | .scanrun xd xs => canonO_execScanrun xd xs s hc
  | .scanstat xd => canonO_execScanstat xd s hc
  | .scanabort => canonO_execScanabort s hc
  | .maprd xd xs => canonO_execMaprd xd xs s hc
  | .maprm xs => canonO_execMaprm xs s hc
  | .mapadd xs => canonO_execMapadd xs s hc
  | .preq xd xs => canonO_execPreq xd xs s hc
  | .fundamentalReset => canonO_execFundamentalReset s hc
  | .pfFunctionLevelReset => canonO_execPfFunctionLevelReset s hc
  | .secondaryBusReset => canonO_execSecondaryBusReset s hc
  | .bringupPhaseEnd => canonO_execBringupPhaseEnd s hc
  | .configRequest => canonO_execConfigRequest s hc
  | .mbootGo => canonO_execMbootGo s hc
  | .imageCheck => canonO_execImageCheck s hc
  | .rawRailChange => canonO_execRawRailChange s hc
  | .regulatorSlewEnd => canonO_execRegulatorSlewEnd s hc
  | .tratioWindowEnd => canonO_execTratioWindowEnd s hc
  | .waitCExpiry => canonO_execWaitCExpiry s hc
  | .waitTExpiry => canonO_execWaitTExpiry s hc
  | .boostRequestSample => canonO_execBoostRequestSample s hc
  | .permitBoundary => canonO_execPermitBoundary s hc
  | .controllerStep => canonO_execControllerStep s hc
  | .admissionRequest => canonO_execAdmissionRequest s hc
  | .ballastLimit => canonO_execBallastLimit s hc
  | .exitGroupRelease => canonO_execExitGroupRelease s hc
  | .selection => canonO_execSelection s hc
  | .startingComplete => canonO_execStartingComplete s hc
  | .bankWakeComplete => canonO_execBankWakeComplete s hc
  | .retentionExpiry => canonO_execRetentionExpiry s hc
  | .groupDispatch => canonO_execGroupDispatch s hc
  | .launchHeaderArrival => canonO_execLaunchHeaderArrival s hc
  | .hubQueueRefill => canonO_execHubQueueRefill s hc
  | .residentSlotCopy => canonO_execResidentSlotCopy s hc
  | .sorusPass => canonO_execSorusPass s hc
  | .preemptionRequest => canonO_execPreemptionRequest s hc
  | .safePoint => canonO_execSafePoint s hc
  | .saveComplete => canonO_execSaveComplete s hc
  | .restoreComplete => canonO_execRestoreComplete s hc
  | .launchCompletion => canonO_execLaunchCompletion s hc
  | .grant => canonO_execGrant s hc
  | .broadcastArrival => canonO_execBroadcastArrival s hc
  | .drainComplete => canonO_execDrainComplete s hc
  | .localCommit => canonO_execLocalCommit s hc
  | .reservationTimeout => canonO_execReservationTimeout s hc
  | .loadDataReturn => canonO_execLoadDataReturn s hc
  | .tileOperationComplete => canonO_execTileOperationComplete s hc
  | .copyHeadCheck => canonO_execCopyHeadCheck s hc
  | .copySectorWritten => canonO_execCopySectorWritten s hc
  | .streamFetchReturn => canonO_execStreamFetchReturn s hc
  | .streamWriteTransferDone => canonO_execStreamWriteTransferDone s hc
  | .barrierUpdate => canonO_execBarrierUpdate s hc
  | .exchangeComplete => canonO_execExchangeComplete s hc
  | .groupBarrierComplete => canonO_execGroupBarrierComplete s hc
  | .launchBarrierComplete => canonO_execLaunchBarrierComplete s hc
  | .logMergeDone => canonO_execLogMergeDone s hc
  | .crozierContribution => canonO_execCrozierContribution s hc
  | .ownerRequestArrival => canonO_execOwnerRequestArrival s hc
  | .replyArrival => canonO_execReplyArrival s hc
  | .resultCacheRetirement => canonO_execResultCacheRetirement s hc
  | .retransmission => canonO_execRetransmission s hc
  | .serialWrapRelease => canonO_execSerialWrapRelease s hc
  | .messageArrival => canonO_execMessageArrival s hc
  | .messageSendRelease => canonO_execMessageSendRelease s hc
  | .postGo => canonO_execPostGo s hc
  | .hteHubWrite => canonO_execHteHubWrite s hc
  | .scanDrainEnd => canonO_execScanDrainEnd s hc
  | .scanDrainTimeout => canonO_execScanDrainTimeout s hc
  | .scanPatternEnd => canonO_execScanPatternEnd s hc
  | .lcmapAbsentSet => canonO_execLcmapAbsentSet s hc
  | .lcmapAbsentClear => canonO_execLcmapAbsentClear s hc
  | .hcdataWrite => canonO_execHcdataWrite s hc
  | .hubWindowWrite => canonO_execHubWindowWrite s hc
  | .ptrootWrite => canonO_execPtrootWrite s hc
  | .tlbinvWrite => canonO_execTlbinvWrite s hc
  | .boostlvlWrite => canonO_execBoostlvlWrite s hc
  | .ppoolWrite => canonO_execPpoolWrite s hc
  | .hostCxlMemWrite => canonO_execHostCxlMemWrite s hc
  | .hostCxlMemRead => canonO_execHostCxlMemRead s hc
  | .launchWindowWrite => canonO_execLaunchWindowWrite s hc
  | .hostBarInvalidAccess => canonO_execHostBarInvalidAccess s hc
  | .vfFunctionLevelReset => canonO_execVfFunctionLevelReset s hc
  | .vfResetEnd => canonO_execVfResetEnd s hc
  | .spartWrite => canonO_execSpartWrite s hc
  | .partitionControllerStep => canonO_execPartitionControllerStep s hc
  | .datagramArrival => canonO_execDatagramArrival s hc
  | .exportRequest => canonO_execExportRequest s hc
  | .revoke => canonO_execRevoke s hc
  | .revokeDrainEnd => canonO_execRevokeDrainEnd s hc
  | .bucketRefill => canonO_execBucketRefill s hc
  | .headRequestRelease => canonO_execHeadRequestRelease s hc
  | .checkpointGo => canonO_execCheckpointGo s hc
  | .checkpointUnitAck => canonO_execCheckpointUnitAck s hc
  | .checkpointResend => canonO_execCheckpointResend s hc
  | .debugHalt => canonO_execDebugHalt s hc
  | .debugResume => canonO_execDebugResume s hc
  | .debugStep => canonO_execDebugStep s hc
  | .dbgrdatWrite => canonO_execDbgrdatWrite s hc
  | .syncPeriod => canonO_execSyncPeriod s hc
  | .routerGridPeriod => canonO_execRouterGridPeriod s hc
  | .trapEntry => canonO_execTrapEntry s hc
  | .interruptEntry => canonO_execInterruptEntry s hc
  | .detectionTimerExpiry => canonO_execDetectionTimerExpiry s hc
  | .enginePageFault => canonO_execEnginePageFault s hc
  | .promiseExpiry => canonO_execPromiseExpiry s hc
  | .uncorrectableError => canonO_execUncorrectableError s hc
  | .finjWrite => canonO_execFinjWrite s hc
  | .finjRead => canonO_execFinjRead s hc
  | .railSample => canonO_execRailSample s hc
  | .timeBeacon => canonO_execTimeBeacon s hc
  | .beaconLoss => canonO_execBeaconLoss s hc
  | .linkLaneFailure => canonO_execLinkLaneFailure s hc
  | .linkRetrainEnd => canonO_execLinkRetrainEnd s hc
  | .portLaneFailure => canonO_execPortLaneFailure s hc
  | .portRetrainEnd => canonO_execPortRetrainEnd s hc
  | .pstatRead => canonO_execPstatRead s hc
  | .debtstallTimer => canonO_execDebtstallTimer s hc
  | .requestLastDeadline => canonO_execRequestLastDeadline s hc
  | .returnToService => canonO_execReturnToService s hc
  | .hostLaneFailure => canonO_execHostLaneFailure s hc

theorem canonO_runEvent (e : Event) (s : State) (hc : Canon s) : CanonO (runEvent e s) :=
  canonO_ite (canonO_exec _ _ hc) (canonO_next hc)

/-- A turn of the surroundings keeps the form. -/
theorem canon_turn (s : State) (t : Turn) (hc : Canon s) :
    (∀ u, s.turn t = .done u → Canon u) ∧ ∀ e u, s.turn t = .run e u → Canon u := by
  constructor
  · intro u h
    cases t <;> simp only [State.turn] at h
    case agenda n => split at h <;> cases h; exact hc
    all_goals cases h
    all_goals
      repeat' first
        | with_reducible assumption
        | with_reducible apply canon_ticks
        | with_reducible apply canon_checkerStrike
        | with_reducible apply canon_tlbFill
        | with_reducible apply canon_setSx
        | with_reducible apply canon_icacheFill
        | with_reducible apply canon_driftFrond
        | with_reducible apply canon_issueOn
        | with_reducible apply canon_dcacheFill
        | exact canon_mk hc
  · intro e u h
    cases t <;> simp only [State.turn] at h
    case agenda n => split at h <;> cases h; exact hc
    all_goals cases h
    exact hc

end Sys2Proof.Machine
end

