-- ==== Sys2Proof/Laws/Events.lean ====
section
/-! SUPPORT. What each happening comes to where it takes place: the row of the table answers a next state, one lemma for each. -/

namespace Sys2Proof.Machine

open Sys2Proof

section
variable {s : State}

theorem now_fundamentalReset (hn : s.now = some .fundamentalReset) :
    exec .fundamentalReset s = .next (s.resetNow true) := by
  rw [exec_fundamentalReset]; unfold execFundamentalReset; rw [hn]; try rfl
theorem now_pfFunctionLevelReset (hn : s.now = some .pfFunctionLevelReset) :
    exec .pfFunctionLevelReset s = .next (s.resetNow false) := by
  rw [exec_pfFunctionLevelReset]; unfold execPfFunctionLevelReset; rw [hn]; try rfl
theorem now_secondaryBusReset (hn : s.now = some .secondaryBusReset) :
    exec .secondaryBusReset s = .next (s.resetNow false) := by
  rw [exec_secondaryBusReset]; unfold execSecondaryBusReset; rw [hn]; try rfl
theorem now_bringupPhaseEnd {good : BitVec 32} {failed : List Nat} {ports : List Nat} {links : List (Nat × Nat)} (hn : s.now = some (.bringupPhaseEnd good failed ports links)) :
    exec .bringupPhaseEnd s = .next (s.taken.phaseEnd good failed ports links) := by
  rw [exec_bringupPhaseEnd]; unfold execBringupPhaseEnd; rw [hn]; try rfl
theorem now_configRequest (hn : s.now = some .configRequest) :
    exec .configRequest s = .next (s.taken.emit (if s.hub.phase ≤ 1 then .configRetry else .configOk)) := by
  rw [exec_configRequest]; unfold execConfigRequest; rw [hn]; try rfl
theorem now_mbootGo {v : Bool} (hn : s.now = some (.mbootGo v)) :
    exec .mbootGo s = .next (s.taken.writeMboot v) := by
  rw [exec_mbootGo]; unfold execMbootGo; rw [hn]; try rfl
theorem now_imageCheck (hn : s.now = some .imageCheck) :
    exec .imageCheck s = .next s.taken.imageTake := by
  rw [exec_imageCheck]; unfold execImageCheck; rw [hn]; try rfl
theorem now_rawRailChange {mv : Nat} (hn : s.now = some (.rawRailChange mv)) :
    exec .rawRailChange s = .next (s.taken.railChange mv) := by
  rw [exec_rawRailChange]; unfold execRawRailChange; rw [hn]; try rfl
theorem now_railSample (hn : s.now = some .railSample) :
    exec .railSample s = .next s.taken.railLook := by
  rw [exec_railSample]; unfold execRailSample; rw [hn]; try rfl
theorem now_timeBeacon {f : Nat} (hn : s.now = some (.timeBeacon f)) :
    exec .timeBeacon s = .next (s.taken.beacon f) := by
  rw [exec_timeBeacon]; unfold execTimeBeacon; rw [hn]; try rfl
theorem now_beaconLoss {f : Nat} (hn : s.now = some (.beaconLoss f)) :
    exec .beaconLoss s = .next (s.taken.beaconLost f) := by
  rw [exec_beaconLoss]; unfold execBeaconLoss; rw [hn]; try rfl
theorem now_linkLaneFailure {link : Nat} {good : Nat} (hn : s.now = some (.linkLaneFailure link good)) :
    exec .linkLaneFailure s = .next (s.taken.linkFail link good) := by
  rw [exec_linkLaneFailure]; unfold execLinkLaneFailure; rw [hn]; try rfl
theorem now_linkRetrainEnd {link : Nat} (hn : s.now = some (.linkRetrainEnd link)) :
    exec .linkRetrainEnd s = .next (s.taken.linkBack link) := by
  rw [exec_linkRetrainEnd]; unfold execLinkRetrainEnd; rw [hn]; try rfl
theorem now_portLaneFailure {n : Nat} {good : Nat} (hn : s.now = some (.portLaneFailure n good)) :
    exec .portLaneFailure s = .next ((s.taken.portFail n good).ckMove n) := by
  rw [exec_portLaneFailure]; unfold execPortLaneFailure; rw [hn]; try rfl
theorem now_portRetrainEnd {n : Nat} (hn : s.now = some (.portRetrainEnd n)) :
    exec .portRetrainEnd s = .next (s.taken.portBack n) := by
  rw [exec_portRetrainEnd]; unfold execPortRetrainEnd; rw [hn]; try rfl
theorem now_hostLaneFailure {n : Nat} (hn : s.now = some (.hostLaneFailure n)) :
    exec .hostLaneFailure s = .next (s.taken.hostFail n) := by
  rw [exec_hostLaneFailure]; unfold execHostLaneFailure; rw [hn]; try rfl
theorem now_debugHalt {n : Nat} (hn : s.now = some (.debugHalt n)) :
    exec .debugHalt s = .next (s.taken.haltSorus n) := by
  rw [exec_debugHalt]; unfold execDebugHalt; rw [hn]; try rfl
theorem now_debugResume {n : Nat} (hn : s.now = some (.debugResume n)) :
    exec .debugResume s = .next (s.taken.resumeSorus n) := by
  rw [exec_debugResume]; unfold execDebugResume; rw [hn]; try rfl
theorem now_debugStep {n : Nat} (hn : s.now = some (.debugStep n)) :
    exec .debugStep s = .next (s.taken.stepSorus n (s.sx n).dbgsel) := by
  rw [exec_debugStep]; unfold execDebugStep; rw [hn]; try rfl
theorem now_dbgrdatWrite {h : Nat} {sel : Word} {v : Word} (hn : s.now = some (.dbgrdatWrite h sel v)) :
    exec .dbgrdatWrite s = .next (s.taken.writeDbgrdat h sel v) := by
  rw [exec_dbgrdatWrite]; unfold execDbgrdatWrite; rw [hn]; try rfl
theorem now_routerGridPeriod (hn : s.now = some .routerGridPeriod) :
    exec .routerGridPeriod s = .next (s.taken.gridPeriod) := by
  rw [exec_routerGridPeriod]; unfold execRouterGridPeriod; rw [hn]; try rfl
theorem now_selection {L : Nat} (hn : s.now = some (.selection L)) :
    exec .selection s = .next (s.taken.select L) := by
  rw [exec_selection]; unfold execSelection; rw [hn]; try rfl
theorem now_startingComplete {h : Nat} (hn : s.now = some (.startingComplete h)) :
    exec .startingComplete s = .next (if (s.ctx h).st = .starting && !(s.sx (h / 64)).halted && !s.paused (h / 64) then
        (s.taken.setCtx h { s.ctx h with st := s.runSt h }).pokeYield h else s.taken) := by
  rw [exec_startingComplete]; unfold execStartingComplete; rw [hn]; try rfl
theorem now_bankWakeComplete {L : Nat} {b : Nat} (hn : s.now = some (.bankWakeComplete L b)) :
    exec .bankWakeComplete s = .next (if s.paused (L / 16) then s.taken.after 1 (.bankWakeComplete L b)
      else if (s.bank L b).waking then
        (s.taken.wipeBank L b).setBank L b { s.bank L b with powered := true, waking := false } else s.taken) := by
  rw [exec_bankWakeComplete]; unfold execBankWakeComplete; rw [hn]; try rfl
theorem now_retentionExpiry {L : Nat} {b : Nat} {since : Nat} (hn : s.now = some (.retentionExpiry L b since)) :
    exec .retentionExpiry s = .next (if s.paused (L / 16) then s.taken.after 1 (.retentionExpiry L b since)
      else if s.otherDue then s.taken.poke (.retentionExpiry L b since)
      else if (s.bank L b).retain.any (fun r => r.2 = since) then
        let t := (s.taken.bankDown L b).poke (.selection L)
        match s.partOf L with | some p => t.poke (.groupDispatch p) | none => t
      else s.taken) := by
  rw [exec_retentionExpiry]; unfold execRetentionExpiry; rw [hn]; try rfl
theorem now_groupDispatch {p : Nat} (hn : s.now = some (.groupDispatch p)) :
    exec .groupDispatch s = .next (s.taken.dispatch p) := by
  rw [exec_groupDispatch]; unfold execGroupDispatch; rw [hn]; try rfl
theorem now_launchHeaderArrival {p : Nat} {ws : List Word} {src : HdrSrc} (hn : s.now = some (.launchHeaderArrival p ws src)) :
    exec .launchHeaderArrival s = .next (s.taken.headerArrive p ws src) := by
  rw [exec_launchHeaderArrival]; unfold execLaunchHeaderArrival; rw [hn]; try rfl
theorem now_hubQueueRefill {p : Nat} (hn : s.now = some (.hubQueueRefill p)) :
    exec .hubQueueRefill s = .next (s.taken.refillQueue p) := by
  rw [exec_hubQueueRefill]; unfold execHubQueueRefill; rw [hn]; try rfl
theorem now_residentSlotCopy {p : Nat} (hn : s.now = some (.residentSlotCopy p)) :
    exec .residentSlotCopy s = .next (s.taken.slotCopy p) := by
  rw [exec_residentSlotCopy]; unfold execResidentSlotCopy; rw [hn]; try rfl
theorem now_sorusPass {n : Nat} (hn : s.now = some (.sorusPass n)) :
    exec .sorusPass s = .next (s.taken.passSorus n) := by
  rw [exec_sorusPass]; unfold execSorusPass; rw [hn]; try rfl
theorem now_preemptionRequest {h : Nat} {who : PreqBy} (hn : s.now = some (.preemptionRequest h who)) :
    exec .preemptionRequest s = .next (if s.paused (h / 64) then s.taken.after 1 (.preemptionRequest h who) else s.taken.preempt h who) := by
  rw [exec_preemptionRequest]; unfold execPreemptionRequest; rw [hn]; try rfl
theorem now_safePoint {h : Nat} (hn : s.now = some (.safePoint h)) :
    exec .safePoint s = .next (s.taken.reachSafe h) := by
  rw [exec_safePoint]; unfold execSafePoint; rw [hn]; try rfl
theorem now_saveComplete {h : Nat} (hn : s.now = some (.saveComplete h)) :
    exec .saveComplete s = .next (s.taken.saveNow h) := by
  rw [exec_saveComplete]; unfold execSaveComplete; rw [hn]; try rfl
theorem now_restoreComplete {h : Nat} (hn : s.now = some (.restoreComplete h)) :
    exec .restoreComplete s = .next (s.taken.restoreNow h) := by
  rw [exec_restoreComplete]; unfold execRestoreComplete; rw [hn]; try rfl
theorem now_launchCompletion {p : Nat} {slot : Nat} (hn : s.now = some (.launchCompletion p slot)) :
    exec .launchCompletion s = .next (s.taken.complete p slot) := by
  rw [exec_launchCompletion]; unfold execLaunchCompletion; rw [hn]; try rfl
theorem now_tileOperationComplete {L : Nat} (hn : s.now = some (.tileOperationComplete L)) :
    exec .tileOperationComplete s = match (s.core L).matq.head? with
    | some t => .next (if t.ready && !s.stuck (L / 16) && (t.running || !(s.sx (L / 16)).halted) then s.taken.tileDone L t true 0 else s.taken)
    | none => .next s.taken := by
  rw [exec_tileOperationComplete]; unfold execTileOperationComplete; rw [hn]; try rfl
theorem now_copyHeadCheck {L : Nat} (hn : s.now = some (.copyHeadCheck L)) :
    exec .copyHeadCheck s = match s.copyHead L with
    | none => .next s.taken
    | some c =>
      if s.still (L / 16) then .next s.taken
      else if c.fault then .next (s.taken.copyEnd c 7)
      else if c.checked then .next (s.taken.poke (.copySectorWritten L))
      else
        let c := s.sampled c
        .next (if s.copyCode c = 0 then (s.taken.setCopy { c with checked := true }).poke (.copySectorWritten L)
          else s.taken.copyEnd c (s.copyCode c)) := by
  rw [exec_copyHeadCheck]; unfold execCopyHeadCheck; rw [hn]; try rfl
theorem now_copySectorWritten {L : Nat} (hn : s.now = some (.copySectorWritten L)) :
    exec .copySectorWritten s = match s.copyHead L with
    | none => .next s.taken
    | some c => .next (if !c.checked || c.parked || s.stuck (L / 16) || s.copyAwaits c then s.taken
      else if (s.sx (L / 16)).halted then s.taken.copyFreeze c
      else s.taken.copySector { c with frozen := false }) := by
  rw [exec_copySectorWritten]; unfold execCopySectorWritten; rw [hn]; try rfl
theorem now_streamFetchReturn {h : Nat} {q : Nat} (hn : s.now = some (.streamFetchReturn h q)) :
    exec .streamFetchReturn s = .next (s.taken.fetchReturn h q) := by
  rw [exec_streamFetchReturn]; unfold execStreamFetchReturn; rw [hn]; try rfl
theorem now_streamWriteTransferDone {h : Nat} {q : Nat} (hn : s.now = some (.streamWriteTransferDone h q)) :
    exec .streamWriteTransferDone s = .next (s.taken.transferDone h q) := by
  rw [exec_streamWriteTransferDone]; unfold execStreamWriteTransferDone; rw [hn]; try rfl
theorem now_barrierUpdate {n : Nat} (hn : s.now = some (.barrierUpdate n)) :
    exec .barrierUpdate s = match (s.sorus n).barq with
    | [] => .next s.taken
    | u :: us =>
      if s.still n then .next s.taken
      else if s.gtime < u.at' + 3 then .next (s.taken.after (u.at' + 3 - s.gtime) (.barrierUpdate n))
      else
        let t := s.taken.setSorus n { s.sorus n with barq := us }
        let t := if us.isEmpty then t else t.poke (.barrierUpdate n)
        .next (t.barUpdate u.upd) := by
  rw [exec_barrierUpdate]; unfold execBarrierUpdate; rw [hn]; try rfl
theorem now_exchangeComplete {p : Nat} {slot : Nat} {gid : Nat} {set : Nat} (hn : s.now = some (.exchangeComplete p slot gid set)) :
    exec .exchangeComplete s = .next (s.taken.xchgComplete p slot gid set) := by
  rw [exec_exchangeComplete]; unfold execExchangeComplete; rw [hn]; try rfl
theorem now_groupBarrierComplete {p : Nat} {slot : Nat} {gid : Nat} (hn : s.now = some (.groupBarrierComplete p slot gid)) :
    exec .groupBarrierComplete s = .next (s.taken.gbarComplete p slot gid) := by
  rw [exec_groupBarrierComplete]; unfold execGroupBarrierComplete; rw [hn]; try rfl
theorem now_launchBarrierComplete {p : Nat} {slot : Nat} {n : Nat} (hn : s.now = some (.launchBarrierComplete p slot n)) :
    exec .launchBarrierComplete s = .next (s.taken.lbarComplete p slot n) := by
  rw [exec_launchBarrierComplete]; unfold execLaunchBarrierComplete; rw [hn]; try rfl
theorem now_logMergeDone {p : Nat} (hn : s.now = some (.logMergeDone p)) :
    exec .logMergeDone s = .next (s.taken.mergeDone p) := by
  rw [exec_logMergeDone]; unfold execLogMergeDone; rw [hn]; try rfl
theorem now_crozierContribution {k : Nat} (hn : s.now = some (.crozierContribution k)) :
    exec .crozierContribution s = .next (s.taken.crzContribution k) := by
  rw [exec_crozierContribution]; unfold execCrozierContribution; rw [hn]; try rfl
theorem now_promiseExpiry {a0 : Nat} {cid : Nat} (hn : s.now = some (.promiseExpiry a0 cid)) :
    exec .promiseExpiry s = .next (s.taken.copyLate cid) := by
  rw [exec_promiseExpiry]; unfold execPromiseExpiry; rw [hn]; try rfl
theorem now_syncPeriod {n : Nat} (hn : s.now = some (.syncPeriod n)) :
    exec .syncPeriod s = .next (if (s.sx n).syncAt.any (fun t => t ≤ s.localTime (16 * n) && s.localTime (16 * n) < t + 1000) then s.taken else (List.range 16).foldl (fun t c => t.traceSync (16 * n + c) 1) s.taken) := by
  rw [exec_syncPeriod]; unfold execSyncPeriod; rw [hn]; try rfl
theorem now_datagramArrival {port : Nat} {dg : Datagram} (hn : s.now = some (.datagramArrival port dg)) :
    exec .datagramArrival s = .next (s.taken.datagramIn port dg) := by
  rw [exec_datagramArrival]; unfold execDatagramArrival; rw [hn]; try rfl
theorem now_exportRequest {w : Nat} {rq : WinReq} (hn : s.now = some (.exportRequest w rq)) :
    exec .exportRequest s = .next (s.taken.exportDo w rq) := by
  rw [exec_exportRequest]; unfold execExportRequest; rw [hn]; try rfl
theorem now_revoke {w : Nat} (hn : s.now = some (.revoke w)) :
    exec .revoke s = .next (s.taken.revokeNow w) := by
  rw [exec_revoke]; unfold execRevoke; rw [hn]; try rfl
theorem now_revokeDrainEnd {w : Nat} (hn : s.now = some (.revokeDrainEnd w)) :
    exec .revokeDrainEnd s = .next (s.taken.revokeDone w) := by
  rw [exec_revokeDrainEnd]; unfold execRevokeDrainEnd; rw [hn]; try rfl
theorem now_bucketRefill (hn : s.now = some .bucketRefill) :
    exec .bucketRefill s = .next (s.taken.refillAll) := by
  rw [exec_bucketRefill]; unfold execBucketRefill; rw [hn]; try rfl
theorem now_headRequestRelease {t : Nat} (hn : s.now = some (.headRequestRelease t)) :
    exec .headRequestRelease s = .next (s.taken.releaseHead t) := by
  rw [exec_headRequestRelease]; unfold execHeadRequestRelease; rw [hn]; try rfl
theorem now_debtstallTimer {t : Nat} {since : Nat} (hn : s.now = some (.debtstallTimer t since)) :
    exec .debtstallTimer s = .next (s.taken.debtStall t since) := by
  rw [exec_debtstallTimer]; unfold execDebtstallTimer; rw [hn]; try rfl
theorem now_checkpointGo {v : Word} (hn : s.now = some (.checkpointGo v)) :
    exec .checkpointGo s = .next (s.taken.writeCkcfg v) := by
  rw [exec_checkpointGo]; unfold execCheckpointGo; rw [hn]; try rfl
theorem now_checkpointUnitAck {unit : Nat} {status : Nat} (hn : s.now = some (.checkpointUnitAck unit status)) :
    exec .checkpointUnitAck s = .next (s.taken.ckAck unit status) := by
  rw [exec_checkpointUnitAck]; unfold execCheckpointUnitAck; rw [hn]; try rfl
theorem now_checkpointResend {unit : Nat} (hn : s.now = some (.checkpointResend unit)) :
    exec .checkpointResend s = .next (s.taken.ckResend unit) := by
  rw [exec_checkpointResend]; unfold execCheckpointResend; rw [hn]; try rfl
theorem now_pstatRead {n : Nat} (hn : s.now = some (.pstatRead n)) :
    exec .pstatRead s = .next (if n < 16 then (s.taken.emit (.data (s.hubRead (.pstat n 1)))).clearPstat n else s.taken) := by
  rw [exec_pstatRead]; unfold execPstatRead; rw [hn]; try rfl
theorem now_trapEntry {h : Nat} {int : Bool} {cause : Nat} {val : Word} (hn : s.now = some (.trapEntry h int cause val)) :
    exec .trapEntry s = .next (if s.paused (h / 64) then s.taken.after 1 (.trapEntry h int cause val)
      else s.taken.trapNow h { int := int, cause := cause, val := val }) := by
  rw [exec_trapEntry]; unfold execTrapEntry; rw [hn]; try rfl
theorem now_interruptEntry {h : Nat} (hn : s.now = some (.interruptEntry h)) :
    exec .interruptEntry s = .next (if s.paused (h / 64) then s.taken.after 1 (.interruptEntry h) else s.taken.interruptNow h) := by
  rw [exec_interruptEntry]; unfold execInterruptEntry; rw [hn]; try rfl
theorem now_enginePageFault {h : Nat} (hn : s.now = some (.enginePageFault h)) :
    exec .enginePageFault s = .next (if s.paused (h / 64) then s.taken.after 1 (.enginePageFault h) else s.taken.engineNow h) := by
  rw [exec_enginePageFault]; unfold execEnginePageFault; rw [hn]; try rfl
theorem now_detectionTimerExpiry {p : Nat} {slot : Nat} {due : Nat} (hn : s.now = some (.detectionTimerExpiry p slot due)) :
    exec .detectionTimerExpiry s = .next (s.taken.detect p slot due) := by
  rw [exec_detectionTimerExpiry]; unfold execDetectionTimerExpiry; rw [hn]; try rfl
theorem now_uncorrectableError {site : ErrSite} (hn : s.now = some (.uncorrectableError site)) :
    exec .uncorrectableError s = .next (s.taken.errorAt site) := by
  rw [exec_uncorrectableError]; unfold execUncorrectableError; rw [hn]; try rfl
theorem now_finjWrite {L : Nat} {fromM : Bool} {v : Word} (hn : s.now = some (.finjWrite L fromM v)) :
    exec .finjWrite s = .next (s.taken.writeFinj L fromM v) := by
  rw [exec_finjWrite]; unfold execFinjWrite; rw [hn]; try rfl
theorem now_finjRead {L : Nat} (hn : s.now = some (.finjRead L)) :
    exec .finjRead s = .next ((s.taken.emit (.data (s.core L).finj)).clearFinj L) := by
  rw [exec_finjRead]; unfold execFinjRead; rw [hn]; try rfl
theorem now_hcdataWrite {a : Nat} {v : Word} (hn : s.now = some (.hcdataWrite a v)) :
    exec .hcdataWrite s = .next (match hubReg a with | some r => s.taken.hubWrite r v | none => s.taken) := by
  rw [exec_hcdataWrite]; unfold execHcdataWrite; rw [hn]; try rfl
theorem now_hubWindowWrite {fn : Nat} {off : Nat} {n : Nat} {v : Word} {posted : Bool} (hn : s.now = some (.hubWindowWrite fn off n v posted)) :
    exec .hubWindowWrite s = .next (s.taken.hostBarWrite fn off n v posted) := by
  rw [exec_hubWindowWrite]; unfold execHubWindowWrite; rw [hn]; try rfl
theorem now_ptrootWrite {p : Nat} {v : Word} (hn : s.now = some (.ptrootWrite p v)) :
    exec .ptrootWrite s = .next (if p < 64 then s.taken.putPtroot p v else s.taken) := by
  rw [exec_ptrootWrite]; unfold execPtrootWrite; rw [hn]; try rfl
theorem now_tlbinvWrite {p : Nat} {v : Word} (hn : s.now = some (.tlbinvWrite p v)) :
    exec .tlbinvWrite s = .next (if p < 64 then s.taken.putTlbinv p v else s.taken) := by
  rw [exec_tlbinvWrite]; unfold execTlbinvWrite; rw [hn]; try rfl
theorem now_boostlvlWrite {h : Nat} {v : Word} (hn : s.now = some (.boostlvlWrite h v)) :
    exec .boostlvlWrite s = .next (s.taken.writeBoost h v) := by
  rw [exec_boostlvlWrite]; unfold execBoostlvlWrite; rw [hn]; try rfl
theorem now_ppoolWrite {t : Nat} {v : Word} (hn : s.now = some (.ppoolWrite t v)) :
    exec .ppoolWrite s = .next (if t < 16 then s.taken.hubWrite (.ppool t) v else s.taken) := by
  rw [exec_ppoolWrite]; unfold execPpoolWrite; rw [hn]; try rfl
theorem now_hostCxlMemWrite {line : Nat} {data : BitVec 512} (hn : s.now = some (.hostCxlMemWrite line data)) :
    exec .hostCxlMemWrite s = .next (s.taken.hostWrite line data) := by
  rw [exec_hostCxlMemWrite]; unfold execHostCxlMemWrite; rw [hn]; try rfl
theorem now_hostCxlMemRead {line : Nat} (hn : s.now = some (.hostCxlMemRead line)) :
    exec .hostCxlMemRead s = .next (s.taken.hostRead line) := by
  rw [exec_hostCxlMemRead]; unfold execHostCxlMemRead; rw [hn]; try rfl
theorem now_launchWindowWrite {t : Nat} {k : Nat} {first : Nat} {ws : List Word} {posted : Bool} (hn : s.now = some (.launchWindowWrite t k first ws posted)) :
    exec .launchWindowWrite s = .next (s.taken.windowWrite t k first ws posted) := by
  rw [exec_launchWindowWrite]; unfold execLaunchWindowWrite; rw [hn]; try rfl
theorem now_hostBarInvalidAccess {fn : Nat} {off : Nat} {n : Nat} {posted : Bool} (hn : s.now = some (.hostBarInvalidAccess fn off n posted)) :
    exec .hostBarInvalidAccess s = .next (s.taken.hostInvalid fn off n posted) := by
  rw [exec_hostBarInvalidAccess]; unfold execHostBarInvalidAccess; rw [hn]; try rfl
theorem now_vfFunctionLevelReset {t : Nat} (hn : s.now = some (.vfFunctionLevelReset t)) :
    exec .vfFunctionLevelReset s = .next (s.taken.flrBegin t) := by
  rw [exec_vfFunctionLevelReset]; unfold execVfFunctionLevelReset; rw [hn]; try rfl
theorem now_vfResetEnd {t : Nat} (hn : s.now = some (.vfResetEnd t)) :
    exec .vfResetEnd s = .next (s.taken.flrEnd t) := by
  rw [exec_vfResetEnd]; unfold execVfResetEnd; rw [hn]; try rfl
theorem now_spartWrite {n : Nat} {v : Word} (hn : s.now = some (.spartWrite n v)) :
    exec .spartWrite s = .next (if n < 160 then s.taken.writeSpart n v else s.taken) := by
  rw [exec_spartWrite]; unfold execSpartWrite; rw [hn]; try rfl
theorem now_partitionControllerStep (hn : s.now = some .partitionControllerStep) :
    exec .partitionControllerStep s = .next (s.taken.controllerStep) := by
  rw [exec_partitionControllerStep]; unfold execPartitionControllerStep; rw [hn]; try rfl
theorem now_regulatorSlewEnd {n : Nat} (hn : s.now = some (.regulatorSlewEnd n)) :
    exec .regulatorSlewEnd s = .next (s.taken.slewEnd n) := by
  rw [exec_regulatorSlewEnd]; unfold execRegulatorSlewEnd; rw [hn]; try rfl
theorem now_tratioWindowEnd (hn : s.now = some .tratioWindowEnd) :
    exec .tratioWindowEnd s = .next s.taken := by
  rw [exec_tratioWindowEnd]; unfold execTratioWindowEnd; rw [hn]; try rfl
theorem now_waitCExpiry {h : Nat} (hn : s.now = some (.waitCExpiry h)) :
    exec .waitCExpiry s = .next (match (s.ctx h).wait with
      | .cycles n => if (s.ctx h).st = .waiting && (s.ctx h).waitOk && n ≤ s.cycles (h / 4) then s.taken.wakeHere h else s.taken
      | _ => s.taken) := by
  rw [exec_waitCExpiry]; unfold execWaitCExpiry; rw [hn]; try rfl
theorem now_waitTExpiry {h : Nat} (hn : s.now = some (.waitTExpiry h)) :
    exec .waitTExpiry s = .next (match (s.ctx h).wait with
      | .time t => if (s.ctx h).st = .waiting && (s.ctx h).waitOk && t ≤ s.localTime (h / 4) && !s.paused (h / 64) then s.taken.wakeHere h else s.taken
      | _ => s.taken) := by
  rw [exec_waitTExpiry]; unfold execWaitTExpiry; rw [hn]; try rfl
theorem now_boostRequestSample (hn : s.now = some .boostRequestSample) :
    exec .boostRequestSample s = .next s.taken.sampleAll := by
  rw [exec_boostRequestSample]; unfold execBoostRequestSample; rw [hn]; try rfl
theorem now_permitBoundary (hn : s.now = some .permitBoundary) :
    exec .permitBoundary s = .next s.taken.permitAll := by
  rw [exec_permitBoundary]; unfold execPermitBoundary; rw [hn]; try rfl
theorem now_controllerStep (hn : s.now = some .controllerStep) :
    exec .controllerStep s = .next s.taken.controlAll := by
  rw [exec_controllerStep]; unfold execControllerStep; rw [hn]; try rfl
theorem now_admissionRequest {h : Nat} (hn : s.now = some (.admissionRequest h)) :
    exec .admissionRequest s = .next (s.taken.admitFresh (h / 64) (s.sorus (h / 64)).admq.length) := by
  rw [exec_admissionRequest]; unfold execAdmissionRequest; rw [hn]; try rfl
theorem now_ballastLimit {n : Nat} (hn : s.now = some (.ballastLimit n)) :
    exec .ballastLimit s = .next (if s.gtime < (s.sorus n).ballastAt + 2000 then s.taken else s.taken.setSorus n { s.sorus n with ballast := false }) := by
  rw [exec_ballastLimit]; unfold execBallastLimit; rw [hn]; try rfl
theorem now_exitGroupRelease {p : Nat} {slot : Nat} {grp : Nat} {gang : Bool} (hn : s.now = some (.exitGroupRelease p slot grp gang)) :
    exec .exitGroupRelease s = .next (if gang then s.taken.gangRelease p slot grp else s.taken.lbarRelease p slot grp) := by
  rw [exec_exitGroupRelease]; unfold execExitGroupRelease; rw [hn]; try rfl
theorem now_ownerRequestArrival {id : Nat} (hn : s.now = some (.ownerRequestArrival id)) :
    exec .ownerRequestArrival s = .next (s.taken.ownerArrive id) := by
  rw [exec_ownerRequestArrival]; unfold execOwnerRequestArrival; rw [hn]; try rfl
theorem now_replyArrival {id : Nat} (hn : s.now = some (.replyArrival id)) :
    exec .replyArrival s = .next (s.taken.replyCome id) := by
  rw [exec_replyArrival]; unfold execReplyArrival; rw [hn]; try rfl
theorem now_resultCacheRetirement {n : Nat} (hn : s.now = some (.resultCacheRetirement n)) :
    exec .resultCacheRetirement s = .next (s.taken.retireCache n) := by
  rw [exec_resultCacheRetirement]; unfold execResultCacheRetirement; rw [hn]; try rfl
theorem now_retransmission {rid : Nat} (hn : s.now = some (.retransmission rid)) :
    exec .retransmission s = .next (s.taken.resend rid) := by
  rw [exec_retransmission]; unfold execRetransmission; rw [hn]; try rfl
theorem now_requestLastDeadline {rid : Nat} (hn : s.now = some (.requestLastDeadline rid)) :
    exec .requestLastDeadline s = .next (s.taken.lastDeadline rid) := by
  rw [exec_requestLastDeadline]; unfold execRequestLastDeadline; rw [hn]; try rfl
theorem now_serialWrapRelease {rid : Nat} (hn : s.now = some (.serialWrapRelease rid)) :
    exec .serialWrapRelease s = .next (s.taken.wrapRelease rid) := by
  rw [exec_serialWrapRelease]; unfold execSerialWrapRelease; rw [hn]; try rfl
theorem now_messageArrival {id : Nat} (hn : s.now = some (.messageArrival id)) :
    exec .messageArrival s = .next (s.taken.arriveMsg id) := by
  rw [exec_messageArrival]; unfold execMessageArrival; rw [hn]; try rfl
theorem now_messageSendRelease {id : Nat} (hn : s.now = some (.messageSendRelease id)) :
    exec .messageSendRelease s = .next (s.taken.releaseMsg id) := by
  rw [exec_messageSendRelease]; unfold execMessageSendRelease; rw [hn]; try rfl
theorem now_postGo {L : Nat} {v : Word} (hn : s.now = some (.postGo L v)) :
    exec .postGo s = .next (if L < 2560 then s.taken.hubWrite (.chpost L 2) v else s.taken) := by
  rw [exec_postGo]; unfold execPostGo; rw [hn]; try rfl
theorem now_hteHubWrite {L : Nat} {n : Nat} {v : Word} (hn : s.now = some (.hteHubWrite L n v)) :
    exec .hteHubWrite s = .next (if L < 2560 && n < 16 then s.taken.hubWrite (.hte L n) v else s.taken) := by
  rw [exec_hteHubWrite]; unfold execHteHubWrite; rw [hn]; try rfl
theorem now_scanDrainEnd {L : Nat} (hn : s.now = some (.scanDrainEnd L)) :
    exec .scanDrainEnd s = .next (s.taken.drainEnd L) := by
  rw [exec_scanDrainEnd]; unfold execScanDrainEnd; rw [hn]; try rfl
theorem now_scanDrainTimeout {a0 : Nat} {sid : Nat} (hn : s.now = some (.scanDrainTimeout a0 sid)) :
    exec .scanDrainTimeout s = .next (if (tget? s.flight.scans sid).any (fun k => k.state = 1) then s.taken.scanFinish sid 5 0 else s.taken) := by
  rw [exec_scanDrainTimeout]; unfold execScanDrainTimeout; rw [hn]; try rfl
theorem now_scanPatternEnd {L : Nat} {sid : Nat} (hn : s.now = some (.scanPatternEnd L sid)) :
    exec .scanPatternEnd s = .next (s.taken.patternEnd L sid) := by
  rw [exec_scanPatternEnd]; unfold execScanPatternEnd; rw [hn]; try rfl
theorem now_returnToService {L : Nat} (hn : s.now = some (.returnToService L)) :
    exec .returnToService s = .next (if (s.core L).test != .none && (s.scanOn L).isNone then (s.taken.coreEndPhase L).serve L else s.taken) := by
  rw [exec_returnToService]; unfold execReturnToService; rw [hn]; try rfl
theorem now_lcmapAbsentSet {L : Nat} (hn : s.now = some (.lcmapAbsentSet L)) :
    exec .lcmapAbsentSet s = .next (s.taken.mapRemove L) := by
  rw [exec_lcmapAbsentSet]; unfold execLcmapAbsentSet; rw [hn]; try rfl
theorem now_lcmapAbsentClear {L : Nat} (hn : s.now = some (.lcmapAbsentClear L)) :
    exec .lcmapAbsentClear s = .next (s.taken.mapAdd L) := by
  rw [exec_lcmapAbsentClear]; unfold execLcmapAbsentClear; rw [hn]; try rfl
theorem now_grant (hn : s.now = some .grant) :
    exec .grant s = .next s.taken.grantNext := by
  rw [exec_grant]; unfold execGrant; rw [hn]; try rfl
theorem now_broadcastArrival {L : Nat} (hn : s.now = some (.broadcastArrival L)) :
    exec .broadcastArrival s = .next (if s.paused (L / 16) then s.taken.after 1 (.broadcastArrival L) else s.taken.processBroadcast L) := by
  rw [exec_broadcastArrival]; unfold execBroadcastArrival; rw [hn]; try rfl
theorem now_drainComplete {h : Nat} (hn : s.now = some (.drainComplete h)) :
    exec .drainComplete s = .next (s.taken.drainDone h) := by
  rw [exec_drainComplete]; unfold execDrainComplete; rw [hn]; try rfl
theorem now_localCommit {h : Nat} (hn : s.now = some (.localCommit h)) :
    exec .localCommit s = .next (s.taken.localDone h) := by
  rw [exec_localCommit]; unfold execLocalCommit; rw [hn]; try rfl
theorem now_reservationTimeout {h : Nat} {since : Nat} (hn : s.now = some (.reservationTimeout h since)) :
    exec .reservationTimeout s = .next (if s.thallus.resvs.any (fun r => r.h = h && r.active && r.since = since) then s.taken.dropResv h else s.taken) := by
  rw [exec_reservationTimeout]; unfold execReservationTimeout; rw [hn]; try rfl
theorem now_loadDataReturn {h : Nat} (hn : s.now = some (.loadDataReturn h)) :
    exec .loadDataReturn s = .next (s.taken.dataBack h) := by
  rw [exec_loadDataReturn]; unfold execLoadDataReturn; rw [hn]; try rfl
end

end Sys2Proof.Machine
end

