-- ==== Sys2Proof/Laws/Fields.lean ====
section
/-! SUPPORT. What the fields of a packed word are (R217, R218, R219): one lemma for each field of each layout, and the
codes of the types read back. -/

namespace Sys2Proof.Laws

open Sys2Proof

/-- A field that lies in the lower part. -/
theorem extract_low {n m s l : Nat} (x : BitVec n) (y : BitVec m) (h : s + l ≤ m) :
    (x ++ y).extractLsb' s l = y.extractLsb' s l := BitVec.extractLsb'_append_eq_of_add_le h

/-- A field that lies in the upper part. -/
theorem extract_high {n m s l : Nat} (x : BitVec n) (y : BitVec m) (h : m ≤ s) :
    (x ++ y).extractLsb' s l = x.extractLsb' (s - m) l := BitVec.extractLsb'_append_eq_of_le h

/-- Two neighbouring fields joined. -/
theorem extract_join {n : Nat} (x : BitVec n) (s k l : Nat) :
    x.extractLsb' (s + k) l ++ x.extractLsb' s k = x.extractLsb' s (l + k) := by
  ext i hi
  simp only [BitVec.getElem_append, BitVec.getElem_extractLsb']
  split
  · rfl
  · congr 1; omega

section
variable (f m b a d : BitVec 5) (op : BitVec 7)

@[simp] theorem fieldF_packC : fieldF (packC f m b a d op) = f := by
  unfold fieldF packC; simp (disch := omega) only [extract_high]; simp
@[simp] theorem fieldM_packC : fieldM (packC f m b a d op) = m := by
  unfold fieldM packC; simp (disch := omega) only [extract_high, extract_low]; simp
@[simp] theorem fieldB_packC : fieldB (packC f m b a d op) = b := by
  unfold fieldB packC; simp (disch := omega) only [extract_high, extract_low]; simp
@[simp] theorem fieldA_packC : fieldA (packC f m b a d op) = a := by
  unfold fieldA packC; simp (disch := omega) only [extract_high, extract_low]; simp
@[simp] theorem fieldD_packC : fieldD (packC f m b a d op) = d := by
  unfold fieldD packC; simp (disch := omega) only [extract_high, extract_low]; simp
@[simp] theorem fieldOp_packC : fieldOp (packC f m b a d op) = op := by
  unfold fieldOp packC; simp (disch := omega) only [extract_low]; simp
end

section
variable (f7 : BitVec 7) (s2 s1 : BitVec 5) (f3 : BitVec 3) (d : BitVec 5) (op : BitVec 7)

@[simp] theorem fieldF7_packR : fieldF7 (packR f7 s2 s1 f3 d op) = f7 := by
  unfold fieldF7 packR; simp (disch := omega) only [extract_high]; simp
@[simp] theorem fieldS2_packR : fieldS2 (packR f7 s2 s1 f3 d op) = s2 := by
  unfold fieldS2 packR; simp (disch := omega) only [extract_high, extract_low]; simp
@[simp] theorem fieldS1_packR : fieldS1 (packR f7 s2 s1 f3 d op) = s1 := by
  unfold fieldS1 packR; simp (disch := omega) only [extract_high, extract_low]; simp
@[simp] theorem fieldF3_packR : fieldF3 (packR f7 s2 s1 f3 d op) = f3 := by
  unfold fieldF3 packR; simp (disch := omega) only [extract_high, extract_low]; simp
@[simp] theorem fieldD_packR : fieldD (packR f7 s2 s1 f3 d op) = d := by
  unfold fieldD packR; simp (disch := omega) only [extract_high, extract_low]; simp
@[simp] theorem fieldOp_packR : fieldOp (packR f7 s2 s1 f3 d op) = op := by
  unfold fieldOp packR; simp (disch := omega) only [extract_low]; simp
end

/-! ### Format I with its immediate as one field or as two -/

section
variable (i : BitVec 12) (s : Reg) (f3 : BitVec 3) (d : Reg) (op : BitVec 7)

@[simp] theorem fieldOp_encI : fieldOp (encI i s f3 d op) = op := fieldOp_packR ..
@[simp] theorem fieldD_encI : fieldD (encI i s f3 d op) = d := fieldD_packR ..
@[simp] theorem fieldF3_encI : fieldF3 (encI i s f3 d op) = f3 := fieldF3_packR ..
@[simp] theorem fieldS1_encI : fieldS1 (encI i s f3 d op) = s := fieldS1_packR ..
@[simp] theorem imm_encI : fieldF7 (encI i s f3 d op) ++ fieldS2 (encI i s f3 d op) = i := by
  unfold encI; rw [fieldF7_packR, fieldS2_packR]; exact (extract_join i 0 5 7).trans (by simp)
@[simp] theorem high_encI : (encI i s f3 d op).extractLsb' 26 6 = i.extractLsb' 6 6 := by
  unfold encI packR; rw [extract_high _ _ (by omega)]
  ext j hj; simp only [BitVec.getElem_extractLsb', BitVec.getLsbD_extractLsb']
  rw [show 5 + (26 - (5 + (5 + (3 + (5 + 7)))) + j) = 6 + j by omega]
  simp; omega
@[simp] theorem low_encI : (encI i s f3 d op).extractLsb' 20 6 = i.extractLsb' 0 6 := by
  unfold encI packR
  ext j hj
  simp only [BitVec.getElem_extractLsb', BitVec.getLsbD_append, BitVec.getLsbD_extractLsb']
  by_cases h : j < 5
  · rw [if_pos (by omega), if_neg (by omega)]; simp [h, show 20 + j - (5 + (3 + (5 + 7))) = j by omega]
  · have : j = 5 := by omega
    subst this; simp
theorem hi66 (h l : BitVec 6) : BitVec.extractLsb' (n := 12) 6 6 (h ++ l) = h := BitVec.extractLsb'_append_eq_left
theorem lo66 (h l : BitVec 6) : BitVec.extractLsb' (n := 12) 0 6 (h ++ l) = l := BitVec.extractLsb'_append_eq_right
theorem split_imm : i.extractLsb' 6 6 ++ i.extractLsb' 0 6 = i := by
  exact (extract_join i 0 6 6).trans (by simp)
end

/-! ### Formats S, B, U, J and FENCE -/

section
variable (i : BitVec 12) (t s : Reg) (f3 : BitVec 3) (j : BitVec 20) (d : Reg) (op : BitVec 7)

@[simp] theorem fieldOp_encS : fieldOp (encS i t s f3) = 0x23 := fieldOp_packR ..
@[simp] theorem fieldF3_encS : fieldF3 (encS i t s f3) = f3 := fieldF3_packR ..
@[simp] theorem fieldS1_encS : fieldS1 (encS i t s f3) = s := fieldS1_packR ..
@[simp] theorem fieldS2_encS : fieldS2 (encS i t s f3) = t := fieldS2_packR ..
@[simp] theorem imm_encS : fieldF7 (encS i t s f3) ++ fieldD (encS i t s f3) = i := by
  unfold encS; rw [fieldF7_packR, fieldD_packR]; exact (extract_join i 0 5 7).trans (by simp)

theorem immB_parts : immB (immBHi i) (immBLo i) = i := by
  unfold immB immBHi immBLo
  ext k hk
  simp only [BitVec.getElem_append, BitVec.getElem_extractLsb', BitVec.getLsbD_append, BitVec.getLsbD_extractLsb']
  rcases (show k = 0 ∨ k = 1 ∨ k = 2 ∨ k = 3 ∨ k = 4 ∨ k = 5 ∨ k = 6 ∨ k = 7 ∨ k = 8 ∨ k = 9 ∨ k = 10 ∨ k = 11 by omega)
    with h | h | h | h | h | h | h | h | h | h | h | h <;> subst h <;> simp [BitVec.getLsbD_eq_getElem]

@[simp] theorem fieldOp_encB : fieldOp (encB i t s f3) = 0x63 := fieldOp_packR ..
@[simp] theorem fieldF3_encB : fieldF3 (encB i t s f3) = f3 := fieldF3_packR ..
@[simp] theorem fieldS1_encB : fieldS1 (encB i t s f3) = s := fieldS1_packR ..
@[simp] theorem fieldS2_encB : fieldS2 (encB i t s f3) = t := fieldS2_packR ..
@[simp] theorem imm_encB : immB (fieldF7 (encB i t s f3)) (fieldD (encB i t s f3)) = i := by
  unfold encB; rw [fieldF7_packR, fieldD_packR, immB_parts]

@[simp] theorem immJ_parts : immJ (immJBits j) = j := by
  unfold immJ immJBits
  ext k hk
  simp only [BitVec.getElem_append, BitVec.getElem_extractLsb', BitVec.getLsbD_append, BitVec.getLsbD_extractLsb']
  rcases (show k = 0 ∨ k = 1 ∨ k = 2 ∨ k = 3 ∨ k = 4 ∨ k = 5 ∨ k = 6 ∨ k = 7 ∨ k = 8 ∨ k = 9 ∨ k = 10 ∨ k = 11 ∨ k = 12 ∨
      k = 13 ∨ k = 14 ∨ k = 15 ∨ k = 16 ∨ k = 17 ∨ k = 18 ∨ k = 19 by omega)
    with h | h | h | h | h | h | h | h | h | h | h | h | h | h | h | h | h | h | h | h <;> subst h <;>
    simp [BitVec.getLsbD_eq_getElem]

@[simp] theorem fieldOp_encU : fieldOp (encU j d op) = op := by
  unfold fieldOp encU; simp (disch := omega) only [extract_low]; simp
@[simp] theorem fieldD_encU : fieldD (encU j d op) = d := by
  unfold fieldD encU; simp (disch := omega) only [extract_high, extract_low]; simp
@[simp] theorem imm_encU : (encU j d op).extractLsb' 12 20 = j := by
  unfold encU; simp (disch := omega) only [extract_high]; simp
end

section
variable (fm p q : BitVec 4) (s d : Reg)

/-- The word of FENCE decodes to it, whatever its fields (R245). -/
theorem decode_fence : decodeWord (fm ++ (p ++ (q ++ (s ++ ((0 : BitVec 3) ++ (d ++ (0x0F : BitVec 7))))))) = .ok (.fence fm p q s d) := by
  have h0 : fieldOp (fm ++ (p ++ (q ++ (s ++ ((0 : BitVec 3) ++ (d ++ (0x0F : BitVec 7))))))) = 0x0F := by
    unfold fieldOp; simp (disch := omega) only [extract_low]; rfl
  have h1 : fieldF3 (fm ++ (p ++ (q ++ (s ++ ((0 : BitVec 3) ++ (d ++ (0x0F : BitVec 7))))))) = 0 := by
    unfold fieldF3; simp (disch := omega) only [extract_high, extract_low]; rfl
  have h2 : fieldS1 (fm ++ (p ++ (q ++ (s ++ ((0 : BitVec 3) ++ (d ++ (0x0F : BitVec 7))))))) = s := by
    unfold fieldS1; simp (disch := omega) only [extract_high, extract_low]; simp
  have h3 : fieldD (fm ++ (p ++ (q ++ (s ++ ((0 : BitVec 3) ++ (d ++ (0x0F : BitVec 7))))))) = d := by
    unfold fieldD; simp (disch := omega) only [extract_high, extract_low]; simp
  have h4 : BitVec.extractLsb' (n := 32) 28 4 (fm ++ (p ++ (q ++ (s ++ ((0 : BitVec 3) ++ (d ++ (0x0F : BitVec 7))))))) = fm := by
    rw [extract_high _ _ (by omega)]; simp
  have h5 : BitVec.extractLsb' (n := 32) 24 4 (fm ++ (p ++ (q ++ (s ++ ((0 : BitVec 3) ++ (d ++ (0x0F : BitVec 7))))))) = p := by
    rw [extract_low _ _ (by omega), extract_high _ _ (by omega)]; simp
  have h6 : BitVec.extractLsb' (n := 32) 20 4 (fm ++ (p ++ (q ++ (s ++ ((0 : BitVec 3) ++ (d ++ (0x0F : BitVec 7))))))) = q := by
    rw [extract_low _ _ (by omega), extract_low _ _ (by omega), extract_high _ _ (by omega)]; simp
  unfold decodeWord
  simp only [h0, h1, h2, h3, h4, h5, h6]
  simp
end

/-! ### Parts of a 5-bit field (R218, R219) -/

@[simp] theorem top2_fld3 (u : BitVec 2) (r : Reg3) : top2 (fld3 u r) = u := BitVec.extractLsb'_append_eq_left
@[simp] theorem low3_fld3 (u : BitVec 2) (r : Reg3) : low3 (fld3 u r) = r := BitVec.extractLsb'_append_eq_right
@[simp] theorem top3_fldG (g : BitVec 3) (t : BitVec 2) : top3 (fldG g t) = g := BitVec.extractLsb'_append_eq_left
@[simp] theorem low2_fldG (g : BitVec 3) (t : BitVec 2) : low2 (fldG g t) = t := BitVec.extractLsb'_append_eq_right
@[simp] theorem top4_fld41 (h : BitVec 4) (l : Bool) : top4 (fld41 h l) = h := BitVec.extractLsb'_append_eq_left
@[simp] theorem bit0_fld41 (h : BitVec 4) (l : Bool) : bitAt (fld41 h l) 0 = l := by
  cases l <;> exact BitVec.getLsbD_append.trans rfl
@[simp] theorem low4_fld14 (h : Bool) (l : BitVec 4) : low4 (fld14 h l) = l := BitVec.extractLsb'_append_eq_right
@[simp] theorem bit4_fld14 (h : Bool) (l : BitVec 4) : bitAt (fld14 h l) 4 = h := by
  cases h <;> exact BitVec.getLsbD_append.trans rfl

/-! ### Codes of the types (R168, R220, R221, R225, R227) -/

@[simp] theorem decITy_encITy (t : ITy) : decITy (encITy t) = t := by cases t <;> rfl
@[simp] theorem decFTy_encFTy (t : FTy) : decFTy (encFTy t) = some t := by cases t <;> rfl
@[simp] theorem decTy3_encTy3 (t : Ty3) : decTy3 (encTy3 t) = t := by cases t <;> rfl
@[simp] theorem decMode_encMode (m : RMode) : decMode (encMode m) = m := by cases m <;> rfl
@[simp] theorem decPair_encPair (p : Pair) : decPair (encPair p) = some p := by cases p <;> rfl
@[simp] theorem decBcast_encBcast (k : BcastW) : decBcast (encBcast k) = k := by cases k <;> rfl

end Sys2Proof.Laws
end

