-- ==== Sys2Proof/Laws/State.lean ====
section
/-! SUPPORT. What each update of the state leaves in each field: one lemma for each field and each update, true by rfl, and
what the accessors of the units read after an update. -/

namespace Sys2Proof.Machine

section
variable (s : State)

@[simp] theorem setCtx_mem (h : Nat) (c : Ctx) : (s.setCtx h c).mem = s.mem := rfl
@[simp] theorem setCtx_auxs (h : Nat) (c : Ctx) : (s.setCtx h c).auxs = s.auxs := rfl
@[simp] theorem setCtx_cores (h : Nat) (c : Ctx) : (s.setCtx h c).cores = s.cores := rfl
@[simp] theorem setCtx_sori (h : Nat) (c : Ctx) : (s.setCtx h c).sori = s.sori := rfl
@[simp] theorem setCtx_saux (h : Nat) (c : Ctx) : (s.setCtx h c).saux = s.saux := rfl
@[simp] theorem setCtx_parts (h : Nat) (c : Ctx) : (s.setCtx h c).parts = s.parts := rfl
@[simp] theorem setCtx_slots (h : Nat) (c : Ctx) : (s.setCtx h c).slots = s.slots := rfl
@[simp] theorem setCtx_hub (h : Nat) (c : Ctx) : (s.setCtx h c).hub = s.hub := rfl
@[simp] theorem setCtx_thallus (h : Nat) (c : Ctx) : (s.setCtx h c).thallus = s.thallus := rfl
@[simp] theorem setCtx_fabric (h : Nat) (c : Ctx) : (s.setCtx h c).fabric = s.fabric := rfl
@[simp] theorem setCtx_flight (h : Nat) (c : Ctx) : (s.setCtx h c).flight = s.flight := rfl
@[simp] theorem setCtx_gtime (h : Nat) (c : Ctx) : (s.setCtx h c).gtime = s.gtime := rfl
@[simp] theorem setCtx_running (h : Nat) (c : Ctx) : (s.setCtx h c).running = s.running := rfl
@[simp] theorem setCtx_cur (h : Nat) (c : Ctx) : (s.setCtx h c).cur = s.cur := rfl
@[simp] theorem setCtx_spent (h : Nat) (c : Ctx) : (s.setCtx h c).spent = s.spent := rfl
@[simp] theorem setCtx_idle (h : Nat) (c : Ctx) : (s.setCtx h c).idle = s.idle := rfl
@[simp] theorem setCtx_now (h : Nat) (c : Ctx) : (s.setCtx h c).now = s.now := rfl
@[simp] theorem setCtx_script (h : Nat) (c : Ctx) : (s.setCtx h c).script = s.script := rfl
@[simp] theorem setCtx_agenda (h : Nat) (c : Ctx) : (s.setCtx h c).agenda = s.agenda := rfl
@[simp] theorem setCtx_timers (h : Nat) (c : Ctx) : (s.setCtx h c).timers = s.timers := rfl
@[simp] theorem setCtx_out (h : Nat) (c : Ctx) : (s.setCtx h c).out = s.out := rfl
@[simp] theorem setCtx_fresh (h : Nat) (c : Ctx) : (s.setCtx h c).fresh = s.fresh := rfl
@[simp] theorem setCtx_aux (h : Nat) (c : Ctx) (j : Nat) : (s.setCtx h c).aux j = s.aux j := rfl
@[simp] theorem setCtx_core (h : Nat) (c : Ctx) (j : Nat) : (s.setCtx h c).core j = s.core j := rfl
@[simp] theorem setCtx_sorus (h : Nat) (c : Ctx) (j : Nat) : (s.setCtx h c).sorus j = s.sorus j := rfl
@[simp] theorem setCtx_sx (h : Nat) (c : Ctx) (j : Nat) : (s.setCtx h c).sx j = s.sx j := rfl
@[simp] theorem setCtx_part (h : Nat) (c : Ctx) (j : Nat) : (s.setCtx h c).part j = s.part j := rfl
@[simp] theorem setCtx_slot (h : Nat) (c : Ctx) (j : Nat) : (s.setCtx h c).slot j = s.slot j := rfl
@[simp] theorem setCtx_byte (h : Nat) (c : Ctx) (j : Nat) : (s.setCtx h c).byte j = s.byte j := rfl

@[simp] theorem setAux_mem (h : Nat) (c : CtxAux) : (s.setAux h c).mem = s.mem := rfl
@[simp] theorem setAux_ctxs (h : Nat) (c : CtxAux) : (s.setAux h c).ctxs = s.ctxs := rfl
@[simp] theorem setAux_cores (h : Nat) (c : CtxAux) : (s.setAux h c).cores = s.cores := rfl
@[simp] theorem setAux_sori (h : Nat) (c : CtxAux) : (s.setAux h c).sori = s.sori := rfl
@[simp] theorem setAux_saux (h : Nat) (c : CtxAux) : (s.setAux h c).saux = s.saux := rfl
@[simp] theorem setAux_parts (h : Nat) (c : CtxAux) : (s.setAux h c).parts = s.parts := rfl
@[simp] theorem setAux_slots (h : Nat) (c : CtxAux) : (s.setAux h c).slots = s.slots := rfl
@[simp] theorem setAux_hub (h : Nat) (c : CtxAux) : (s.setAux h c).hub = s.hub := rfl
@[simp] theorem setAux_thallus (h : Nat) (c : CtxAux) : (s.setAux h c).thallus = s.thallus := rfl
@[simp] theorem setAux_fabric (h : Nat) (c : CtxAux) : (s.setAux h c).fabric = s.fabric := rfl
@[simp] theorem setAux_flight (h : Nat) (c : CtxAux) : (s.setAux h c).flight = s.flight := rfl
@[simp] theorem setAux_gtime (h : Nat) (c : CtxAux) : (s.setAux h c).gtime = s.gtime := rfl
@[simp] theorem setAux_running (h : Nat) (c : CtxAux) : (s.setAux h c).running = s.running := rfl
@[simp] theorem setAux_cur (h : Nat) (c : CtxAux) : (s.setAux h c).cur = s.cur := rfl
@[simp] theorem setAux_spent (h : Nat) (c : CtxAux) : (s.setAux h c).spent = s.spent := rfl
@[simp] theorem setAux_idle (h : Nat) (c : CtxAux) : (s.setAux h c).idle = s.idle := rfl
@[simp] theorem setAux_now (h : Nat) (c : CtxAux) : (s.setAux h c).now = s.now := rfl
@[simp] theorem setAux_script (h : Nat) (c : CtxAux) : (s.setAux h c).script = s.script := rfl
@[simp] theorem setAux_agenda (h : Nat) (c : CtxAux) : (s.setAux h c).agenda = s.agenda := rfl
@[simp] theorem setAux_timers (h : Nat) (c : CtxAux) : (s.setAux h c).timers = s.timers := rfl
@[simp] theorem setAux_out (h : Nat) (c : CtxAux) : (s.setAux h c).out = s.out := rfl
@[simp] theorem setAux_fresh (h : Nat) (c : CtxAux) : (s.setAux h c).fresh = s.fresh := rfl
@[simp] theorem setAux_ctx (h : Nat) (c : CtxAux) (j : Nat) : (s.setAux h c).ctx j = s.ctx j := rfl
@[simp] theorem setAux_core (h : Nat) (c : CtxAux) (j : Nat) : (s.setAux h c).core j = s.core j := rfl
@[simp] theorem setAux_sorus (h : Nat) (c : CtxAux) (j : Nat) : (s.setAux h c).sorus j = s.sorus j := rfl
@[simp] theorem setAux_sx (h : Nat) (c : CtxAux) (j : Nat) : (s.setAux h c).sx j = s.sx j := rfl
@[simp] theorem setAux_part (h : Nat) (c : CtxAux) (j : Nat) : (s.setAux h c).part j = s.part j := rfl
@[simp] theorem setAux_slot (h : Nat) (c : CtxAux) (j : Nat) : (s.setAux h c).slot j = s.slot j := rfl
@[simp] theorem setAux_byte (h : Nat) (c : CtxAux) (j : Nat) : (s.setAux h c).byte j = s.byte j := rfl

@[simp] theorem setCore_mem (L : Nat) (c : CoreSt) : (s.setCore L c).mem = s.mem := rfl
@[simp] theorem setCore_ctxs (L : Nat) (c : CoreSt) : (s.setCore L c).ctxs = s.ctxs := rfl
@[simp] theorem setCore_auxs (L : Nat) (c : CoreSt) : (s.setCore L c).auxs = s.auxs := rfl
@[simp] theorem setCore_sori (L : Nat) (c : CoreSt) : (s.setCore L c).sori = s.sori := rfl
@[simp] theorem setCore_saux (L : Nat) (c : CoreSt) : (s.setCore L c).saux = s.saux := rfl
@[simp] theorem setCore_parts (L : Nat) (c : CoreSt) : (s.setCore L c).parts = s.parts := rfl
@[simp] theorem setCore_slots (L : Nat) (c : CoreSt) : (s.setCore L c).slots = s.slots := rfl
@[simp] theorem setCore_hub (L : Nat) (c : CoreSt) : (s.setCore L c).hub = s.hub := rfl
@[simp] theorem setCore_thallus (L : Nat) (c : CoreSt) : (s.setCore L c).thallus = s.thallus := rfl
@[simp] theorem setCore_fabric (L : Nat) (c : CoreSt) : (s.setCore L c).fabric = s.fabric := rfl
@[simp] theorem setCore_flight (L : Nat) (c : CoreSt) : (s.setCore L c).flight = s.flight := rfl
@[simp] theorem setCore_gtime (L : Nat) (c : CoreSt) : (s.setCore L c).gtime = s.gtime := rfl
@[simp] theorem setCore_running (L : Nat) (c : CoreSt) : (s.setCore L c).running = s.running := rfl
@[simp] theorem setCore_cur (L : Nat) (c : CoreSt) : (s.setCore L c).cur = s.cur := rfl
@[simp] theorem setCore_spent (L : Nat) (c : CoreSt) : (s.setCore L c).spent = s.spent := rfl
@[simp] theorem setCore_idle (L : Nat) (c : CoreSt) : (s.setCore L c).idle = s.idle := rfl
@[simp] theorem setCore_now (L : Nat) (c : CoreSt) : (s.setCore L c).now = s.now := rfl
@[simp] theorem setCore_script (L : Nat) (c : CoreSt) : (s.setCore L c).script = s.script := rfl
@[simp] theorem setCore_agenda (L : Nat) (c : CoreSt) : (s.setCore L c).agenda = s.agenda := rfl
@[simp] theorem setCore_timers (L : Nat) (c : CoreSt) : (s.setCore L c).timers = s.timers := rfl
@[simp] theorem setCore_out (L : Nat) (c : CoreSt) : (s.setCore L c).out = s.out := rfl
@[simp] theorem setCore_fresh (L : Nat) (c : CoreSt) : (s.setCore L c).fresh = s.fresh := rfl
@[simp] theorem setCore_ctx (L : Nat) (c : CoreSt) (j : Nat) : (s.setCore L c).ctx j = s.ctx j := rfl
@[simp] theorem setCore_aux (L : Nat) (c : CoreSt) (j : Nat) : (s.setCore L c).aux j = s.aux j := rfl
@[simp] theorem setCore_sorus (L : Nat) (c : CoreSt) (j : Nat) : (s.setCore L c).sorus j = s.sorus j := rfl
@[simp] theorem setCore_sx (L : Nat) (c : CoreSt) (j : Nat) : (s.setCore L c).sx j = s.sx j := rfl
@[simp] theorem setCore_part (L : Nat) (c : CoreSt) (j : Nat) : (s.setCore L c).part j = s.part j := rfl
@[simp] theorem setCore_slot (L : Nat) (c : CoreSt) (j : Nat) : (s.setCore L c).slot j = s.slot j := rfl
@[simp] theorem setCore_byte (L : Nat) (c : CoreSt) (j : Nat) : (s.setCore L c).byte j = s.byte j := rfl

@[simp] theorem setSorus_mem (n : Nat) (c : SorusSt) : (s.setSorus n c).mem = s.mem := rfl
@[simp] theorem setSorus_ctxs (n : Nat) (c : SorusSt) : (s.setSorus n c).ctxs = s.ctxs := rfl
@[simp] theorem setSorus_auxs (n : Nat) (c : SorusSt) : (s.setSorus n c).auxs = s.auxs := rfl
@[simp] theorem setSorus_cores (n : Nat) (c : SorusSt) : (s.setSorus n c).cores = s.cores := rfl
@[simp] theorem setSorus_saux (n : Nat) (c : SorusSt) : (s.setSorus n c).saux = s.saux := rfl
@[simp] theorem setSorus_parts (n : Nat) (c : SorusSt) : (s.setSorus n c).parts = s.parts := rfl
@[simp] theorem setSorus_slots (n : Nat) (c : SorusSt) : (s.setSorus n c).slots = s.slots := rfl
@[simp] theorem setSorus_hub (n : Nat) (c : SorusSt) : (s.setSorus n c).hub = s.hub := rfl
@[simp] theorem setSorus_thallus (n : Nat) (c : SorusSt) : (s.setSorus n c).thallus = s.thallus := rfl
@[simp] theorem setSorus_fabric (n : Nat) (c : SorusSt) : (s.setSorus n c).fabric = s.fabric := rfl
@[simp] theorem setSorus_flight (n : Nat) (c : SorusSt) : (s.setSorus n c).flight = s.flight := rfl
@[simp] theorem setSorus_gtime (n : Nat) (c : SorusSt) : (s.setSorus n c).gtime = s.gtime := rfl
@[simp] theorem setSorus_running (n : Nat) (c : SorusSt) : (s.setSorus n c).running = s.running := rfl
@[simp] theorem setSorus_cur (n : Nat) (c : SorusSt) : (s.setSorus n c).cur = s.cur := rfl
@[simp] theorem setSorus_spent (n : Nat) (c : SorusSt) : (s.setSorus n c).spent = s.spent := rfl
@[simp] theorem setSorus_idle (n : Nat) (c : SorusSt) : (s.setSorus n c).idle = s.idle := rfl
@[simp] theorem setSorus_now (n : Nat) (c : SorusSt) : (s.setSorus n c).now = s.now := rfl
@[simp] theorem setSorus_script (n : Nat) (c : SorusSt) : (s.setSorus n c).script = s.script := rfl
@[simp] theorem setSorus_agenda (n : Nat) (c : SorusSt) : (s.setSorus n c).agenda = s.agenda := rfl
@[simp] theorem setSorus_timers (n : Nat) (c : SorusSt) : (s.setSorus n c).timers = s.timers := rfl
@[simp] theorem setSorus_out (n : Nat) (c : SorusSt) : (s.setSorus n c).out = s.out := rfl
@[simp] theorem setSorus_fresh (n : Nat) (c : SorusSt) : (s.setSorus n c).fresh = s.fresh := rfl
@[simp] theorem setSorus_ctx (n : Nat) (c : SorusSt) (j : Nat) : (s.setSorus n c).ctx j = s.ctx j := rfl
@[simp] theorem setSorus_aux (n : Nat) (c : SorusSt) (j : Nat) : (s.setSorus n c).aux j = s.aux j := rfl
@[simp] theorem setSorus_core (n : Nat) (c : SorusSt) (j : Nat) : (s.setSorus n c).core j = s.core j := rfl
@[simp] theorem setSorus_sx (n : Nat) (c : SorusSt) (j : Nat) : (s.setSorus n c).sx j = s.sx j := rfl
@[simp] theorem setSorus_part (n : Nat) (c : SorusSt) (j : Nat) : (s.setSorus n c).part j = s.part j := rfl
@[simp] theorem setSorus_slot (n : Nat) (c : SorusSt) (j : Nat) : (s.setSorus n c).slot j = s.slot j := rfl
@[simp] theorem setSorus_byte (n : Nat) (c : SorusSt) (j : Nat) : (s.setSorus n c).byte j = s.byte j := rfl

@[simp] theorem setSx_mem (n : Nat) (c : SorusAux) : (s.setSx n c).mem = s.mem := rfl
@[simp] theorem setSx_ctxs (n : Nat) (c : SorusAux) : (s.setSx n c).ctxs = s.ctxs := rfl
@[simp] theorem setSx_auxs (n : Nat) (c : SorusAux) : (s.setSx n c).auxs = s.auxs := rfl
@[simp] theorem setSx_cores (n : Nat) (c : SorusAux) : (s.setSx n c).cores = s.cores := rfl
@[simp] theorem setSx_sori (n : Nat) (c : SorusAux) : (s.setSx n c).sori = s.sori := rfl
@[simp] theorem setSx_parts (n : Nat) (c : SorusAux) : (s.setSx n c).parts = s.parts := rfl
@[simp] theorem setSx_slots (n : Nat) (c : SorusAux) : (s.setSx n c).slots = s.slots := rfl
@[simp] theorem setSx_hub (n : Nat) (c : SorusAux) : (s.setSx n c).hub = s.hub := rfl
@[simp] theorem setSx_thallus (n : Nat) (c : SorusAux) : (s.setSx n c).thallus = s.thallus := rfl
@[simp] theorem setSx_fabric (n : Nat) (c : SorusAux) : (s.setSx n c).fabric = s.fabric := rfl
@[simp] theorem setSx_flight (n : Nat) (c : SorusAux) : (s.setSx n c).flight = s.flight := rfl
@[simp] theorem setSx_gtime (n : Nat) (c : SorusAux) : (s.setSx n c).gtime = s.gtime := rfl
@[simp] theorem setSx_running (n : Nat) (c : SorusAux) : (s.setSx n c).running = s.running := rfl
@[simp] theorem setSx_cur (n : Nat) (c : SorusAux) : (s.setSx n c).cur = s.cur := rfl
@[simp] theorem setSx_spent (n : Nat) (c : SorusAux) : (s.setSx n c).spent = s.spent := rfl
@[simp] theorem setSx_idle (n : Nat) (c : SorusAux) : (s.setSx n c).idle = s.idle := rfl
@[simp] theorem setSx_now (n : Nat) (c : SorusAux) : (s.setSx n c).now = s.now := rfl
@[simp] theorem setSx_script (n : Nat) (c : SorusAux) : (s.setSx n c).script = s.script := rfl
@[simp] theorem setSx_agenda (n : Nat) (c : SorusAux) : (s.setSx n c).agenda = s.agenda := rfl
@[simp] theorem setSx_timers (n : Nat) (c : SorusAux) : (s.setSx n c).timers = s.timers := rfl
@[simp] theorem setSx_out (n : Nat) (c : SorusAux) : (s.setSx n c).out = s.out := rfl
@[simp] theorem setSx_fresh (n : Nat) (c : SorusAux) : (s.setSx n c).fresh = s.fresh := rfl
@[simp] theorem setSx_ctx (n : Nat) (c : SorusAux) (j : Nat) : (s.setSx n c).ctx j = s.ctx j := rfl
@[simp] theorem setSx_aux (n : Nat) (c : SorusAux) (j : Nat) : (s.setSx n c).aux j = s.aux j := rfl
@[simp] theorem setSx_core (n : Nat) (c : SorusAux) (j : Nat) : (s.setSx n c).core j = s.core j := rfl
@[simp] theorem setSx_sorus (n : Nat) (c : SorusAux) (j : Nat) : (s.setSx n c).sorus j = s.sorus j := rfl
@[simp] theorem setSx_part (n : Nat) (c : SorusAux) (j : Nat) : (s.setSx n c).part j = s.part j := rfl
@[simp] theorem setSx_slot (n : Nat) (c : SorusAux) (j : Nat) : (s.setSx n c).slot j = s.slot j := rfl
@[simp] theorem setSx_byte (n : Nat) (c : SorusAux) (j : Nat) : (s.setSx n c).byte j = s.byte j := rfl

@[simp] theorem setPart_mem (p : Nat) (c : Part) : (s.setPart p c).mem = s.mem := rfl
@[simp] theorem setPart_ctxs (p : Nat) (c : Part) : (s.setPart p c).ctxs = s.ctxs := rfl
@[simp] theorem setPart_auxs (p : Nat) (c : Part) : (s.setPart p c).auxs = s.auxs := rfl
@[simp] theorem setPart_cores (p : Nat) (c : Part) : (s.setPart p c).cores = s.cores := rfl
@[simp] theorem setPart_sori (p : Nat) (c : Part) : (s.setPart p c).sori = s.sori := rfl
@[simp] theorem setPart_saux (p : Nat) (c : Part) : (s.setPart p c).saux = s.saux := rfl
@[simp] theorem setPart_slots (p : Nat) (c : Part) : (s.setPart p c).slots = s.slots := rfl
@[simp] theorem setPart_hub (p : Nat) (c : Part) : (s.setPart p c).hub = s.hub := rfl
@[simp] theorem setPart_thallus (p : Nat) (c : Part) : (s.setPart p c).thallus = s.thallus := rfl
@[simp] theorem setPart_fabric (p : Nat) (c : Part) : (s.setPart p c).fabric = s.fabric := rfl
@[simp] theorem setPart_flight (p : Nat) (c : Part) : (s.setPart p c).flight = s.flight := rfl
@[simp] theorem setPart_gtime (p : Nat) (c : Part) : (s.setPart p c).gtime = s.gtime := rfl
@[simp] theorem setPart_running (p : Nat) (c : Part) : (s.setPart p c).running = s.running := rfl
@[simp] theorem setPart_cur (p : Nat) (c : Part) : (s.setPart p c).cur = s.cur := rfl
@[simp] theorem setPart_spent (p : Nat) (c : Part) : (s.setPart p c).spent = s.spent := rfl
@[simp] theorem setPart_idle (p : Nat) (c : Part) : (s.setPart p c).idle = s.idle := rfl
@[simp] theorem setPart_now (p : Nat) (c : Part) : (s.setPart p c).now = s.now := rfl
@[simp] theorem setPart_script (p : Nat) (c : Part) : (s.setPart p c).script = s.script := rfl
@[simp] theorem setPart_agenda (p : Nat) (c : Part) : (s.setPart p c).agenda = s.agenda := rfl
@[simp] theorem setPart_timers (p : Nat) (c : Part) : (s.setPart p c).timers = s.timers := rfl
@[simp] theorem setPart_out (p : Nat) (c : Part) : (s.setPart p c).out = s.out := rfl
@[simp] theorem setPart_fresh (p : Nat) (c : Part) : (s.setPart p c).fresh = s.fresh := rfl
@[simp] theorem setPart_ctx (p : Nat) (c : Part) (j : Nat) : (s.setPart p c).ctx j = s.ctx j := rfl
@[simp] theorem setPart_aux (p : Nat) (c : Part) (j : Nat) : (s.setPart p c).aux j = s.aux j := rfl
@[simp] theorem setPart_core (p : Nat) (c : Part) (j : Nat) : (s.setPart p c).core j = s.core j := rfl
@[simp] theorem setPart_sorus (p : Nat) (c : Part) (j : Nat) : (s.setPart p c).sorus j = s.sorus j := rfl
@[simp] theorem setPart_sx (p : Nat) (c : Part) (j : Nat) : (s.setPart p c).sx j = s.sx j := rfl
@[simp] theorem setPart_slot (p : Nat) (c : Part) (j : Nat) : (s.setPart p c).slot j = s.slot j := rfl
@[simp] theorem setPart_byte (p : Nat) (c : Part) (j : Nat) : (s.setPart p c).byte j = s.byte j := rfl

@[simp] theorem setSlot_mem (t : Nat) (c : Slot) : (s.setSlot t c).mem = s.mem := rfl
@[simp] theorem setSlot_ctxs (t : Nat) (c : Slot) : (s.setSlot t c).ctxs = s.ctxs := rfl
@[simp] theorem setSlot_auxs (t : Nat) (c : Slot) : (s.setSlot t c).auxs = s.auxs := rfl
@[simp] theorem setSlot_cores (t : Nat) (c : Slot) : (s.setSlot t c).cores = s.cores := rfl
@[simp] theorem setSlot_sori (t : Nat) (c : Slot) : (s.setSlot t c).sori = s.sori := rfl
@[simp] theorem setSlot_saux (t : Nat) (c : Slot) : (s.setSlot t c).saux = s.saux := rfl
@[simp] theorem setSlot_parts (t : Nat) (c : Slot) : (s.setSlot t c).parts = s.parts := rfl
@[simp] theorem setSlot_hub (t : Nat) (c : Slot) : (s.setSlot t c).hub = s.hub := rfl
@[simp] theorem setSlot_thallus (t : Nat) (c : Slot) : (s.setSlot t c).thallus = s.thallus := rfl
@[simp] theorem setSlot_fabric (t : Nat) (c : Slot) : (s.setSlot t c).fabric = s.fabric := rfl
@[simp] theorem setSlot_flight (t : Nat) (c : Slot) : (s.setSlot t c).flight = s.flight := rfl
@[simp] theorem setSlot_gtime (t : Nat) (c : Slot) : (s.setSlot t c).gtime = s.gtime := rfl
@[simp] theorem setSlot_running (t : Nat) (c : Slot) : (s.setSlot t c).running = s.running := rfl
@[simp] theorem setSlot_cur (t : Nat) (c : Slot) : (s.setSlot t c).cur = s.cur := rfl
@[simp] theorem setSlot_spent (t : Nat) (c : Slot) : (s.setSlot t c).spent = s.spent := rfl
@[simp] theorem setSlot_idle (t : Nat) (c : Slot) : (s.setSlot t c).idle = s.idle := rfl
@[simp] theorem setSlot_now (t : Nat) (c : Slot) : (s.setSlot t c).now = s.now := rfl
@[simp] theorem setSlot_script (t : Nat) (c : Slot) : (s.setSlot t c).script = s.script := rfl
@[simp] theorem setSlot_agenda (t : Nat) (c : Slot) : (s.setSlot t c).agenda = s.agenda := rfl
@[simp] theorem setSlot_timers (t : Nat) (c : Slot) : (s.setSlot t c).timers = s.timers := rfl
@[simp] theorem setSlot_out (t : Nat) (c : Slot) : (s.setSlot t c).out = s.out := rfl
@[simp] theorem setSlot_fresh (t : Nat) (c : Slot) : (s.setSlot t c).fresh = s.fresh := rfl
@[simp] theorem setSlot_ctx (t : Nat) (c : Slot) (j : Nat) : (s.setSlot t c).ctx j = s.ctx j := rfl
@[simp] theorem setSlot_aux (t : Nat) (c : Slot) (j : Nat) : (s.setSlot t c).aux j = s.aux j := rfl
@[simp] theorem setSlot_core (t : Nat) (c : Slot) (j : Nat) : (s.setSlot t c).core j = s.core j := rfl
@[simp] theorem setSlot_sorus (t : Nat) (c : Slot) (j : Nat) : (s.setSlot t c).sorus j = s.sorus j := rfl
@[simp] theorem setSlot_sx (t : Nat) (c : Slot) (j : Nat) : (s.setSlot t c).sx j = s.sx j := rfl
@[simp] theorem setSlot_part (t : Nat) (c : Slot) (j : Nat) : (s.setSlot t c).part j = s.part j := rfl
@[simp] theorem setSlot_byte (t : Nat) (c : Slot) (j : Nat) : (s.setSlot t c).byte j = s.byte j := rfl

@[simp] theorem setHart_mem (c : Ctx) : (s.setHart c).mem = s.mem := rfl
@[simp] theorem setHart_auxs (c : Ctx) : (s.setHart c).auxs = s.auxs := rfl
@[simp] theorem setHart_cores (c : Ctx) : (s.setHart c).cores = s.cores := rfl
@[simp] theorem setHart_sori (c : Ctx) : (s.setHart c).sori = s.sori := rfl
@[simp] theorem setHart_saux (c : Ctx) : (s.setHart c).saux = s.saux := rfl
@[simp] theorem setHart_parts (c : Ctx) : (s.setHart c).parts = s.parts := rfl
@[simp] theorem setHart_slots (c : Ctx) : (s.setHart c).slots = s.slots := rfl
@[simp] theorem setHart_hub (c : Ctx) : (s.setHart c).hub = s.hub := rfl
@[simp] theorem setHart_thallus (c : Ctx) : (s.setHart c).thallus = s.thallus := rfl
@[simp] theorem setHart_fabric (c : Ctx) : (s.setHart c).fabric = s.fabric := rfl
@[simp] theorem setHart_flight (c : Ctx) : (s.setHart c).flight = s.flight := rfl
@[simp] theorem setHart_gtime (c : Ctx) : (s.setHart c).gtime = s.gtime := rfl
@[simp] theorem setHart_running (c : Ctx) : (s.setHart c).running = s.running := rfl
@[simp] theorem setHart_cur (c : Ctx) : (s.setHart c).cur = s.cur := rfl
@[simp] theorem setHart_spent (c : Ctx) : (s.setHart c).spent = s.spent := rfl
@[simp] theorem setHart_idle (c : Ctx) : (s.setHart c).idle = s.idle := rfl
@[simp] theorem setHart_now (c : Ctx) : (s.setHart c).now = s.now := rfl
@[simp] theorem setHart_script (c : Ctx) : (s.setHart c).script = s.script := rfl
@[simp] theorem setHart_agenda (c : Ctx) : (s.setHart c).agenda = s.agenda := rfl
@[simp] theorem setHart_timers (c : Ctx) : (s.setHart c).timers = s.timers := rfl
@[simp] theorem setHart_out (c : Ctx) : (s.setHart c).out = s.out := rfl
@[simp] theorem setHart_fresh (c : Ctx) : (s.setHart c).fresh = s.fresh := rfl
@[simp] theorem setHart_aux (c : Ctx) (j : Nat) : (s.setHart c).aux j = s.aux j := rfl
@[simp] theorem setHart_core (c : Ctx) (j : Nat) : (s.setHart c).core j = s.core j := rfl
@[simp] theorem setHart_sorus (c : Ctx) (j : Nat) : (s.setHart c).sorus j = s.sorus j := rfl
@[simp] theorem setHart_sx (c : Ctx) (j : Nat) : (s.setHart c).sx j = s.sx j := rfl
@[simp] theorem setHart_part (c : Ctx) (j : Nat) : (s.setHart c).part j = s.part j := rfl
@[simp] theorem setHart_slot (c : Ctx) (j : Nat) : (s.setHart c).slot j = s.slot j := rfl
@[simp] theorem setHart_byte (c : Ctx) (j : Nat) : (s.setHart c).byte j = s.byte j := rfl

@[simp] theorem setRegs_mem (g : Regs) : (s.setRegs g).mem = s.mem := rfl
@[simp] theorem setRegs_auxs (g : Regs) : (s.setRegs g).auxs = s.auxs := rfl
@[simp] theorem setRegs_cores (g : Regs) : (s.setRegs g).cores = s.cores := rfl
@[simp] theorem setRegs_sori (g : Regs) : (s.setRegs g).sori = s.sori := rfl
@[simp] theorem setRegs_saux (g : Regs) : (s.setRegs g).saux = s.saux := rfl
@[simp] theorem setRegs_parts (g : Regs) : (s.setRegs g).parts = s.parts := rfl
@[simp] theorem setRegs_slots (g : Regs) : (s.setRegs g).slots = s.slots := rfl
@[simp] theorem setRegs_hub (g : Regs) : (s.setRegs g).hub = s.hub := rfl
@[simp] theorem setRegs_thallus (g : Regs) : (s.setRegs g).thallus = s.thallus := rfl
@[simp] theorem setRegs_fabric (g : Regs) : (s.setRegs g).fabric = s.fabric := rfl
@[simp] theorem setRegs_flight (g : Regs) : (s.setRegs g).flight = s.flight := rfl
@[simp] theorem setRegs_gtime (g : Regs) : (s.setRegs g).gtime = s.gtime := rfl
@[simp] theorem setRegs_running (g : Regs) : (s.setRegs g).running = s.running := rfl
@[simp] theorem setRegs_cur (g : Regs) : (s.setRegs g).cur = s.cur := rfl
@[simp] theorem setRegs_spent (g : Regs) : (s.setRegs g).spent = s.spent := rfl
@[simp] theorem setRegs_idle (g : Regs) : (s.setRegs g).idle = s.idle := rfl
@[simp] theorem setRegs_now (g : Regs) : (s.setRegs g).now = s.now := rfl
@[simp] theorem setRegs_script (g : Regs) : (s.setRegs g).script = s.script := rfl
@[simp] theorem setRegs_agenda (g : Regs) : (s.setRegs g).agenda = s.agenda := rfl
@[simp] theorem setRegs_timers (g : Regs) : (s.setRegs g).timers = s.timers := rfl
@[simp] theorem setRegs_out (g : Regs) : (s.setRegs g).out = s.out := rfl
@[simp] theorem setRegs_fresh (g : Regs) : (s.setRegs g).fresh = s.fresh := rfl
@[simp] theorem setRegs_aux (g : Regs) (j : Nat) : (s.setRegs g).aux j = s.aux j := rfl
@[simp] theorem setRegs_core (g : Regs) (j : Nat) : (s.setRegs g).core j = s.core j := rfl
@[simp] theorem setRegs_sorus (g : Regs) (j : Nat) : (s.setRegs g).sorus j = s.sorus j := rfl
@[simp] theorem setRegs_sx (g : Regs) (j : Nat) : (s.setRegs g).sx j = s.sx j := rfl
@[simp] theorem setRegs_part (g : Regs) (j : Nat) : (s.setRegs g).part j = s.part j := rfl
@[simp] theorem setRegs_slot (g : Regs) (j : Nat) : (s.setRegs g).slot j = s.slot j := rfl
@[simp] theorem setRegs_byte (g : Regs) (j : Nat) : (s.setRegs g).byte j = s.byte j := rfl

@[simp] theorem poke_mem (e : Event) : (s.poke e).mem = s.mem := rfl
@[simp] theorem poke_ctxs (e : Event) : (s.poke e).ctxs = s.ctxs := rfl
@[simp] theorem poke_auxs (e : Event) : (s.poke e).auxs = s.auxs := rfl
@[simp] theorem poke_cores (e : Event) : (s.poke e).cores = s.cores := rfl
@[simp] theorem poke_sori (e : Event) : (s.poke e).sori = s.sori := rfl
@[simp] theorem poke_saux (e : Event) : (s.poke e).saux = s.saux := rfl
@[simp] theorem poke_parts (e : Event) : (s.poke e).parts = s.parts := rfl
@[simp] theorem poke_slots (e : Event) : (s.poke e).slots = s.slots := rfl
@[simp] theorem poke_hub (e : Event) : (s.poke e).hub = s.hub := rfl
@[simp] theorem poke_thallus (e : Event) : (s.poke e).thallus = s.thallus := rfl
@[simp] theorem poke_fabric (e : Event) : (s.poke e).fabric = s.fabric := rfl
@[simp] theorem poke_flight (e : Event) : (s.poke e).flight = s.flight := rfl
@[simp] theorem poke_gtime (e : Event) : (s.poke e).gtime = s.gtime := rfl
@[simp] theorem poke_running (e : Event) : (s.poke e).running = s.running := rfl
@[simp] theorem poke_cur (e : Event) : (s.poke e).cur = s.cur := rfl
@[simp] theorem poke_spent (e : Event) : (s.poke e).spent = s.spent := rfl
@[simp] theorem poke_idle (e : Event) : (s.poke e).idle = s.idle := rfl
@[simp] theorem poke_now (e : Event) : (s.poke e).now = s.now := rfl
@[simp] theorem poke_script (e : Event) : (s.poke e).script = s.script := rfl
@[simp] theorem poke_timers (e : Event) : (s.poke e).timers = s.timers := rfl
@[simp] theorem poke_out (e : Event) : (s.poke e).out = s.out := rfl
@[simp] theorem poke_fresh (e : Event) : (s.poke e).fresh = s.fresh := rfl
@[simp] theorem poke_ctx (e : Event) (j : Nat) : (s.poke e).ctx j = s.ctx j := rfl
@[simp] theorem poke_aux (e : Event) (j : Nat) : (s.poke e).aux j = s.aux j := rfl
@[simp] theorem poke_core (e : Event) (j : Nat) : (s.poke e).core j = s.core j := rfl
@[simp] theorem poke_sorus (e : Event) (j : Nat) : (s.poke e).sorus j = s.sorus j := rfl
@[simp] theorem poke_sx (e : Event) (j : Nat) : (s.poke e).sx j = s.sx j := rfl
@[simp] theorem poke_part (e : Event) (j : Nat) : (s.poke e).part j = s.part j := rfl
@[simp] theorem poke_slot (e : Event) (j : Nat) : (s.poke e).slot j = s.slot j := rfl
@[simp] theorem poke_byte (e : Event) (j : Nat) : (s.poke e).byte j = s.byte j := rfl

@[simp] theorem after_mem (n : Nat) (e : Event) : (s.after n e).mem = s.mem := rfl
@[simp] theorem after_ctxs (n : Nat) (e : Event) : (s.after n e).ctxs = s.ctxs := rfl
@[simp] theorem after_auxs (n : Nat) (e : Event) : (s.after n e).auxs = s.auxs := rfl
@[simp] theorem after_cores (n : Nat) (e : Event) : (s.after n e).cores = s.cores := rfl
@[simp] theorem after_sori (n : Nat) (e : Event) : (s.after n e).sori = s.sori := rfl
@[simp] theorem after_saux (n : Nat) (e : Event) : (s.after n e).saux = s.saux := rfl
@[simp] theorem after_parts (n : Nat) (e : Event) : (s.after n e).parts = s.parts := rfl
@[simp] theorem after_slots (n : Nat) (e : Event) : (s.after n e).slots = s.slots := rfl
@[simp] theorem after_hub (n : Nat) (e : Event) : (s.after n e).hub = s.hub := rfl
@[simp] theorem after_thallus (n : Nat) (e : Event) : (s.after n e).thallus = s.thallus := rfl
@[simp] theorem after_fabric (n : Nat) (e : Event) : (s.after n e).fabric = s.fabric := rfl
@[simp] theorem after_flight (n : Nat) (e : Event) : (s.after n e).flight = s.flight := rfl
@[simp] theorem after_gtime (n : Nat) (e : Event) : (s.after n e).gtime = s.gtime := rfl
@[simp] theorem after_running (n : Nat) (e : Event) : (s.after n e).running = s.running := rfl
@[simp] theorem after_cur (n : Nat) (e : Event) : (s.after n e).cur = s.cur := rfl
@[simp] theorem after_spent (n : Nat) (e : Event) : (s.after n e).spent = s.spent := rfl
@[simp] theorem after_idle (n : Nat) (e : Event) : (s.after n e).idle = s.idle := rfl
@[simp] theorem after_now (n : Nat) (e : Event) : (s.after n e).now = s.now := rfl
@[simp] theorem after_script (n : Nat) (e : Event) : (s.after n e).script = s.script := rfl
@[simp] theorem after_agenda (n : Nat) (e : Event) : (s.after n e).agenda = s.agenda := rfl
@[simp] theorem after_out (n : Nat) (e : Event) : (s.after n e).out = s.out := rfl
@[simp] theorem after_fresh (n : Nat) (e : Event) : (s.after n e).fresh = s.fresh := rfl
@[simp] theorem after_ctx (n : Nat) (e : Event) (j : Nat) : (s.after n e).ctx j = s.ctx j := rfl
@[simp] theorem after_aux (n : Nat) (e : Event) (j : Nat) : (s.after n e).aux j = s.aux j := rfl
@[simp] theorem after_core (n : Nat) (e : Event) (j : Nat) : (s.after n e).core j = s.core j := rfl
@[simp] theorem after_sorus (n : Nat) (e : Event) (j : Nat) : (s.after n e).sorus j = s.sorus j := rfl
@[simp] theorem after_sx (n : Nat) (e : Event) (j : Nat) : (s.after n e).sx j = s.sx j := rfl
@[simp] theorem after_part (n : Nat) (e : Event) (j : Nat) : (s.after n e).part j = s.part j := rfl
@[simp] theorem after_slot (n : Nat) (e : Event) (j : Nat) : (s.after n e).slot j = s.slot j := rfl
@[simp] theorem after_byte (n : Nat) (e : Event) (j : Nat) : (s.after n e).byte j = s.byte j := rfl

@[simp] theorem emit_mem (o : Output) : (s.emit o).mem = s.mem := rfl
@[simp] theorem emit_ctxs (o : Output) : (s.emit o).ctxs = s.ctxs := rfl
@[simp] theorem emit_auxs (o : Output) : (s.emit o).auxs = s.auxs := rfl
@[simp] theorem emit_cores (o : Output) : (s.emit o).cores = s.cores := rfl
@[simp] theorem emit_sori (o : Output) : (s.emit o).sori = s.sori := rfl
@[simp] theorem emit_saux (o : Output) : (s.emit o).saux = s.saux := rfl
@[simp] theorem emit_parts (o : Output) : (s.emit o).parts = s.parts := rfl
@[simp] theorem emit_slots (o : Output) : (s.emit o).slots = s.slots := rfl
@[simp] theorem emit_hub (o : Output) : (s.emit o).hub = s.hub := rfl
@[simp] theorem emit_thallus (o : Output) : (s.emit o).thallus = s.thallus := rfl
@[simp] theorem emit_fabric (o : Output) : (s.emit o).fabric = s.fabric := rfl
@[simp] theorem emit_flight (o : Output) : (s.emit o).flight = s.flight := rfl
@[simp] theorem emit_gtime (o : Output) : (s.emit o).gtime = s.gtime := rfl
@[simp] theorem emit_running (o : Output) : (s.emit o).running = s.running := rfl
@[simp] theorem emit_cur (o : Output) : (s.emit o).cur = s.cur := rfl
@[simp] theorem emit_spent (o : Output) : (s.emit o).spent = s.spent := rfl
@[simp] theorem emit_idle (o : Output) : (s.emit o).idle = s.idle := rfl
@[simp] theorem emit_now (o : Output) : (s.emit o).now = s.now := rfl
@[simp] theorem emit_script (o : Output) : (s.emit o).script = s.script := rfl
@[simp] theorem emit_agenda (o : Output) : (s.emit o).agenda = s.agenda := rfl
@[simp] theorem emit_timers (o : Output) : (s.emit o).timers = s.timers := rfl
@[simp] theorem emit_fresh (o : Output) : (s.emit o).fresh = s.fresh := rfl
@[simp] theorem emit_ctx (o : Output) (j : Nat) : (s.emit o).ctx j = s.ctx j := rfl
@[simp] theorem emit_aux (o : Output) (j : Nat) : (s.emit o).aux j = s.aux j := rfl
@[simp] theorem emit_core (o : Output) (j : Nat) : (s.emit o).core j = s.core j := rfl
@[simp] theorem emit_sorus (o : Output) (j : Nat) : (s.emit o).sorus j = s.sorus j := rfl
@[simp] theorem emit_sx (o : Output) (j : Nat) : (s.emit o).sx j = s.sx j := rfl
@[simp] theorem emit_part (o : Output) (j : Nat) : (s.emit o).part j = s.part j := rfl
@[simp] theorem emit_slot (o : Output) (j : Nat) : (s.emit o).slot j = s.slot j := rfl
@[simp] theorem emit_byte (o : Output) (j : Nat) : (s.emit o).byte j = s.byte j := rfl

@[simp] theorem spend_mem : (s.spend).mem = s.mem := rfl
@[simp] theorem spend_ctxs : (s.spend).ctxs = s.ctxs := rfl
@[simp] theorem spend_auxs : (s.spend).auxs = s.auxs := rfl
@[simp] theorem spend_cores : (s.spend).cores = s.cores := rfl
@[simp] theorem spend_sori : (s.spend).sori = s.sori := rfl
@[simp] theorem spend_saux : (s.spend).saux = s.saux := rfl
@[simp] theorem spend_parts : (s.spend).parts = s.parts := rfl
@[simp] theorem spend_slots : (s.spend).slots = s.slots := rfl
@[simp] theorem spend_hub : (s.spend).hub = s.hub := rfl
@[simp] theorem spend_thallus : (s.spend).thallus = s.thallus := rfl
@[simp] theorem spend_fabric : (s.spend).fabric = s.fabric := rfl
@[simp] theorem spend_flight : (s.spend).flight = s.flight := rfl
@[simp] theorem spend_gtime : (s.spend).gtime = s.gtime := rfl
@[simp] theorem spend_running : (s.spend).running = s.running := rfl
@[simp] theorem spend_cur : (s.spend).cur = s.cur := rfl
@[simp] theorem spend_now : (s.spend).now = s.now := rfl
@[simp] theorem spend_script : (s.spend).script = s.script := rfl
@[simp] theorem spend_agenda : (s.spend).agenda = s.agenda := rfl
@[simp] theorem spend_timers : (s.spend).timers = s.timers := rfl
@[simp] theorem spend_out : (s.spend).out = s.out := rfl
@[simp] theorem spend_fresh : (s.spend).fresh = s.fresh := rfl
@[simp] theorem spend_ctx (j : Nat) : (s.spend).ctx j = s.ctx j := rfl
@[simp] theorem spend_aux (j : Nat) : (s.spend).aux j = s.aux j := rfl
@[simp] theorem spend_core (j : Nat) : (s.spend).core j = s.core j := rfl
@[simp] theorem spend_sorus (j : Nat) : (s.spend).sorus j = s.sorus j := rfl
@[simp] theorem spend_sx (j : Nat) : (s.spend).sx j = s.sx j := rfl
@[simp] theorem spend_part (j : Nat) : (s.spend).part j = s.part j := rfl
@[simp] theorem spend_slot (j : Nat) : (s.spend).slot j = s.slot j := rfl
@[simp] theorem spend_byte (j : Nat) : (s.spend).byte j = s.byte j := rfl

@[simp] theorem setByte_ctxs (k : Nat) (b : Byte) : (s.setByte k b).ctxs = s.ctxs := rfl
@[simp] theorem setByte_auxs (k : Nat) (b : Byte) : (s.setByte k b).auxs = s.auxs := rfl
@[simp] theorem setByte_cores (k : Nat) (b : Byte) : (s.setByte k b).cores = s.cores := rfl
@[simp] theorem setByte_sori (k : Nat) (b : Byte) : (s.setByte k b).sori = s.sori := rfl
@[simp] theorem setByte_saux (k : Nat) (b : Byte) : (s.setByte k b).saux = s.saux := rfl
@[simp] theorem setByte_parts (k : Nat) (b : Byte) : (s.setByte k b).parts = s.parts := rfl
@[simp] theorem setByte_slots (k : Nat) (b : Byte) : (s.setByte k b).slots = s.slots := rfl
@[simp] theorem setByte_hub (k : Nat) (b : Byte) : (s.setByte k b).hub = s.hub := rfl
@[simp] theorem setByte_thallus (k : Nat) (b : Byte) : (s.setByte k b).thallus = s.thallus := rfl
@[simp] theorem setByte_fabric (k : Nat) (b : Byte) : (s.setByte k b).fabric = s.fabric := rfl
@[simp] theorem setByte_flight (k : Nat) (b : Byte) : (s.setByte k b).flight = s.flight := rfl
@[simp] theorem setByte_gtime (k : Nat) (b : Byte) : (s.setByte k b).gtime = s.gtime := rfl
@[simp] theorem setByte_running (k : Nat) (b : Byte) : (s.setByte k b).running = s.running := rfl
@[simp] theorem setByte_cur (k : Nat) (b : Byte) : (s.setByte k b).cur = s.cur := rfl
@[simp] theorem setByte_spent (k : Nat) (b : Byte) : (s.setByte k b).spent = s.spent := rfl
@[simp] theorem setByte_idle (k : Nat) (b : Byte) : (s.setByte k b).idle = s.idle := rfl
@[simp] theorem setByte_now (k : Nat) (b : Byte) : (s.setByte k b).now = s.now := rfl
@[simp] theorem setByte_script (k : Nat) (b : Byte) : (s.setByte k b).script = s.script := rfl
@[simp] theorem setByte_agenda (k : Nat) (b : Byte) : (s.setByte k b).agenda = s.agenda := rfl
@[simp] theorem setByte_timers (k : Nat) (b : Byte) : (s.setByte k b).timers = s.timers := rfl
@[simp] theorem setByte_out (k : Nat) (b : Byte) : (s.setByte k b).out = s.out := rfl
@[simp] theorem setByte_fresh (k : Nat) (b : Byte) : (s.setByte k b).fresh = s.fresh := rfl
@[simp] theorem setByte_ctx (k : Nat) (b : Byte) (j : Nat) : (s.setByte k b).ctx j = s.ctx j := rfl
@[simp] theorem setByte_aux (k : Nat) (b : Byte) (j : Nat) : (s.setByte k b).aux j = s.aux j := rfl
@[simp] theorem setByte_core (k : Nat) (b : Byte) (j : Nat) : (s.setByte k b).core j = s.core j := rfl
@[simp] theorem setByte_sorus (k : Nat) (b : Byte) (j : Nat) : (s.setByte k b).sorus j = s.sorus j := rfl
@[simp] theorem setByte_sx (k : Nat) (b : Byte) (j : Nat) : (s.setByte k b).sx j = s.sx j := rfl
@[simp] theorem setByte_part (k : Nat) (b : Byte) (j : Nat) : (s.setByte k b).part j = s.part j := rfl
@[simp] theorem setByte_slot (k : Nat) (b : Byte) (j : Nat) : (s.setByte k b).slot j = s.slot j := rfl

theorem setCtx_ctx (h : Nat) (c : Ctx) (j : Nat) : (s.setCtx h c).ctx j = if j = h then c else s.ctx j := tget_tput ..
@[simp] theorem setCtx_ctx_same (h : Nat) (c : Ctx) : (s.setCtx h c).ctx h = c := tget_tput_same ..
theorem setCtx_ctx_other (h : Nat) (c : Ctx) (j : Nat) (hj : j ≠ h) : (s.setCtx h c).ctx j = s.ctx j := tget_tput_other _ _ _ hj
theorem setAux_aux (h : Nat) (c : CtxAux) (j : Nat) : (s.setAux h c).aux j = if j = h then c else s.aux j := tget_tput ..
@[simp] theorem setAux_aux_same (h : Nat) (c : CtxAux) : (s.setAux h c).aux h = c := tget_tput_same ..
theorem setAux_aux_other (h : Nat) (c : CtxAux) (j : Nat) (hj : j ≠ h) : (s.setAux h c).aux j = s.aux j := tget_tput_other _ _ _ hj
theorem setCore_core (L : Nat) (c : CoreSt) (j : Nat) : (s.setCore L c).core j = if j = L then c else s.core j := tget_tput ..
@[simp] theorem setCore_core_same (L : Nat) (c : CoreSt) : (s.setCore L c).core L = c := tget_tput_same ..
theorem setCore_core_other (L : Nat) (c : CoreSt) (j : Nat) (hj : j ≠ L) : (s.setCore L c).core j = s.core j := tget_tput_other _ _ _ hj
theorem setSorus_sorus (n : Nat) (c : SorusSt) (j : Nat) : (s.setSorus n c).sorus j = if j = n then c else s.sorus j := tget_tput ..
@[simp] theorem setSorus_sorus_same (n : Nat) (c : SorusSt) : (s.setSorus n c).sorus n = c := tget_tput_same ..
theorem setSorus_sorus_other (n : Nat) (c : SorusSt) (j : Nat) (hj : j ≠ n) : (s.setSorus n c).sorus j = s.sorus j := tget_tput_other _ _ _ hj
theorem setSx_sx (n : Nat) (c : SorusAux) (j : Nat) : (s.setSx n c).sx j = if j = n then c else s.sx j := tget_tput ..
@[simp] theorem setSx_sx_same (n : Nat) (c : SorusAux) : (s.setSx n c).sx n = c := tget_tput_same ..
theorem setSx_sx_other (n : Nat) (c : SorusAux) (j : Nat) (hj : j ≠ n) : (s.setSx n c).sx j = s.sx j := tget_tput_other _ _ _ hj
theorem setPart_part (p : Nat) (c : Part) (j : Nat) : (s.setPart p c).part j = if j = p then c else s.part j := tget_tput ..
@[simp] theorem setPart_part_same (p : Nat) (c : Part) : (s.setPart p c).part p = c := tget_tput_same ..
theorem setPart_part_other (p : Nat) (c : Part) (j : Nat) (hj : j ≠ p) : (s.setPart p c).part j = s.part j := tget_tput_other _ _ _ hj
theorem setSlot_slot (t : Nat) (c : Slot) (j : Nat) : (s.setSlot t c).slot j = if j = t then c else s.slot j := tget_tput ..
@[simp] theorem setSlot_slot_same (t : Nat) (c : Slot) : (s.setSlot t c).slot t = c := tget_tput_same ..
theorem setSlot_slot_other (t : Nat) (c : Slot) (j : Nat) (hj : j ≠ t) : (s.setSlot t c).slot j = s.slot j := tget_tput_other _ _ _ hj

@[simp] theorem setHart_hart (c : Ctx) : (s.setHart c).hart = c := tget_tput_same ..
theorem setHart_ctx (c : Ctx) (j : Nat) : (s.setHart c).ctx j = if j = s.cur then c else s.ctx j := tget_tput ..
theorem setHart_ctx_other (c : Ctx) (j : Nat) (hj : j ≠ s.cur) : (s.setHart c).ctx j = s.ctx j := tget_tput_other _ _ _ hj
@[simp] theorem setRegs_hart (g : Regs) : (s.setRegs g).hart = { s.hart with regs := g } := setHart_hart ..
theorem setRegs_ctx_other (g : Regs) (j : Nat) (hj : j ≠ s.cur) : (s.setRegs g).ctx j = s.ctx j := setHart_ctx_other _ _ _ hj

@[simp] theorem setAux_hart (h : Nat) (c : CtxAux) : (s.setAux h c).hart = s.hart := rfl
@[simp] theorem setCore_hart (L : Nat) (c : CoreSt) : (s.setCore L c).hart = s.hart := rfl
@[simp] theorem setSorus_hart (n : Nat) (c : SorusSt) : (s.setSorus n c).hart = s.hart := rfl
@[simp] theorem setSx_hart (n : Nat) (c : SorusAux) : (s.setSx n c).hart = s.hart := rfl
@[simp] theorem setPart_hart (p : Nat) (c : Part) : (s.setPart p c).hart = s.hart := rfl
@[simp] theorem setSlot_hart (t : Nat) (c : Slot) : (s.setSlot t c).hart = s.hart := rfl
@[simp] theorem poke_hart (e : Event) : (s.poke e).hart = s.hart := rfl
@[simp] theorem after_hart (n : Nat) (e : Event) : (s.after n e).hart = s.hart := rfl
@[simp] theorem emit_hart (o : Output) : (s.emit o).hart = s.hart := rfl
@[simp] theorem spend_hart : (s.spend).hart = s.hart := rfl
@[simp] theorem spend_spent : (s.spend).spent = true := rfl
@[simp] theorem spend_idle : (s.spend).idle = s.idle := rfl

@[simp] theorem giveUp_mem : (s.giveUp).mem = s.mem := rfl
@[simp] theorem giveUp_ctxs : (s.giveUp).ctxs = s.ctxs := rfl
@[simp] theorem giveUp_auxs : (s.giveUp).auxs = s.auxs := rfl
@[simp] theorem giveUp_cores : (s.giveUp).cores = s.cores := rfl
@[simp] theorem giveUp_sori : (s.giveUp).sori = s.sori := rfl
@[simp] theorem giveUp_saux : (s.giveUp).saux = s.saux := rfl
@[simp] theorem giveUp_parts : (s.giveUp).parts = s.parts := rfl
@[simp] theorem giveUp_slots : (s.giveUp).slots = s.slots := rfl
@[simp] theorem giveUp_hub : (s.giveUp).hub = s.hub := rfl
@[simp] theorem giveUp_thallus : (s.giveUp).thallus = s.thallus := rfl
@[simp] theorem giveUp_fabric : (s.giveUp).fabric = s.fabric := rfl
@[simp] theorem giveUp_flight : (s.giveUp).flight = s.flight := rfl
@[simp] theorem giveUp_gtime : (s.giveUp).gtime = s.gtime := rfl
@[simp] theorem giveUp_running : (s.giveUp).running = s.running := rfl
@[simp] theorem giveUp_cur : (s.giveUp).cur = s.cur := rfl
@[simp] theorem giveUp_now : (s.giveUp).now = s.now := rfl
@[simp] theorem giveUp_script : (s.giveUp).script = s.script := rfl
@[simp] theorem giveUp_agenda : (s.giveUp).agenda = s.agenda := rfl
@[simp] theorem giveUp_timers : (s.giveUp).timers = s.timers := rfl
@[simp] theorem giveUp_out : (s.giveUp).out = s.out := rfl
@[simp] theorem giveUp_fresh : (s.giveUp).fresh = s.fresh := rfl
@[simp] theorem giveUp_ctx (j : Nat) : (s.giveUp).ctx j = s.ctx j := rfl
@[simp] theorem giveUp_aux (j : Nat) : (s.giveUp).aux j = s.aux j := rfl
@[simp] theorem giveUp_core (j : Nat) : (s.giveUp).core j = s.core j := rfl
@[simp] theorem giveUp_sorus (j : Nat) : (s.giveUp).sorus j = s.sorus j := rfl
@[simp] theorem giveUp_sx (j : Nat) : (s.giveUp).sx j = s.sx j := rfl
@[simp] theorem giveUp_part (j : Nat) : (s.giveUp).part j = s.part j := rfl
@[simp] theorem giveUp_slot (j : Nat) : (s.giveUp).slot j = s.slot j := rfl
@[simp] theorem giveUp_byte (j : Nat) : (s.giveUp).byte j = s.byte j := rfl
@[simp] theorem giveUp_hart : (s.giveUp).hart = s.hart := rfl
@[simp] theorem giveUp_spent : (s.giveUp).spent = true := rfl
@[simp] theorem giveUp_idle : (s.giveUp).idle = true := rfl
@[simp] theorem setByte_hart (k : Nat) (b : Byte) : (s.setByte k b).hart = s.hart := rfl

/-- Putting back what a context is changes nothing that can be read. -/
theorem setHart_setHart (c d : Ctx) : ((s.setHart c).setHart d).ctx = (s.setHart d).ctx := by
  funext j; rw [setHart_ctx, setHart_ctx, setHart_cur, setHart_ctx]; split <;> rfl
end

end Sys2Proof.Machine
end

