-- ==== Sys2Proof/Laws/Frames.lean ====
section
/-! SUPPORT. What the shared operations of happenings leave alone: one lemma for each, so that no proof unfolds it twice. -/

namespace Sys2Proof.Machine

open Sys2Proof

theorem still_refl (s : State) : Still s s := ⟨fun _ => rfl, fun _ => rfl⟩
theorem still_trans {s t u : State} (h : Still s t) (k : Still t u) : Still s u :=
  ⟨fun a => (k.byte a).trans (h.byte a), fun a => (k.ctx a).trans (h.ctx a)⟩
theorem still_of {s t : State} (hm : t.mem = s.mem) (hc : t.ctxs = s.ctxs) : Still s t :=
  ⟨fun a => by unfold State.byte; rw [hm], fun a => by unfold State.ctx; rw [hc]⟩

/-- The error log is all that logging changes (R480). -/
theorem elog_eq (s : State) (k t L : Nat) (a d : Word) : ∃ l hd lo,
    s.elog k t L a d = { s with hub := { s.hub with elog := l, elogHead := hd, elogLost := lo } } := by
  unfold State.elog; dsimp only
  split
  · exact ⟨s.hub.elog, s.hub.elogHead, s.hub.elogLost, rfl⟩
  · split
    · exact ⟨_, s.hub.elogHead, s.hub.elogLost, rfl⟩
    · split
      · exact ⟨s.hub.elog, s.hub.elogHead, _, rfl⟩
      · exact ⟨_, _, s.hub.elogLost, rfl⟩

/-- A stopped module logs nothing (R483). -/
theorem elog_stopped (s : State) (k t L : Nat) (a d : Word) (h : s.hub.stopped = true) : s.elog k t L a d = s := by
  unfold State.elog; simp [h]

theorem elog_still (s : State) (k t L : Nat) (a d : Word) : Still s (s.elog k t L a d) := by
  obtain ⟨l, hd, lo, e⟩ := elog_eq s k t L a d; rw [e]; exact still_of rfl rfl

/-- Repeating an operation keeps what the operation keeps. -/
theorem foldl_keeps {α : Type} {P : State → Prop} (f : State → α → State) (l : List α) (hf : ∀ s, P s → ∀ a ∈ l, P (f s a))
    (s : State) (hs : P s) : P (l.foldl f s) := by
  induction l generalizing s with
  | nil => exact hs
  | cons a l ih => exact ih (fun t ht b hb => hf t ht b (List.mem_cons_of_mem _ hb)) _ (hf s hs a List.mem_cons_self)

/-- Members of a list after an insertion that keeps each once. -/
theorem mem_insertNew (l : List Nat) (n m : Nat) : m ∈ insertNew l n ↔ m ∈ l ∨ m = n := by
  unfold insertNew; split
  · next h => constructor
              · exact .inl
              · rintro (h' | rfl)
                · exact h'
                · simpa using h
  · simp

theorem mem_foldl_insertNew (l a : List Nat) (m : Nat) : m ∈ l.foldl insertNew a ↔ m ∈ a ∨ m ∈ l := by
  induction l generalizing a with
  | nil => simp
  | cons b l ih => simp only [List.foldl_cons, ih, mem_insertNew, List.mem_cons]; grind

end Sys2Proof.Machine
end

