-- ==== Sys2Proof/Laws/PerInstr.lean ====
section
/-! SUPPORT. The family RoundTrip: decoding the word that the encoder gives an instruction gives the instruction back. One
lemma for each constructor. A happening has no word. -/

namespace Sys2Proof.Laws

open Sys2Proof

/-- The word of a well-formed instruction decodes to it. -/
def RoundTrip.Statement (i : Instr) : Prop := ∀ w, encode i = some w → decodeWord w = .ok i

/-- An instruction without a word. -/
theorem roundTrip_none (i : Instr) (h : encodeWord i = none) : RoundTrip.Statement i := by
  intro w hw; unfold encode at hw; split at hw
  · rw [h] at hw; exact nomatch hw
  · exact nomatch hw

/-- An instruction whose word decodes to it where it is well formed. -/
theorem roundTrip_some (i : Instr) (w : BitVec 32) (h : encodeWord i = some w)
    (hd : wellFormed i = true → decodeWord w = .ok i) : RoundTrip.Statement i := by
  intro v hv; unfold encode at hv; split at hv
  · next hw => rw [h] at hv; cases hv; exact hd hw
  · exact nomatch hv

theorem decode_csr (i : BitVec 12) (s : Reg) (f3 : BitVec 3) (d : Reg) :
    decodeWord (encI i s f3 d 0x73) = decSystem (encI i s f3 d 0x73) i s d f3 := by
  unfold decodeWord; simp

theorem RoundTrip.lb (rd rs : Reg) (imm : BitVec 12) : RoundTrip.Statement (.lb rd rs imm) :=
  roundTrip_some _ _ rfl (by intro; simp [decodeWord, decLoad])
theorem RoundTrip.lh (rd rs : Reg) (imm : BitVec 12) : RoundTrip.Statement (.lh rd rs imm) :=
  roundTrip_some _ _ rfl (by intro; simp [decodeWord, decLoad])
theorem RoundTrip.lw (rd rs : Reg) (imm : BitVec 12) : RoundTrip.Statement (.lw rd rs imm) :=
  roundTrip_some _ _ rfl (by intro; simp [decodeWord, decLoad])
theorem RoundTrip.ld (rd rs : Reg) (imm : BitVec 12) : RoundTrip.Statement (.ld rd rs imm) :=
  roundTrip_some _ _ rfl (by intro; simp [decodeWord, decLoad])
theorem RoundTrip.lbu (rd rs : Reg) (imm : BitVec 12) : RoundTrip.Statement (.lbu rd rs imm) :=
  roundTrip_some _ _ rfl (by intro; simp [decodeWord, decLoad])
theorem RoundTrip.lhu (rd rs : Reg) (imm : BitVec 12) : RoundTrip.Statement (.lhu rd rs imm) :=
  roundTrip_some _ _ rfl (by intro; simp [decodeWord, decLoad])
theorem RoundTrip.lwu (rd rs : Reg) (imm : BitVec 12) : RoundTrip.Statement (.lwu rd rs imm) :=
  roundTrip_some _ _ rfl (by intro; simp [decodeWord, decLoad])
theorem RoundTrip.sb (rt rs : Reg) (imm : BitVec 12) : RoundTrip.Statement (.sb rt rs imm) :=
  roundTrip_some _ _ rfl (by intro; simp [decodeWord, decStore])
theorem RoundTrip.sh (rt rs : Reg) (imm : BitVec 12) : RoundTrip.Statement (.sh rt rs imm) :=
  roundTrip_some _ _ rfl (by intro; simp [decodeWord, decStore])
theorem RoundTrip.sw (rt rs : Reg) (imm : BitVec 12) : RoundTrip.Statement (.sw rt rs imm) :=
  roundTrip_some _ _ rfl (by intro; simp [decodeWord, decStore])
theorem RoundTrip.sd (rt rs : Reg) (imm : BitVec 12) : RoundTrip.Statement (.sd rt rs imm) :=
  roundTrip_some _ _ rfl (by intro; simp [decodeWord, decStore])
theorem RoundTrip.beq (rs rt : Reg) (imm : BitVec 12) : RoundTrip.Statement (.beq rs rt imm) :=
  roundTrip_some _ _ rfl (by intro; simp [decodeWord, decBranch])
theorem RoundTrip.bne (rs rt : Reg) (imm : BitVec 12) : RoundTrip.Statement (.bne rs rt imm) :=
  roundTrip_some _ _ rfl (by intro; simp [decodeWord, decBranch])
theorem RoundTrip.blt (rs rt : Reg) (imm : BitVec 12) : RoundTrip.Statement (.blt rs rt imm) :=
  roundTrip_some _ _ rfl (by intro; simp [decodeWord, decBranch])
theorem RoundTrip.bge (rs rt : Reg) (imm : BitVec 12) : RoundTrip.Statement (.bge rs rt imm) :=
  roundTrip_some _ _ rfl (by intro; simp [decodeWord, decBranch])
theorem RoundTrip.bltu (rs rt : Reg) (imm : BitVec 12) : RoundTrip.Statement (.bltu rs rt imm) :=
  roundTrip_some _ _ rfl (by intro; simp [decodeWord, decBranch])
theorem RoundTrip.bgeu (rs rt : Reg) (imm : BitVec 12) : RoundTrip.Statement (.bgeu rs rt imm) :=
  roundTrip_some _ _ rfl (by intro; simp [decodeWord, decBranch])
theorem RoundTrip.jalr (rd rs : Reg) (imm : BitVec 12) : RoundTrip.Statement (.jalr rd rs imm) :=
  roundTrip_some _ _ rfl (by intro; simp [decodeWord])
theorem RoundTrip.jal (rd : Reg) (imm : BitVec 20) : RoundTrip.Statement (.jal rd imm) :=
  roundTrip_some _ _ rfl (by intro; simp [decodeWord])
theorem RoundTrip.lui (rd : Reg) (imm : BitVec 20) : RoundTrip.Statement (.lui rd imm) :=
  roundTrip_some _ _ rfl (by intro; simp [decodeWord])
theorem RoundTrip.auipc (rd : Reg) (imm : BitVec 20) : RoundTrip.Statement (.auipc rd imm) :=
  roundTrip_some _ _ rfl (by intro; simp [decodeWord])
theorem RoundTrip.addi (rd rs : Reg) (imm : BitVec 12) : RoundTrip.Statement (.addi rd rs imm) :=
  roundTrip_some _ _ rfl (by intro; simp [decodeWord, decOpImm, split_imm])
theorem RoundTrip.slti (rd rs : Reg) (imm : BitVec 12) : RoundTrip.Statement (.slti rd rs imm) :=
  roundTrip_some _ _ rfl (by intro; simp [decodeWord, decOpImm, split_imm])
theorem RoundTrip.sltiu (rd rs : Reg) (imm : BitVec 12) : RoundTrip.Statement (.sltiu rd rs imm) :=
  roundTrip_some _ _ rfl (by intro; simp [decodeWord, decOpImm, split_imm])
theorem RoundTrip.xori (rd rs : Reg) (imm : BitVec 12) : RoundTrip.Statement (.xori rd rs imm) :=
  roundTrip_some _ _ rfl (by intro; simp [decodeWord, decOpImm, split_imm])
theorem RoundTrip.ori (rd rs : Reg) (imm : BitVec 12) : RoundTrip.Statement (.ori rd rs imm) :=
  roundTrip_some _ _ rfl (by intro; simp [decodeWord, decOpImm, split_imm])
theorem RoundTrip.andi (rd rs : Reg) (imm : BitVec 12) : RoundTrip.Statement (.andi rd rs imm) :=
  roundTrip_some _ _ rfl (by intro; simp [decodeWord, decOpImm, split_imm])
theorem RoundTrip.slli (rd rs : Reg) (sh : BitVec 6) : RoundTrip.Statement (.slli rd rs sh) :=
  roundTrip_some _ _ rfl (by intro; simp [decodeWord, decOpImm, hi66, lo66])
theorem RoundTrip.srli (rd rs : Reg) (sh : BitVec 6) : RoundTrip.Statement (.srli rd rs sh) :=
  roundTrip_some _ _ rfl (by intro; simp [decodeWord, decOpImm, hi66, lo66])
theorem RoundTrip.srai (rd rs : Reg) (sh : BitVec 6) : RoundTrip.Statement (.srai rd rs sh) :=
  roundTrip_some _ _ rfl (by intro; simp [decodeWord, decOpImm, hi66, lo66])
theorem RoundTrip.addiw (rd rs : Reg) (imm : BitVec 12) : RoundTrip.Statement (.addiw rd rs imm) :=
  roundTrip_some _ _ rfl (by intro; simp [decodeWord, decOpImm32])
theorem RoundTrip.slliw (rd rs : Reg) (sh : BitVec 5) : RoundTrip.Statement (.slliw rd rs sh) :=
  roundTrip_some _ _ rfl (by intro; simp [decodeWord, decOpImm32])
theorem RoundTrip.srliw (rd rs : Reg) (sh : BitVec 5) : RoundTrip.Statement (.srliw rd rs sh) :=
  roundTrip_some _ _ rfl (by intro; simp [decodeWord, decOpImm32])
theorem RoundTrip.sraiw (rd rs : Reg) (sh : BitVec 5) : RoundTrip.Statement (.sraiw rd rs sh) :=
  roundTrip_some _ _ rfl (by intro; simp [decodeWord, decOpImm32])
theorem RoundTrip.add (rd rs rt : Reg) : RoundTrip.Statement (.add rd rs rt) :=
  roundTrip_some _ _ rfl (by intro; simp [decodeWord, decOp])
theorem RoundTrip.sll (rd rs rt : Reg) : RoundTrip.Statement (.sll rd rs rt) :=
  roundTrip_some _ _ rfl (by intro; simp [decodeWord, decOp])
theorem RoundTrip.slt (rd rs rt : Reg) : RoundTrip.Statement (.slt rd rs rt) :=
  roundTrip_some _ _ rfl (by intro; simp [decodeWord, decOp])
theorem RoundTrip.sltu (rd rs rt : Reg) : RoundTrip.Statement (.sltu rd rs rt) :=
  roundTrip_some _ _ rfl (by intro; simp [decodeWord, decOp])
theorem RoundTrip.xor (rd rs rt : Reg) : RoundTrip.Statement (.xor rd rs rt) :=
  roundTrip_some _ _ rfl (by intro; simp [decodeWord, decOp])
theorem RoundTrip.srl (rd rs rt : Reg) : RoundTrip.Statement (.srl rd rs rt) :=
  roundTrip_some _ _ rfl (by intro; simp [decodeWord, decOp])
theorem RoundTrip.or (rd rs rt : Reg) : RoundTrip.Statement (.or rd rs rt) :=
  roundTrip_some _ _ rfl (by intro; simp [decodeWord, decOp])
theorem RoundTrip.and (rd rs rt : Reg) : RoundTrip.Statement (.and rd rs rt) :=
  roundTrip_some _ _ rfl (by intro; simp [decodeWord, decOp])
theorem RoundTrip.sub (rd rs rt : Reg) : RoundTrip.Statement (.sub rd rs rt) :=
  roundTrip_some _ _ rfl (by intro; simp [decodeWord, decOp])
theorem RoundTrip.sra (rd rs rt : Reg) : RoundTrip.Statement (.sra rd rs rt) :=
  roundTrip_some _ _ rfl (by intro; simp [decodeWord, decOp])
theorem RoundTrip.mul (rd rs rt : Reg) : RoundTrip.Statement (.mul rd rs rt) :=
  roundTrip_some _ _ rfl (by intro; simp [decodeWord, decOp])
theorem RoundTrip.mulh (rd rs rt : Reg) : RoundTrip.Statement (.mulh rd rs rt) :=
  roundTrip_some _ _ rfl (by intro; simp [decodeWord, decOp])
theorem RoundTrip.mulhsu (rd rs rt : Reg) : RoundTrip.Statement (.mulhsu rd rs rt) :=
  roundTrip_some _ _ rfl (by intro; simp [decodeWord, decOp])
theorem RoundTrip.mulhu (rd rs rt : Reg) : RoundTrip.Statement (.mulhu rd rs rt) :=
  roundTrip_some _ _ rfl (by intro; simp [decodeWord, decOp])
theorem RoundTrip.div (rd rs rt : Reg) : RoundTrip.Statement (.div rd rs rt) :=
  roundTrip_some _ _ rfl (by intro; simp [decodeWord, decOp])
theorem RoundTrip.divu (rd rs rt : Reg) : RoundTrip.Statement (.divu rd rs rt) :=
  roundTrip_some _ _ rfl (by intro; simp [decodeWord, decOp])
theorem RoundTrip.rem (rd rs rt : Reg) : RoundTrip.Statement (.rem rd rs rt) :=
  roundTrip_some _ _ rfl (by intro; simp [decodeWord, decOp])
theorem RoundTrip.remu (rd rs rt : Reg) : RoundTrip.Statement (.remu rd rs rt) :=
  roundTrip_some _ _ rfl (by intro; simp [decodeWord, decOp])
theorem RoundTrip.addw (rd rs rt : Reg) : RoundTrip.Statement (.addw rd rs rt) :=
  roundTrip_some _ _ rfl (by intro; simp [decodeWord, decOp32])
theorem RoundTrip.sllw (rd rs rt : Reg) : RoundTrip.Statement (.sllw rd rs rt) :=
  roundTrip_some _ _ rfl (by intro; simp [decodeWord, decOp32])
theorem RoundTrip.srlw (rd rs rt : Reg) : RoundTrip.Statement (.srlw rd rs rt) :=
  roundTrip_some _ _ rfl (by intro; simp [decodeWord, decOp32])
theorem RoundTrip.subw (rd rs rt : Reg) : RoundTrip.Statement (.subw rd rs rt) :=
  roundTrip_some _ _ rfl (by intro; simp [decodeWord, decOp32])
theorem RoundTrip.sraw (rd rs rt : Reg) : RoundTrip.Statement (.sraw rd rs rt) :=
  roundTrip_some _ _ rfl (by intro; simp [decodeWord, decOp32])
theorem RoundTrip.mulw (rd rs rt : Reg) : RoundTrip.Statement (.mulw rd rs rt) :=
  roundTrip_some _ _ rfl (by intro; simp [decodeWord, decOp32])
theorem RoundTrip.divw (rd rs rt : Reg) : RoundTrip.Statement (.divw rd rs rt) :=
  roundTrip_some _ _ rfl (by intro; simp [decodeWord, decOp32])
theorem RoundTrip.divuw (rd rs rt : Reg) : RoundTrip.Statement (.divuw rd rs rt) :=
  roundTrip_some _ _ rfl (by intro; simp [decodeWord, decOp32])
theorem RoundTrip.remw (rd rs rt : Reg) : RoundTrip.Statement (.remw rd rs rt) :=
  roundTrip_some _ _ rfl (by intro; simp [decodeWord, decOp32])
theorem RoundTrip.remuw (rd rs rt : Reg) : RoundTrip.Statement (.remuw rd rs rt) :=
  roundTrip_some _ _ rfl (by intro; simp [decodeWord, decOp32])
theorem RoundTrip.fence (fm pred succ : BitVec 4) (rs rd : Reg) : RoundTrip.Statement (.fence fm pred succ rs rd) :=
  roundTrip_some _ _ rfl (by intro; exact decode_fence ..)
theorem RoundTrip.ecall : RoundTrip.Statement .ecall :=
  roundTrip_some _ _ rfl (by intro; rfl)
theorem RoundTrip.ebreak : RoundTrip.Statement .ebreak :=
  roundTrip_some _ _ rfl (by intro; rfl)
theorem RoundTrip.csrrw (rd : Reg) (csr : BitVec 12) (rs : Reg) : RoundTrip.Statement (.csrrw rd csr rs) :=
  roundTrip_some _ _ rfl (by intro hw; simp [wellFormed] at hw; rw [decode_csr]; simp [decSystem, needCsr, hw])
theorem RoundTrip.csrrs (rd : Reg) (csr : BitVec 12) (rs : Reg) : RoundTrip.Statement (.csrrs rd csr rs) :=
  roundTrip_some _ _ rfl (by intro hw; simp [wellFormed] at hw; rw [decode_csr]; simp [decSystem, needCsr, hw])
theorem RoundTrip.csrrc (rd : Reg) (csr : BitVec 12) (rs : Reg) : RoundTrip.Statement (.csrrc rd csr rs) :=
  roundTrip_some _ _ rfl (by intro hw; simp [wellFormed] at hw; rw [decode_csr]; simp [decSystem, needCsr, hw])
theorem RoundTrip.csrrwi (rd : Reg) (csr : BitVec 12) (u : BitVec 5) : RoundTrip.Statement (.csrrwi rd csr u) :=
  roundTrip_some _ _ rfl (by intro hw; simp [wellFormed] at hw; rw [decode_csr]; simp [decSystem, needCsr, hw])
theorem RoundTrip.csrrsi (rd : Reg) (csr : BitVec 12) (u : BitVec 5) : RoundTrip.Statement (.csrrsi rd csr u) :=
  roundTrip_some _ _ rfl (by intro hw; simp [wellFormed] at hw; rw [decode_csr]; simp [decSystem, needCsr, hw])
theorem RoundTrip.csrrci (rd : Reg) (csr : BitVec 12) (u : BitVec 5) : RoundTrip.Statement (.csrrci rd csr u) :=
  roundTrip_some _ _ rfl (by intro hw; simp [wellFormed] at hw; rw [decode_csr]; simp [decSystem, needCsr, hw])
theorem RoundTrip.vadd (g : Reg3) (ty : ITy) (vd va vb : Reg) : RoundTrip.Statement (.vadd g ty vd va vb) :=
  roundTrip_some _ _ rfl (by intro; simp [decodeWord, decC0])
theorem RoundTrip.vsub (g : Reg3) (ty : ITy) (vd va vb : Reg) : RoundTrip.Statement (.vsub g ty vd va vb) :=
  roundTrip_some _ _ rfl (by intro; simp [decodeWord, decC0])
theorem RoundTrip.vmul (g : Reg3) (ty : ITy) (vd va vb : Reg) : RoundTrip.Statement (.vmul g ty vd va vb) :=
  roundTrip_some _ _ rfl (by intro; simp [decodeWord, decC0])
theorem RoundTrip.vsel (g : Reg3) (ty : ITy) (vd va vb : Reg) : RoundTrip.Statement (.vsel g ty vd va vb) :=
  roundTrip_some _ _ rfl (by intro; simp [decodeWord, decC0])
theorem RoundTrip.vsadd (g : Reg3) (ty : ITy) (vd va vb : Reg) : RoundTrip.Statement (.vsadd g ty vd va vb) :=
  roundTrip_some _ _ rfl (by intro; simp [decodeWord, decC0])
theorem RoundTrip.vssub (g : Reg3) (ty : ITy) (vd va vb : Reg) : RoundTrip.Statement (.vssub g ty vd va vb) :=
  roundTrip_some _ _ rfl (by intro; simp [decodeWord, decC0])
theorem RoundTrip.vmin (g : Reg3) (ty : ITy) (vd va vb : Reg) : RoundTrip.Statement (.vmin g ty vd va vb) :=
  roundTrip_some _ _ rfl (by intro; simp [decodeWord, decC0])
theorem RoundTrip.vmax (g : Reg3) (ty : ITy) (vd va vb : Reg) : RoundTrip.Statement (.vmax g ty vd va vb) :=
  roundTrip_some _ _ rfl (by intro; simp [decodeWord, decC0])
theorem RoundTrip.vminu (g : Reg3) (ty : ITy) (vd va vb : Reg) : RoundTrip.Statement (.vminu g ty vd va vb) :=
  roundTrip_some _ _ rfl (by intro; simp [decodeWord, decC0])
theorem RoundTrip.vmaxu (g : Reg3) (ty : ITy) (vd va vb : Reg) : RoundTrip.Statement (.vmaxu g ty vd va vb) :=
  roundTrip_some _ _ rfl (by intro; simp [decodeWord, decC0])
theorem RoundTrip.vand (g : Reg3) (ty : ITy) (vd va vb : Reg) : RoundTrip.Statement (.vand g ty vd va vb) :=
  roundTrip_some _ _ rfl (by intro; simp [decodeWord, decC0])
theorem RoundTrip.vor (g : Reg3) (ty : ITy) (vd va vb : Reg) : RoundTrip.Statement (.vor g ty vd va vb) :=
  roundTrip_some _ _ rfl (by intro; simp [decodeWord, decC0])
theorem RoundTrip.vxor (g : Reg3) (ty : ITy) (vd va vb : Reg) : RoundTrip.Statement (.vxor g ty vd va vb) :=
  roundTrip_some _ _ rfl (by intro; simp [decodeWord, decC0])
theorem RoundTrip.vsll (g : Reg3) (ty : ITy) (vd va vb : Reg) : RoundTrip.Statement (.vsll g ty vd va vb) :=
  roundTrip_some _ _ rfl (by intro; simp [decodeWord, decC0])
theorem RoundTrip.vsrl (g : Reg3) (ty : ITy) (vd va vb : Reg) : RoundTrip.Statement (.vsrl g ty vd va vb) :=
  roundTrip_some _ _ rfl (by intro; simp [decodeWord, decC0])
theorem RoundTrip.vsra (g : Reg3) (ty : ITy) (vd va vb : Reg) : RoundTrip.Statement (.vsra g ty vd va vb) :=
  roundTrip_some _ _ rfl (by intro; simp [decodeWord, decC0])
theorem RoundTrip.vfadd (g : Reg3) (ty : FTy) (vd va vb : Reg) : RoundTrip.Statement (.vfadd g ty vd va vb) :=
  roundTrip_some _ _ rfl (by intro; simp [decodeWord, decC0, need, needF])
theorem RoundTrip.vfsub (g : Reg3) (ty : FTy) (vd va vb : Reg) : RoundTrip.Statement (.vfsub g ty vd va vb) :=
  roundTrip_some _ _ rfl (by intro; simp [decodeWord, decC0, need, needF])
theorem RoundTrip.vfmul (g : Reg3) (ty : FTy) (vd va vb : Reg) : RoundTrip.Statement (.vfmul g ty vd va vb) :=
  roundTrip_some _ _ rfl (by intro; simp [decodeWord, decC0, need, needF])
theorem RoundTrip.vfma (g : Reg3) (ty : FTy) (vd va vb : Reg) : RoundTrip.Statement (.vfma g ty vd va vb) :=
  roundTrip_some _ _ rfl (by intro; simp [decodeWord, decC0, need, needF])
theorem RoundTrip.vfmin (g : Reg3) (ty : FTy) (vd va vb : Reg) : RoundTrip.Statement (.vfmin g ty vd va vb) :=
  roundTrip_some _ _ rfl (by intro; simp [decodeWord, decC0, need, needF])
theorem RoundTrip.vfmax (g : Reg3) (ty : FTy) (vd va vb : Reg) : RoundTrip.Statement (.vfmax g ty vd va vb) :=
  roundTrip_some _ _ rfl (by intro; simp [decodeWord, decC0, need, needF])
theorem RoundTrip.vfdiv (g : Reg3) (ty : FTy) (vd va vb : Reg) : RoundTrip.Statement (.vfdiv g ty vd va vb) :=
  roundTrip_some _ _ rfl (by intro; simp [decodeWord, decC0, need, needF])
theorem RoundTrip.vfexp2 (g : Reg3) (ty : FTy) (vd va : Reg) : RoundTrip.Statement (.vfexp2 g ty vd va) :=
  roundTrip_some _ _ rfl (by intro; simp [decodeWord, decC0, decSpecial, needF, need])
theorem RoundTrip.vflog2 (g : Reg3) (ty : FTy) (vd va : Reg) : RoundTrip.Statement (.vflog2 g ty vd va) :=
  roundTrip_some _ _ rfl (by intro; simp [decodeWord, decC0, decSpecial, needF, need])
theorem RoundTrip.vfrcp (g : Reg3) (ty : FTy) (vd va : Reg) : RoundTrip.Statement (.vfrcp g ty vd va) :=
  roundTrip_some _ _ rfl (by intro; simp [decodeWord, decC0, decSpecial, needF, need])
theorem RoundTrip.vfrsqrt (g : Reg3) (ty : FTy) (vd va : Reg) : RoundTrip.Statement (.vfrsqrt g ty vd va) :=
  roundTrip_some _ _ rfl (by intro; simp [decodeWord, decC0, decSpecial, needF, need])
theorem RoundTrip.vfsqrt (g : Reg3) (ty : FTy) (vd va : Reg) : RoundTrip.Statement (.vfsqrt g ty vd va) :=
  roundTrip_some _ _ rfl (by intro; simp [decodeWord, decC0, decSpecial, needF, need])
theorem RoundTrip.vftanh (g : Reg3) (ty : FTy) (vd va : Reg) : RoundTrip.Statement (.vftanh g ty vd va) :=
  roundTrip_some _ _ rfl (by intro; simp [decodeWord, decC0, decSpecial, needF, need])
theorem RoundTrip.vfsig (g : Reg3) (ty : FTy) (vd va : Reg) : RoundTrip.Statement (.vfsig g ty vd va) :=
  roundTrip_some _ _ rfl (by intro; simp [decodeWord, decC0, decSpecial, needF, need])
theorem RoundTrip.vferf (g : Reg3) (ty : FTy) (vd va : Reg) : RoundTrip.Statement (.vferf g ty vd va) :=
  roundTrip_some _ _ rfl (by intro; simp [decodeWord, decC0, decSpecial, needF, need])
theorem RoundTrip.vcmpeq (g : Reg3) (ty : ITy) (pd : Reg3) (va vb : Reg) : RoundTrip.Statement (.vcmpeq g ty pd va vb) :=
  roundTrip_some _ _ rfl (by intro; simp [decodeWord, decC0])
theorem RoundTrip.vcmplt (g : Reg3) (ty : ITy) (pd : Reg3) (va vb : Reg) : RoundTrip.Statement (.vcmplt g ty pd va vb) :=
  roundTrip_some _ _ rfl (by intro; simp [decodeWord, decC0])
theorem RoundTrip.vcmple (g : Reg3) (ty : ITy) (pd : Reg3) (va vb : Reg) : RoundTrip.Statement (.vcmple g ty pd va vb) :=
  roundTrip_some _ _ rfl (by intro; simp [decodeWord, decC0])
theorem RoundTrip.vcmpltu (g : Reg3) (ty : ITy) (pd : Reg3) (va vb : Reg) : RoundTrip.Statement (.vcmpltu g ty pd va vb) :=
  roundTrip_some _ _ rfl (by intro; simp [decodeWord, decC0])
theorem RoundTrip.vfcmpeq (g : Reg3) (ty : FTy) (pd : Reg3) (va vb : Reg) : RoundTrip.Statement (.vfcmpeq g ty pd va vb) :=
  roundTrip_some _ _ rfl (by intro; simp [decodeWord, decC0, need, needF])
theorem RoundTrip.vfcmplt (g : Reg3) (ty : FTy) (pd : Reg3) (va vb : Reg) : RoundTrip.Statement (.vfcmplt g ty pd va vb) :=
  roundTrip_some _ _ rfl (by intro; simp [decodeWord, decC0, need, needF])
theorem RoundTrip.vfcmple (g : Reg3) (ty : FTy) (pd : Reg3) (va vb : Reg) : RoundTrip.Statement (.vfcmple g ty pd va vb) :=
  roundTrip_some _ _ rfl (by intro; simp [decodeWord, decC0, need, needF])
theorem RoundTrip.vfcmpun (g : Reg3) (ty : FTy) (pd : Reg3) (va vb : Reg) : RoundTrip.Statement (.vfcmpun g ty pd va vb) :=
  roundTrip_some _ _ rfl (by intro; simp [decodeWord, decC0, need, needF])
theorem RoundTrip.vmacc (ty : MacTy) (ad : Reg3) (va vb : Reg) : RoundTrip.Statement (.vmacc ty ad va vb) :=
  roundTrip_some _ _ rfl (by intro; cases ty <;> simp [decodeWord, decC0, decAcc, encMacTy])
theorem RoundTrip.vdot2 (ty : Dot2Ty) (ad : Reg3) (va vb : Reg) : RoundTrip.Statement (.vdot2 ty ad va vb) :=
  roundTrip_some _ _ rfl (by intro; cases ty <;> simp [decodeWord, decC0, decAcc, encDot2Ty])
theorem RoundTrip.vdot4 (ty : Dot4Ty) (ad : Reg3) (va vb : Reg) : RoundTrip.Statement (.vdot4 ty ad va vb) :=
  roundTrip_some _ _ rfl (by intro; cases ty <;> simp [decodeWord, decC0, decAcc, encDot4Ty])
theorem RoundTrip.vnarrow (ty : Ty3) (sat : Bool) (vd : Reg) (aa : Reg3) : RoundTrip.Statement (.vnarrow ty sat vd aa) :=
  roundTrip_some _ _ rfl (by intro; cases ty <;> cases sat <;> (simp [decodeWord, decC0, decAcc, need]; rfl))
theorem RoundTrip.accz (ad : Reg3) : RoundTrip.Statement (.accz ad) :=
  roundTrip_some _ _ rfl (by intro; simp [decodeWord, decC0, decAcc, need])
theorem RoundTrip.accst (sa : Reg3) (xb : Reg) : RoundTrip.Statement (.accst sa xb) :=
  roundTrip_some _ _ rfl (by intro; simp [decodeWord, decC0, decAcc, need])
theorem RoundTrip.accld (ad : Reg3) (xb : Reg) : RoundTrip.Statement (.accld ad xb) :=
  roundTrip_some _ _ rfl (by intro; simp [decodeWord, decC0, decAcc, need])
theorem RoundTrip.vxchg (vd va : Reg) : RoundTrip.Statement (.vxchg vd va) :=
  roundTrip_some _ _ rfl (by intro; simp [decodeWord, decC0, decAcc, need])
theorem RoundTrip.vld (g : Reg3) (vd xb : Reg) : RoundTrip.Statement (.vld g vd xb) :=
  roundTrip_some _ _ rfl (by intro; simp [decodeWord, decC0, need])
theorem RoundTrip.vst (g : Reg3) (vd xb : Reg) : RoundTrip.Statement (.vst g vd xb) :=
  roundTrip_some _ _ rfl (by intro; simp [decodeWord, decC0, need])
theorem RoundTrip.vlds (g : Reg3) (vd xb xs : Reg) : RoundTrip.Statement (.vlds g vd xb xs) :=
  roundTrip_some _ _ rfl (by intro; simp [decodeWord, decC0])
theorem RoundTrip.vsts (g : Reg3) (vd xb xs : Reg) : RoundTrip.Statement (.vsts g vd xb xs) :=
  roundTrip_some _ _ rfl (by intro; simp [decodeWord, decC0])
theorem RoundTrip.vldx (g : Reg3) (vd xb vi : Reg) : RoundTrip.Statement (.vldx g vd xb vi) :=
  roundTrip_some _ _ rfl (by intro; simp [decodeWord, decC0])
theorem RoundTrip.vstx (g : Reg3) (vd xb vi : Reg) : RoundTrip.Statement (.vstx g vd xb vi) :=
  roundTrip_some _ _ rfl (by intro; simp [decodeWord, decC0])
theorem RoundTrip.vldf (g : Reg3) (ty : FTy) (vd xb : Reg) : RoundTrip.Statement (.vldf g ty vd xb) :=
  roundTrip_some _ _ rfl (by intro; simp [decodeWord, decC0, need, needF])
theorem RoundTrip.pand (pd pa pb : Reg3) : RoundTrip.Statement (.pand pd pa pb) :=
  roundTrip_some _ _ rfl (by intro; simp [decodeWord, decC0, decPred, need])
theorem RoundTrip.por (pd pa pb : Reg3) : RoundTrip.Statement (.por pd pa pb) :=
  roundTrip_some _ _ rfl (by intro; simp [decodeWord, decC0, decPred, need])
theorem RoundTrip.pxor (pd pa pb : Reg3) : RoundTrip.Statement (.pxor pd pa pb) :=
  roundTrip_some _ _ rfl (by intro; simp [decodeWord, decC0, decPred, need])
theorem RoundTrip.pandn (pd pa pb : Reg3) : RoundTrip.Statement (.pandn pd pa pb) :=
  roundTrip_some _ _ rfl (by intro; simp [decodeWord, decC0, decPred, need])
theorem RoundTrip.pnot (pd pa : Reg3) : RoundTrip.Statement (.pnot pd pa) :=
  roundTrip_some _ _ rfl (by intro; simp [decodeWord, decC0, decPred, need])
theorem RoundTrip.pcnt (xd : Reg) (pa : Reg3) : RoundTrip.Statement (.pcnt xd pa) :=
  roundTrip_some _ _ rfl (by intro; simp [decodeWord, decC0, decPred, need])
theorem RoundTrip.pfirst (xd : Reg) (pa : Reg3) : RoundTrip.Statement (.pfirst xd pa) :=
  roundTrip_some _ _ rfl (by intro; simp [decodeWord, decC0, decPred, need])
theorem RoundTrip.plt (pd : Reg3) (xs : Reg) : RoundTrip.Statement (.plt pd xs) :=
  roundTrip_some _ _ rfl (by intro; simp [decodeWord, decC0, decPred, need])
theorem RoundTrip.vredsum (ty : ITy) (xd va : Reg) : RoundTrip.Statement (.vredsum ty xd va) :=
  roundTrip_some _ _ rfl (by intro; simp [decodeWord, decC0, decRed, need])
theorem RoundTrip.vredmax (ty : ITy) (xd va : Reg) : RoundTrip.Statement (.vredmax ty xd va) :=
  roundTrip_some _ _ rfl (by intro; simp [decodeWord, decC0, decRed, need])
theorem RoundTrip.vredmin (ty : ITy) (xd va : Reg) : RoundTrip.Statement (.vredmin ty xd va) :=
  roundTrip_some _ _ rfl (by intro; simp [decodeWord, decC0, decRed, need])
theorem RoundTrip.vfredsum (ty : FTy) (xd va : Reg) : RoundTrip.Statement (.vfredsum ty xd va) :=
  roundTrip_some _ _ rfl (by intro; simp [decodeWord, decC0, decRed, need, needF])
theorem RoundTrip.vfredmax (ty : FTy) (xd va : Reg) : RoundTrip.Statement (.vfredmax ty xd va) :=
  roundTrip_some _ _ rfl (by intro; simp [decodeWord, decC0, decRed, need, needF])
theorem RoundTrip.vfredmin (ty : FTy) (xd va : Reg) : RoundTrip.Statement (.vfredmin ty xd va) :=
  roundTrip_some _ _ rfl (by intro; simp [decodeWord, decC0, decRed, need, needF])
theorem RoundTrip.vslideup (vd va xn : Reg) : RoundTrip.Statement (.vslideup vd va xn) :=
  roundTrip_some _ _ rfl (by intro; simp [decodeWord, decC0, decRed])
theorem RoundTrip.vslidedn (vd va xn : Reg) : RoundTrip.Statement (.vslidedn vd va xn) :=
  roundTrip_some _ _ rfl (by intro; simp [decodeWord, decC0, decRed])
theorem RoundTrip.vperm (vd va vi : Reg) : RoundTrip.Statement (.vperm vd va vi) :=
  roundTrip_some _ _ rfl (by intro; simp [decodeWord, decC0, decRed])
theorem RoundTrip.vbcast (k : BcastW) (vd xs : Reg) : RoundTrip.Statement (.vbcast k vd xs) :=
  roundTrip_some _ _ rfl (by intro; simp [decodeWord, decC0, decRed, need])
theorem RoundTrip.vget (xd va xi : Reg) : RoundTrip.Statement (.vget xd va xi) :=
  roundTrip_some _ _ rfl (by intro; simp [decodeWord, decC0, decRed])
theorem RoundTrip.vset (vd xv xi : Reg) : RoundTrip.Statement (.vset vd xv xi) :=
  roundTrip_some _ _ rfl (by intro; simp [decodeWord, decC0, decRed])
theorem RoundTrip.vcvt (tyd : Ty3) (mode : RMode) (tys : Ty3) (sat : Bool) (vd vs : Reg) : RoundTrip.Statement (.vcvt tyd mode tys sat vd vs) :=
  roundTrip_some _ _ rfl (by intro; cases tys <;> cases sat <;> (simp [decodeWord, decC0, need]; rfl))
theorem RoundTrip.mma (pair : Pair) (xc xa xb : Reg) : RoundTrip.Statement (.mma pair xc xa xb) :=
  roundTrip_some _ _ rfl (by intro; simp [decodeWord, decC1, need, needPair])
theorem RoundTrip.mmav (pair : Pair) (xc xa xb : Reg) : RoundTrip.Statement (.mmav pair xc xa xb) :=
  roundTrip_some _ _ rfl (by intro; simp [decodeWord, decC1, need, needPair])
theorem RoundTrip.mmat (pair : Pair) (xc xa xb : Reg) : RoundTrip.Statement (.mmat pair xc xa xb) :=
  roundTrip_some _ _ rfl (by intro; simp [decodeWord, decC1, need, needPair])
theorem RoundTrip.aclr (xs : Reg) : RoundTrip.Statement (.aclr xs) :=
  roundTrip_some _ _ rfl (by intro; simp [decodeWord, decC1, need])
theorem RoundTrip.anarrow (ty : Ty3) (mode : RMode) (sat : Bool) (xm xg : Reg) : RoundTrip.Statement (.anarrow ty mode sat xm xg) :=
  roundTrip_some _ _ rfl (by intro; simp [decodeWord, decC1, need])
theorem RoundTrip.ald (xg xm : Reg) : RoundTrip.Statement (.ald xg xm) :=
  roundTrip_some _ _ rfl (by intro; simp [decodeWord, decC1, need])
theorem RoundTrip.ast (xg xm : Reg) : RoundTrip.Statement (.ast xg xm) :=
  roundTrip_some _ _ rfl (by intro; simp [decodeWord, decC1, need])
theorem RoundTrip.amovv (vd xg : Reg) : RoundTrip.Statement (.amovv vd xg) :=
  roundTrip_some _ _ rfl (by intro; simp [decodeWord, decC1, need])
theorem RoundTrip.amova (xg vb : Reg) : RoundTrip.Statement (.amova xg vb) :=
  roundTrip_some _ _ rfl (by intro; simp [decodeWord, decC1, need])
theorem RoundTrip.unfcfg (xs : Reg) : RoundTrip.Statement (.unfcfg xs) :=
  roundTrip_some _ _ rfl (by intro; simp [decodeWord, decC1, need])
theorem RoundTrip.qbind (q : Reg3) (xs : Reg) : RoundTrip.Statement (.qbind q xs) :=
  roundTrip_some _ _ rfl (by intro; simp [decodeWord, decC1, need])
theorem RoundTrip.qunbind (q : Reg3) : RoundTrip.Statement (.qunbind q) :=
  roundTrip_some _ _ rfl (by intro; simp [decodeWord, decC1, need])
theorem RoundTrip.qld (vd : Reg) (q : Reg3) : RoundTrip.Statement (.qld vd q) :=
  roundTrip_some _ _ rfl (by intro; simp [decodeWord, decC1, need])
theorem RoundTrip.qst (q : Reg3) (vb : Reg) : RoundTrip.Statement (.qst q vb) :=
  roundTrip_some _ _ rfl (by intro; simp [decodeWord, decC1, need])
theorem RoundTrip.qldx (xd : Reg) (q : Reg3) : RoundTrip.Statement (.qldx xd q) :=
  roundTrip_some _ _ rfl (by intro; simp [decodeWord, decC1, need])
theorem RoundTrip.qstx (q : Reg3) (xs : Reg) : RoundTrip.Statement (.qstx q xs) :=
  roundTrip_some _ _ rfl (by intro; simp [decodeWord, decC1, need])
theorem RoundTrip.qpos (xd : Reg) (q : Reg3) : RoundTrip.Statement (.qpos xd q) :=
  roundTrip_some _ _ rfl (by intro; simp [decodeWord, decC1, need])
theorem RoundTrip.qflush (q : Reg3) : RoundTrip.Statement (.qflush q) :=
  roundTrip_some _ _ rfl (by intro; simp [decodeWord, decC1, need])
theorem RoundTrip.cpyGo (xd xp : Reg) : RoundTrip.Statement (.cpyGo xd xp) :=
  roundTrip_some _ _ rfl (by intro; simp [decodeWord, decC1, need])
theorem RoundTrip.cpyGoM (xd xp xr : Reg) : RoundTrip.Statement (.cpyGoM xd xp xr) :=
  roundTrip_some _ _ rfl (by intro; simp [decodeWord, decC1, need])
theorem RoundTrip.cpyCancel (xn : Reg) : RoundTrip.Statement (.cpyCancel xn) :=
  roundTrip_some _ _ rfl (by intro; simp [decodeWord, decC1, need])
theorem RoundTrip.cpyProg (xd xn : Reg) : RoundTrip.Statement (.cpyProg xd xn) :=
  roundTrip_some _ _ rfl (by intro; simp [decodeWord, decC1, need])
theorem RoundTrip.waitc (nl ns nc nt : BitVec 5) : RoundTrip.Statement (.waitc nl ns nc nt) :=
  roundTrip_some _ _ rfl (by intro; simp [decodeWord, decC1])
theorem RoundTrip.ascale (xg xs : Reg) : RoundTrip.Statement (.ascale xg xs) :=
  roundTrip_some _ _ rfl (by intro; simp [decodeWord, decC1, need])
theorem RoundTrip.send (c : Bool) (ch : BitVec 4) (xt xw0 xw1 : Reg) : RoundTrip.Statement (.send c ch xt xw0 xw1) :=
  roundTrip_some _ _ rfl (by intro; simp [decodeWord, decC2])
theorem RoundTrip.sendv (c : Bool) (ch : BitVec 4) (xt xn vb : Reg) : RoundTrip.Statement (.sendv c ch xt xn vb) :=
  roundTrip_some _ _ rfl (by intro; simp [decodeWord, decC2])
theorem RoundTrip.reply (xw0 xw1 : Reg) : RoundTrip.Statement (.reply xw0 xw1) :=
  roundTrip_some _ _ rfl (by intro; simp [decodeWord, decC2, need])
theorem RoundTrip.msgrd (xd : Reg) : RoundTrip.Statement (.msgrd xd) :=
  roundTrip_some _ _ rfl (by intro; simp [decodeWord, decC2, need])
theorem RoundTrip.msgsrc (xd : Reg) : RoundTrip.Statement (.msgsrc xd) :=
  roundTrip_some _ _ rfl (by intro; simp [decodeWord, decC2, need])
theorem RoundTrip.chon (ch : BitVec 4) : RoundTrip.Statement (.chon ch) :=
  roundTrip_some _ _ rfl (by intro; simp [decodeWord, decC2, need])
theorem RoundTrip.choff (ch : BitVec 4) : RoundTrip.Statement (.choff ch) :=
  roundTrip_some _ _ rfl (by intro; simp [decodeWord, decC2, need])
theorem RoundTrip.rmadd (nr : Bool) (xd xv xa : Reg) : RoundTrip.Statement (.rmadd nr xd xv xa) :=
  roundTrip_some _ _ rfl (by intro hw; simp [wellFormed, okNr] at hw; simp [decodeWord, decC2, need, rmForm, decRm64, hw])
theorem RoundTrip.rmand (nr : Bool) (xd xv xa : Reg) : RoundTrip.Statement (.rmand nr xd xv xa) :=
  roundTrip_some _ _ rfl (by intro hw; simp [wellFormed, okNr] at hw; simp [decodeWord, decC2, need, rmForm, decRm64, hw])
theorem RoundTrip.rmor (nr : Bool) (xd xv xa : Reg) : RoundTrip.Statement (.rmor nr xd xv xa) :=
  roundTrip_some _ _ rfl (by intro hw; simp [wellFormed, okNr] at hw; simp [decodeWord, decC2, need, rmForm, decRm64, hw])
theorem RoundTrip.rmxor (nr : Bool) (xd xv xa : Reg) : RoundTrip.Statement (.rmxor nr xd xv xa) :=
  roundTrip_some _ _ rfl (by intro hw; simp [wellFormed, okNr] at hw; simp [decodeWord, decC2, need, rmForm, decRm64, hw])
theorem RoundTrip.rmmin (nr : Bool) (xd xv xa : Reg) : RoundTrip.Statement (.rmmin nr xd xv xa) :=
  roundTrip_some _ _ rfl (by intro hw; simp [wellFormed, okNr] at hw; simp [decodeWord, decC2, need, rmForm, decRm64, hw])
theorem RoundTrip.rmmax (nr : Bool) (xd xv xa : Reg) : RoundTrip.Statement (.rmmax nr xd xv xa) :=
  roundTrip_some _ _ rfl (by intro hw; simp [wellFormed, okNr] at hw; simp [decodeWord, decC2, need, rmForm, decRm64, hw])
theorem RoundTrip.rmminu (nr : Bool) (xd xv xa : Reg) : RoundTrip.Statement (.rmminu nr xd xv xa) :=
  roundTrip_some _ _ rfl (by intro hw; simp [wellFormed, okNr] at hw; simp [decodeWord, decC2, need, rmForm, decRm64, hw])
theorem RoundTrip.rmmaxu (nr : Bool) (xd xv xa : Reg) : RoundTrip.Statement (.rmmaxu nr xd xv xa) :=
  roundTrip_some _ _ rfl (by intro hw; simp [wellFormed, okNr] at hw; simp [decodeWord, decC2, need, rmForm, decRm64, hw])
theorem RoundTrip.rmswap (nr : Bool) (xd xv xa : Reg) : RoundTrip.Statement (.rmswap nr xd xv xa) :=
  roundTrip_some _ _ rfl (by intro hw; simp [wellFormed, okNr] at hw; simp [decodeWord, decC2, need, rmForm, decRm64, hw])
theorem RoundTrip.rmcas (nr : Bool) (xd xv xa : Reg) : RoundTrip.Statement (.rmcas nr xd xv xa) :=
  roundTrip_some _ _ rfl (by intro; simp [decodeWord, decC2, decRm64])
theorem RoundTrip.rmaddI32 (nr : Bool) (xd xv xa : Reg) : RoundTrip.Statement (.rmaddI32 nr xd xv xa) :=
  roundTrip_some _ _ rfl (by intro hw; simp [wellFormed, okNr] at hw; simp [decodeWord, decC2, need, rmForm, decRm32, hw])
theorem RoundTrip.rmandI32 (nr : Bool) (xd xv xa : Reg) : RoundTrip.Statement (.rmandI32 nr xd xv xa) :=
  roundTrip_some _ _ rfl (by intro hw; simp [wellFormed, okNr] at hw; simp [decodeWord, decC2, need, rmForm, decRm32, hw])
theorem RoundTrip.rmorI32 (nr : Bool) (xd xv xa : Reg) : RoundTrip.Statement (.rmorI32 nr xd xv xa) :=
  roundTrip_some _ _ rfl (by intro hw; simp [wellFormed, okNr] at hw; simp [decodeWord, decC2, need, rmForm, decRm32, hw])
theorem RoundTrip.rmxorI32 (nr : Bool) (xd xv xa : Reg) : RoundTrip.Statement (.rmxorI32 nr xd xv xa) :=
  roundTrip_some _ _ rfl (by intro hw; simp [wellFormed, okNr] at hw; simp [decodeWord, decC2, need, rmForm, decRm32, hw])
theorem RoundTrip.rmminI32 (nr : Bool) (xd xv xa : Reg) : RoundTrip.Statement (.rmminI32 nr xd xv xa) :=
  roundTrip_some _ _ rfl (by intro hw; simp [wellFormed, okNr] at hw; simp [decodeWord, decC2, need, rmForm, decRm32, hw])
theorem RoundTrip.rmmaxI32 (nr : Bool) (xd xv xa : Reg) : RoundTrip.Statement (.rmmaxI32 nr xd xv xa) :=
  roundTrip_some _ _ rfl (by intro hw; simp [wellFormed, okNr] at hw; simp [decodeWord, decC2, need, rmForm, decRm32, hw])
theorem RoundTrip.rmminuI32 (nr : Bool) (xd xv xa : Reg) : RoundTrip.Statement (.rmminuI32 nr xd xv xa) :=
  roundTrip_some _ _ rfl (by intro hw; simp [wellFormed, okNr] at hw; simp [decodeWord, decC2, need, rmForm, decRm32, hw])
theorem RoundTrip.rmmaxuI32 (nr : Bool) (xd xv xa : Reg) : RoundTrip.Statement (.rmmaxuI32 nr xd xv xa) :=
  roundTrip_some _ _ rfl (by intro hw; simp [wellFormed, okNr] at hw; simp [decodeWord, decC2, need, rmForm, decRm32, hw])
theorem RoundTrip.rmswapI32 (nr : Bool) (xd xv xa : Reg) : RoundTrip.Statement (.rmswapI32 nr xd xv xa) :=
  roundTrip_some _ _ rfl (by intro hw; simp [wellFormed, okNr] at hw; simp [decodeWord, decC2, need, rmForm, decRm32, hw])
theorem RoundTrip.rmcasI32 (nr : Bool) (xd xv xa : Reg) : RoundTrip.Statement (.rmcasI32 nr xd xv xa) :=
  roundTrip_some _ _ rfl (by intro; simp [decodeWord, decC2, decRm32])
theorem RoundTrip.rmfadd (nr : Bool) (xd xv xa : Reg) : RoundTrip.Statement (.rmfadd nr xd xv xa) :=
  roundTrip_some _ _ rfl (by intro hw; simp [wellFormed, okNr] at hw; simp [decodeWord, decC2, need, rmForm, decRm32, hw])
theorem RoundTrip.rmfmin (nr : Bool) (xd xv xa : Reg) : RoundTrip.Statement (.rmfmin nr xd xv xa) :=
  roundTrip_some _ _ rfl (by intro hw; simp [wellFormed, okNr] at hw; simp [decodeWord, decC2, need, rmForm, decRm32, hw])
theorem RoundTrip.rmfmax (nr : Bool) (xd xv xa : Reg) : RoundTrip.Statement (.rmfmax nr xd xv xa) :=
  roundTrip_some _ _ rfl (by intro hw; simp [wellFormed, okNr] at hw; simp [decodeWord, decC2, need, rmForm, decRm32, hw])
theorem RoundTrip.logapp (xa xv : Reg) : RoundTrip.Statement (.logapp xa xv) :=
  roundTrip_some _ _ rfl (by intro; simp [decodeWord, decC2, need])
theorem RoundTrip.logmrg (xd xa : Reg) : RoundTrip.Statement (.logmrg xd xa) :=
  roundTrip_some _ _ rfl (by intro; simp [decodeWord, decC2, need])
theorem RoundTrip.tktget (xd xa : Reg) : RoundTrip.Statement (.tktget xd xa) :=
  roundTrip_some _ _ rfl (by intro; simp [decodeWord, decC2, need])
theorem RoundTrip.tktwait (xa xv : Reg) : RoundTrip.Statement (.tktwait xa xv) :=
  roundTrip_some _ _ rfl (by intro; simp [decodeWord, decC2, need])
theorem RoundTrip.tktadv (xa : Reg) : RoundTrip.Statement (.tktadv xa) :=
  roundTrip_some _ _ rfl (by intro; simp [decodeWord, decC2, need])
theorem RoundTrip.bararr (xa xv : Reg) : RoundTrip.Statement (.bararr xa xv) :=
  roundTrip_some _ _ rfl (by intro; simp [decodeWord, decC2, need])
theorem RoundTrip.barwait (xd xa : Reg) : RoundTrip.Statement (.barwait xd xa) :=
  roundTrip_some _ _ rfl (by intro; simp [decodeWord, decC2, need])
theorem RoundTrip.gbar (xd : Reg) : RoundTrip.Statement (.gbar xd) :=
  roundTrip_some _ _ rfl (by intro; simp [decodeWord, decC2, need])
theorem RoundTrip.lbar (xd xa : Reg) : RoundTrip.Statement (.lbar xd xa) :=
  roundTrip_some _ _ rfl (by intro; simp [decodeWord, decC2, need])
theorem RoundTrip.chunkend : RoundTrip.Statement .chunkend :=
  roundTrip_some _ _ rfl (by intro; simp [decodeWord, decC2, need])
theorem RoundTrip.otdecl (xd xa xv : Reg) : RoundTrip.Statement (.otdecl xd xa xv) :=
  roundTrip_some _ _ rfl (by intro; simp [decodeWord, decC2, need])
theorem RoundTrip.launch (xd xa : Reg) : RoundTrip.Statement (.launch xd xa) :=
  roundTrip_some _ _ rfl (by intro; simp [decodeWord, decC2, need])
theorem RoundTrip.fenceX (a b : BitVec 5) : RoundTrip.Statement (.fenceX a b) :=
  roundTrip_some _ _ rfl (by intro hw; simp [wellFormed] at hw; simp [decodeWord, decC2, need, hw])
theorem RoundTrip.crzsendAdd (xa xo : Reg) : RoundTrip.Statement (.crzsendAdd xa xo) :=
  roundTrip_some _ _ rfl (by intro; simp [decodeWord, decC2]; rfl)
theorem RoundTrip.crzsendMax (xa xo : Reg) : RoundTrip.Statement (.crzsendMax xa xo) :=
  roundTrip_some _ _ rfl (by intro; simp [decodeWord, decC2]; rfl)
theorem RoundTrip.crzsendMin (xa xo : Reg) : RoundTrip.Statement (.crzsendMin xa xo) :=
  roundTrip_some _ _ rfl (by intro; simp [decodeWord, decC2]; rfl)
theorem RoundTrip.crzsendAnd (xa xo : Reg) : RoundTrip.Statement (.crzsendAnd xa xo) :=
  roundTrip_some _ _ rfl (by intro; simp [decodeWord, decC2]; rfl)
theorem RoundTrip.crzsendOr (xa xo : Reg) : RoundTrip.Statement (.crzsendOr xa xo) :=
  roundTrip_some _ _ rfl (by intro; simp [decodeWord, decC2]; rfl)
theorem RoundTrip.crzsendXor (xa xo : Reg) : RoundTrip.Statement (.crzsendXor xa xo) :=
  roundTrip_some _ _ rfl (by intro; simp [decodeWord, decC2]; rfl)
theorem RoundTrip.crzsendBadd (xa xo : Reg) : RoundTrip.Statement (.crzsendBadd xa xo) :=
  roundTrip_some _ _ rfl (by intro; simp [decodeWord, decC2]; rfl)
theorem RoundTrip.crzrecv (xd xa : Reg) : RoundTrip.Statement (.crzrecv xd xa) :=
  roundTrip_some _ _ rfl (by intro; simp [decodeWord, decC2, need])
theorem RoundTrip.halt : RoundTrip.Statement .halt :=
  roundTrip_some _ _ rfl (by intro; simp [decodeWord, decC2, need]; rfl)
theorem RoundTrip.haltR (xm xn : Reg) : RoundTrip.Statement (.haltR xm xn) :=
  roundTrip_some _ _ rfl (by intro; simp [decodeWord, decC2, need]; rfl)
theorem RoundTrip.waitC (xs : Reg) : RoundTrip.Statement (.waitC xs) :=
  roundTrip_some _ _ rfl (by intro; simp [decodeWord, decC3, need])
theorem RoundTrip.waitT (xs : Reg) : RoundTrip.Statement (.waitT xs) :=
  roundTrip_some _ _ rfl (by intro; simp [decodeWord, decC3, need])
theorem RoundTrip.waitTr (xs : Reg) : RoundTrip.Statement (.waitTr xs) :=
  roundTrip_some _ _ rfl (by intro; simp [decodeWord, decC3, need])
theorem RoundTrip.breq (prio : BitVec 3) (level : BitVec 2) : RoundTrip.Statement (.breq prio level) :=
  roundTrip_some _ _ rfl (by intro hw; simp [wellFormed] at hw; simp [decodeWord, decC3, need, hw])
theorem RoundTrip.eretS : RoundTrip.Statement .eretS :=
  roundTrip_some _ _ rfl (by intro; simp [decodeWord, decC3, need])
theorem RoundTrip.eretM : RoundTrip.Statement .eretM :=
  roundTrip_some _ _ rfl (by intro; simp [decodeWord, decC3, need])
theorem RoundTrip.tron : RoundTrip.Statement .tron :=
  roundTrip_some _ _ rfl (by intro; simp [decodeWord, decC3, need])
theorem RoundTrip.troff : RoundTrip.Statement .troff :=
  roundTrip_some _ _ rfl (by intro; simp [decodeWord, decC3, need])
theorem RoundTrip.trmark (xs : Reg) : RoundTrip.Statement (.trmark xs) :=
  roundTrip_some _ _ rfl (by intro; simp [decodeWord, decC3, need])
theorem RoundTrip.capon (n : BitVec 5) : RoundTrip.Statement (.capon n) :=
  roundTrip_some _ _ rfl (by intro; simp [decodeWord, decC3, need])
theorem RoundTrip.capoff (n : BitVec 5) : RoundTrip.Statement (.capoff n) :=
  roundTrip_some _ _ rfl (by intro; simp [decodeWord, decC3, need])
theorem RoundTrip.caprd (xd : Reg) (n : BitVec 5) : RoundTrip.Statement (.caprd xd n) :=
  roundTrip_some _ _ rfl (by intro; simp [decodeWord, decC3, need])
theorem RoundTrip.scanrun (xd xs : Reg) : RoundTrip.Statement (.scanrun xd xs) :=
  roundTrip_some _ _ rfl (by intro; simp [decodeWord, decC3, need])
theorem RoundTrip.scanstat (xd : Reg) : RoundTrip.Statement (.scanstat xd) :=
  roundTrip_some _ _ rfl (by intro; simp [decodeWord, decC3, need])
theorem RoundTrip.scanabort : RoundTrip.Statement .scanabort :=
  roundTrip_some _ _ rfl (by intro; simp [decodeWord, decC3, need])
theorem RoundTrip.maprd (xd xs : Reg) : RoundTrip.Statement (.maprd xd xs) :=
  roundTrip_some _ _ rfl (by intro; simp [decodeWord, decC3, need])
theorem RoundTrip.maprm (xs : Reg) : RoundTrip.Statement (.maprm xs) :=
  roundTrip_some _ _ rfl (by intro; simp [decodeWord, decC3, need])
theorem RoundTrip.mapadd (xs : Reg) : RoundTrip.Statement (.mapadd xs) :=
  roundTrip_some _ _ rfl (by intro; simp [decodeWord, decC3, need])
theorem RoundTrip.preq (xd xs : Reg) : RoundTrip.Statement (.preq xd xs) :=
  roundTrip_some _ _ rfl (by intro; simp [decodeWord, decC3, need])
theorem RoundTrip.fundamentalReset : RoundTrip.Statement .fundamentalReset := roundTrip_none _ rfl
theorem RoundTrip.pfFunctionLevelReset : RoundTrip.Statement .pfFunctionLevelReset := roundTrip_none _ rfl
theorem RoundTrip.secondaryBusReset : RoundTrip.Statement .secondaryBusReset := roundTrip_none _ rfl
theorem RoundTrip.bringupPhaseEnd : RoundTrip.Statement .bringupPhaseEnd := roundTrip_none _ rfl
theorem RoundTrip.configRequest : RoundTrip.Statement .configRequest := roundTrip_none _ rfl
theorem RoundTrip.mbootGo : RoundTrip.Statement .mbootGo := roundTrip_none _ rfl
theorem RoundTrip.imageCheck : RoundTrip.Statement .imageCheck := roundTrip_none _ rfl
theorem RoundTrip.rawRailChange : RoundTrip.Statement .rawRailChange := roundTrip_none _ rfl
theorem RoundTrip.regulatorSlewEnd : RoundTrip.Statement .regulatorSlewEnd := roundTrip_none _ rfl
theorem RoundTrip.tratioWindowEnd : RoundTrip.Statement .tratioWindowEnd := roundTrip_none _ rfl
theorem RoundTrip.waitCExpiry : RoundTrip.Statement .waitCExpiry := roundTrip_none _ rfl
theorem RoundTrip.waitTExpiry : RoundTrip.Statement .waitTExpiry := roundTrip_none _ rfl
theorem RoundTrip.boostRequestSample : RoundTrip.Statement .boostRequestSample := roundTrip_none _ rfl
theorem RoundTrip.permitBoundary : RoundTrip.Statement .permitBoundary := roundTrip_none _ rfl
theorem RoundTrip.controllerStep : RoundTrip.Statement .controllerStep := roundTrip_none _ rfl
theorem RoundTrip.admissionRequest : RoundTrip.Statement .admissionRequest := roundTrip_none _ rfl
theorem RoundTrip.ballastLimit : RoundTrip.Statement .ballastLimit := roundTrip_none _ rfl
theorem RoundTrip.exitGroupRelease : RoundTrip.Statement .exitGroupRelease := roundTrip_none _ rfl
theorem RoundTrip.selection : RoundTrip.Statement .selection := roundTrip_none _ rfl
theorem RoundTrip.startingComplete : RoundTrip.Statement .startingComplete := roundTrip_none _ rfl
theorem RoundTrip.bankWakeComplete : RoundTrip.Statement .bankWakeComplete := roundTrip_none _ rfl
theorem RoundTrip.retentionExpiry : RoundTrip.Statement .retentionExpiry := roundTrip_none _ rfl
theorem RoundTrip.groupDispatch : RoundTrip.Statement .groupDispatch := roundTrip_none _ rfl
theorem RoundTrip.launchHeaderArrival : RoundTrip.Statement .launchHeaderArrival := roundTrip_none _ rfl
theorem RoundTrip.hubQueueRefill : RoundTrip.Statement .hubQueueRefill := roundTrip_none _ rfl
theorem RoundTrip.residentSlotCopy : RoundTrip.Statement .residentSlotCopy := roundTrip_none _ rfl
theorem RoundTrip.sorusPass : RoundTrip.Statement .sorusPass := roundTrip_none _ rfl
theorem RoundTrip.preemptionRequest : RoundTrip.Statement .preemptionRequest := roundTrip_none _ rfl
theorem RoundTrip.safePoint : RoundTrip.Statement .safePoint := roundTrip_none _ rfl
theorem RoundTrip.saveComplete : RoundTrip.Statement .saveComplete := roundTrip_none _ rfl
theorem RoundTrip.restoreComplete : RoundTrip.Statement .restoreComplete := roundTrip_none _ rfl
theorem RoundTrip.launchCompletion : RoundTrip.Statement .launchCompletion := roundTrip_none _ rfl
theorem RoundTrip.grant : RoundTrip.Statement .grant := roundTrip_none _ rfl
theorem RoundTrip.broadcastArrival : RoundTrip.Statement .broadcastArrival := roundTrip_none _ rfl
theorem RoundTrip.drainComplete : RoundTrip.Statement .drainComplete := roundTrip_none _ rfl
theorem RoundTrip.localCommit : RoundTrip.Statement .localCommit := roundTrip_none _ rfl
theorem RoundTrip.reservationTimeout : RoundTrip.Statement .reservationTimeout := roundTrip_none _ rfl
theorem RoundTrip.loadDataReturn : RoundTrip.Statement .loadDataReturn := roundTrip_none _ rfl
theorem RoundTrip.tileOperationComplete : RoundTrip.Statement .tileOperationComplete := roundTrip_none _ rfl
theorem RoundTrip.copyHeadCheck : RoundTrip.Statement .copyHeadCheck := roundTrip_none _ rfl
theorem RoundTrip.copySectorWritten : RoundTrip.Statement .copySectorWritten := roundTrip_none _ rfl
theorem RoundTrip.streamFetchReturn : RoundTrip.Statement .streamFetchReturn := roundTrip_none _ rfl
theorem RoundTrip.streamWriteTransferDone : RoundTrip.Statement .streamWriteTransferDone := roundTrip_none _ rfl
theorem RoundTrip.barrierUpdate : RoundTrip.Statement .barrierUpdate := roundTrip_none _ rfl
theorem RoundTrip.exchangeComplete : RoundTrip.Statement .exchangeComplete := roundTrip_none _ rfl
theorem RoundTrip.groupBarrierComplete : RoundTrip.Statement .groupBarrierComplete := roundTrip_none _ rfl
theorem RoundTrip.launchBarrierComplete : RoundTrip.Statement .launchBarrierComplete := roundTrip_none _ rfl
theorem RoundTrip.logMergeDone : RoundTrip.Statement .logMergeDone := roundTrip_none _ rfl
theorem RoundTrip.crozierContribution : RoundTrip.Statement .crozierContribution := roundTrip_none _ rfl
theorem RoundTrip.ownerRequestArrival : RoundTrip.Statement .ownerRequestArrival := roundTrip_none _ rfl
theorem RoundTrip.replyArrival : RoundTrip.Statement .replyArrival := roundTrip_none _ rfl
theorem RoundTrip.resultCacheRetirement : RoundTrip.Statement .resultCacheRetirement := roundTrip_none _ rfl
theorem RoundTrip.retransmission : RoundTrip.Statement .retransmission := roundTrip_none _ rfl
theorem RoundTrip.serialWrapRelease : RoundTrip.Statement .serialWrapRelease := roundTrip_none _ rfl
theorem RoundTrip.messageArrival : RoundTrip.Statement .messageArrival := roundTrip_none _ rfl
theorem RoundTrip.messageSendRelease : RoundTrip.Statement .messageSendRelease := roundTrip_none _ rfl
theorem RoundTrip.postGo : RoundTrip.Statement .postGo := roundTrip_none _ rfl
theorem RoundTrip.hteHubWrite : RoundTrip.Statement .hteHubWrite := roundTrip_none _ rfl
theorem RoundTrip.scanDrainEnd : RoundTrip.Statement .scanDrainEnd := roundTrip_none _ rfl
theorem RoundTrip.scanDrainTimeout : RoundTrip.Statement .scanDrainTimeout := roundTrip_none _ rfl
theorem RoundTrip.scanPatternEnd : RoundTrip.Statement .scanPatternEnd := roundTrip_none _ rfl
theorem RoundTrip.lcmapAbsentSet : RoundTrip.Statement .lcmapAbsentSet := roundTrip_none _ rfl
theorem RoundTrip.lcmapAbsentClear : RoundTrip.Statement .lcmapAbsentClear := roundTrip_none _ rfl
theorem RoundTrip.hcdataWrite : RoundTrip.Statement .hcdataWrite := roundTrip_none _ rfl
theorem RoundTrip.hubWindowWrite : RoundTrip.Statement .hubWindowWrite := roundTrip_none _ rfl
theorem RoundTrip.ptrootWrite : RoundTrip.Statement .ptrootWrite := roundTrip_none _ rfl
theorem RoundTrip.tlbinvWrite : RoundTrip.Statement .tlbinvWrite := roundTrip_none _ rfl
theorem RoundTrip.boostlvlWrite : RoundTrip.Statement .boostlvlWrite := roundTrip_none _ rfl
theorem RoundTrip.ppoolWrite : RoundTrip.Statement .ppoolWrite := roundTrip_none _ rfl
theorem RoundTrip.hostCxlMemWrite : RoundTrip.Statement .hostCxlMemWrite := roundTrip_none _ rfl
theorem RoundTrip.hostCxlMemRead : RoundTrip.Statement .hostCxlMemRead := roundTrip_none _ rfl
theorem RoundTrip.launchWindowWrite : RoundTrip.Statement .launchWindowWrite := roundTrip_none _ rfl
theorem RoundTrip.hostBarInvalidAccess : RoundTrip.Statement .hostBarInvalidAccess := roundTrip_none _ rfl
theorem RoundTrip.vfFunctionLevelReset : RoundTrip.Statement .vfFunctionLevelReset := roundTrip_none _ rfl
theorem RoundTrip.vfResetEnd : RoundTrip.Statement .vfResetEnd := roundTrip_none _ rfl
theorem RoundTrip.spartWrite : RoundTrip.Statement .spartWrite := roundTrip_none _ rfl
theorem RoundTrip.partitionControllerStep : RoundTrip.Statement .partitionControllerStep := roundTrip_none _ rfl
theorem RoundTrip.datagramArrival : RoundTrip.Statement .datagramArrival := roundTrip_none _ rfl
theorem RoundTrip.exportRequest : RoundTrip.Statement .exportRequest := roundTrip_none _ rfl
theorem RoundTrip.revoke : RoundTrip.Statement .revoke := roundTrip_none _ rfl
theorem RoundTrip.revokeDrainEnd : RoundTrip.Statement .revokeDrainEnd := roundTrip_none _ rfl
theorem RoundTrip.bucketRefill : RoundTrip.Statement .bucketRefill := roundTrip_none _ rfl
theorem RoundTrip.headRequestRelease : RoundTrip.Statement .headRequestRelease := roundTrip_none _ rfl
theorem RoundTrip.checkpointGo : RoundTrip.Statement .checkpointGo := roundTrip_none _ rfl
theorem RoundTrip.checkpointUnitAck : RoundTrip.Statement .checkpointUnitAck := roundTrip_none _ rfl
theorem RoundTrip.checkpointResend : RoundTrip.Statement .checkpointResend := roundTrip_none _ rfl
theorem RoundTrip.debugHalt : RoundTrip.Statement .debugHalt := roundTrip_none _ rfl
theorem RoundTrip.debugResume : RoundTrip.Statement .debugResume := roundTrip_none _ rfl
theorem RoundTrip.debugStep : RoundTrip.Statement .debugStep := roundTrip_none _ rfl
theorem RoundTrip.dbgrdatWrite : RoundTrip.Statement .dbgrdatWrite := roundTrip_none _ rfl
theorem RoundTrip.syncPeriod : RoundTrip.Statement .syncPeriod := roundTrip_none _ rfl
theorem RoundTrip.routerGridPeriod : RoundTrip.Statement .routerGridPeriod := roundTrip_none _ rfl
theorem RoundTrip.trapEntry : RoundTrip.Statement .trapEntry := roundTrip_none _ rfl
theorem RoundTrip.interruptEntry : RoundTrip.Statement .interruptEntry := roundTrip_none _ rfl
theorem RoundTrip.detectionTimerExpiry : RoundTrip.Statement .detectionTimerExpiry := roundTrip_none _ rfl
theorem RoundTrip.enginePageFault : RoundTrip.Statement .enginePageFault := roundTrip_none _ rfl
theorem RoundTrip.promiseExpiry : RoundTrip.Statement .promiseExpiry := roundTrip_none _ rfl
theorem RoundTrip.uncorrectableError : RoundTrip.Statement .uncorrectableError := roundTrip_none _ rfl
theorem RoundTrip.finjWrite : RoundTrip.Statement .finjWrite := roundTrip_none _ rfl
theorem RoundTrip.finjRead : RoundTrip.Statement .finjRead := roundTrip_none _ rfl
theorem RoundTrip.railSample : RoundTrip.Statement .railSample := roundTrip_none _ rfl
theorem RoundTrip.timeBeacon : RoundTrip.Statement .timeBeacon := roundTrip_none _ rfl
theorem RoundTrip.beaconLoss : RoundTrip.Statement .beaconLoss := roundTrip_none _ rfl
theorem RoundTrip.linkLaneFailure : RoundTrip.Statement .linkLaneFailure := roundTrip_none _ rfl
theorem RoundTrip.linkRetrainEnd : RoundTrip.Statement .linkRetrainEnd := roundTrip_none _ rfl
theorem RoundTrip.portLaneFailure : RoundTrip.Statement .portLaneFailure := roundTrip_none _ rfl
theorem RoundTrip.portRetrainEnd : RoundTrip.Statement .portRetrainEnd := roundTrip_none _ rfl
theorem RoundTrip.pstatRead : RoundTrip.Statement .pstatRead := roundTrip_none _ rfl
theorem RoundTrip.debtstallTimer : RoundTrip.Statement .debtstallTimer := roundTrip_none _ rfl
theorem RoundTrip.requestLastDeadline : RoundTrip.Statement .requestLastDeadline := roundTrip_none _ rfl
theorem RoundTrip.returnToService : RoundTrip.Statement .returnToService := roundTrip_none _ rfl
theorem RoundTrip.hostLaneFailure : RoundTrip.Statement .hostLaneFailure := roundTrip_none _ rfl

end Sys2Proof.Laws
end

