-- ==== Sys2Proof/Laws/Retire.lean ====
section
/-! SUPPORT. Registers read after a write (R16, R26), and what retiring an instruction does (R134): one lemma for each shared
operation that meanings end in. -/

namespace Sys2Proof.Machine

open Sys2Proof

/-! ### Register files -/

section
variable (g : Regs)

@[simp] theorem getX_zero : g.getX 0 = 0 := rfl
theorem getX_setX (d r : Nat) (v : Word) : (g.setX d v).getX r = if r = d ∧ r ≠ 0 then v else g.getX r := by
  unfold Regs.setX Regs.getX
  by_cases hd : d = 0
  · subst hd; simp only [if_true]; split <;> simp_all
  · rw [if_neg hd]; by_cases hr : r = 0
    · subst hr; simp
    · simp only [ne_eq, hr, not_false_eq_true, and_true]; exact tget_tset ..
theorem getV_setV (d r : Nat) (v : VReg) : (g.setV d v).getV r = if r = d then v else g.getV r := tget_tset ..
theorem getP_setP (d r : Nat) (v : PReg) : (g.setP d v).getP r = if r = d ∧ r ≠ 0 then v else g.getP r := by
  unfold Regs.setP Regs.getP
  by_cases hd : d = 0
  · subst hd; simp only [if_true]; split <;> simp_all
  · rw [if_neg hd]; by_cases hr : r = 0
    · subst hr; simp
    · simp only [ne_eq, hr, not_false_eq_true, and_true]; exact tget_tset ..
theorem getA_setA (d r : Nat) (v : AReg) : (g.setA d v).getA r = if r = d then v else g.getA r := tget_tset ..

@[simp] theorem setX_v (d : Nat) (v : Word) : (g.setX d v).v = g.v := by unfold Regs.setX; split <;> rfl
@[simp] theorem setX_p (d : Nat) (v : Word) : (g.setX d v).p = g.p := by unfold Regs.setX; split <;> rfl
@[simp] theorem setX_a (d : Nat) (v : Word) : (g.setX d v).a = g.a := by unfold Regs.setX; split <;> rfl
@[simp] theorem setV_x (d : Nat) (v : VReg) : (g.setV d v).x = g.x := rfl
@[simp] theorem setV_p (d : Nat) (v : VReg) : (g.setV d v).p = g.p := rfl
@[simp] theorem setV_a (d : Nat) (v : VReg) : (g.setV d v).a = g.a := rfl
@[simp] theorem setP_x (d : Nat) (v : PReg) : (g.setP d v).x = g.x := by unfold Regs.setP; split <;> rfl
@[simp] theorem setP_v (d : Nat) (v : PReg) : (g.setP d v).v = g.v := by unfold Regs.setP; split <;> rfl
@[simp] theorem setP_a (d : Nat) (v : PReg) : (g.setP d v).a = g.a := by unfold Regs.setP; split <;> rfl
@[simp] theorem setA_x (d : Nat) (v : AReg) : (g.setA d v).x = g.x := rfl
@[simp] theorem setA_v (d : Nat) (v : AReg) : (g.setA d v).v = g.v := rfl
@[simp] theorem setA_p (d : Nat) (v : AReg) : (g.setA d v).p = g.p := rfl
end

/-- Two numbers of 5-bit registers are equal where the registers are. -/
theorem reg_eq {n : Nat} (r d : BitVec n) : r.toNat = d.toNat ↔ r = d := BitVec.toNat_inj
theorem reg_zero {n : Nat} (r : BitVec n) : r.toNat = 0 ↔ r = 0 := by
  rw [show (0 : Nat) = (0 : BitVec n).toNat by simp, BitVec.toNat_inj]

/-- The registers of a state read through its current context only. -/
theorem x_of_regs {s t : State} (h : t.hart.regs = s.hart.regs) (r : Reg) : t.x r = s.x r := by unfold State.x; rw [h]

theorem wroteX_of_regs {s t : State} {d : Reg} {v : Word} (h : t.hart.regs = s.hart.regs.setX d.toNat v) : WroteX s t d v where
  x r := by unfold State.x; rw [h, getX_setX]; simp only [reg_eq, ne_eq, reg_zero]
  v r := by unfold State.v Regs.getV; rw [h, setX_v]
  p r := by unfold State.p Regs.getP; rw [h, setX_p]
  acc r := by unfold State.acc Regs.getA; rw [h, setX_a]

theorem wroteV_of_regs {s t : State} {d : Reg} {v : VReg} (h : t.hart.regs = s.hart.regs.setV d.toNat v) : WroteV s t d v where
  x r := by unfold State.x Regs.getX; rw [h, setV_x]
  v r := by unfold State.v; rw [h, getV_setV]; simp only [reg_eq]
  p r := by unfold State.p Regs.getP; rw [h, setV_p]
  acc r := by unfold State.acc Regs.getA; rw [h, setV_a]

theorem wroteP_of_regs {s t : State} {d : Reg3} {v : PReg} (h : t.hart.regs = s.hart.regs.setP d.toNat v) : WroteP s t d v where
  x r := by unfold State.x Regs.getX; rw [h, setP_x]
  v r := by unfold State.v Regs.getV; rw [h, setP_v]
  p r := by unfold State.p; rw [h, getP_setP]; simp only [reg_eq, ne_eq, reg_zero]
  acc r := by unfold State.acc Regs.getA; rw [h, setP_a]

theorem wroteA_of_regs {s t : State} {d : Reg3} {v : AReg} (h : t.hart.regs = s.hart.regs.setA d.toNat v) : WroteA s t d v where
  x r := by unfold State.x Regs.getX; rw [h, setA_x]
  v r := by unfold State.v Regs.getV; rw [h, setA_v]
  p r := by unfold State.p Regs.getP; rw [h, setA_p]
  acc r := by unfold State.acc; rw [h, getA_setA]; simp only [reg_eq]

theorem regsKept_of_regs {s t : State} (h : t.hart.regs = s.hart.regs) : RegsKept s t where
  x r := x_of_regs h r
  v r := by unfold State.v; rw [h]
  p r := by unfold State.p; rw [h]
  acc r := by unfold State.acc; rw [h]

/-! ### Frames -/

theorem timersKept_of {s t : State} (h : t.timers = s.timers) : TimersKept s t := ⟨[], by simp [h], by simp⟩

theorem timersKept_trans {s t u : State} (h : TimersKept s t) (hc : t.cur = s.cur) (k : TimersKept t u) : TimersKept s u := by
  obtain ⟨l, e, hl⟩ := h
  obtain ⟨m, e', hm⟩ := k
  refine ⟨l ++ m, by rw [e', e, List.append_assoc], fun x hx => ?_⟩
  rcases List.mem_append.1 hx with hx | hx
  · exact hl x hx
  · exact hc ▸ hm x hx

theorem unitsKept_refl (s : State) : UnitsKept s s :=
  ⟨fun _ => rfl, fun _ _ => rfl, fun _ _ => rfl, rfl, rfl, rfl, rfl, rfl, rfl, rfl, rfl, timersKept_of rfl, rfl, rfl, rfl, rfl⟩

theorem unitsKept_trans {s t u : State} (h : UnitsKept s t) (k : UnitsKept t u) : UnitsKept s u where
  byte a := (k.byte a).trans (h.byte a)
  ctx j hj := (k.ctx j (by rw [h.cur]; exact hj)).trans (h.ctx j hj)
  aux j hj := (k.aux j (by rw [h.cur]; exact hj)).trans (h.aux j hj)
  cores := k.cores.trans h.cores
  sori := k.sori.trans h.sori
  saux := k.saux.trans h.saux
  parts := k.parts.trans h.parts
  slots := k.slots.trans h.slots
  hub := k.hub.trans h.hub
  fabric := k.fabric.trans h.fabric
  gtime := k.gtime.trans h.gtime
  timers := timersKept_trans h.timers h.cur k.timers
  out := k.out.trans h.out
  cur := k.cur.trans h.cur
  flight := by have := k.flight; have := h.flight; grind
  thallus := by have := k.thallus; have := h.thallus; grind

theorem statusKept_refl (s : State) : StatusKept s s := ⟨rfl, rfl, rfl, rfl⟩
theorem statusKept_trans {s t u : State} (h : StatusKept s t) (k : StatusKept t u) : StatusKept s u :=
  ⟨k.sys.trans h.sys, k.priv.trans h.priv, k.firing.trans h.firing, k.st.trans h.st⟩
theorem statusKept_of_hart {s t : State} (h : t.hart = s.hart) : StatusKept s t := by constructor <;> rw [h]

theorem setHart_unitsKept (s : State) (c : Ctx) : UnitsKept s (s.setHart c) :=
  ⟨fun _ => rfl, fun _ h => setHart_ctx_other _ _ _ h, fun _ _ => rfl, rfl, rfl, rfl, rfl, rfl, rfl, rfl, rfl, timersKept_of rfl, rfl, rfl, rfl, rfl⟩
theorem setAux_unitsKept (s : State) (a : CtxAux) : UnitsKept s (s.setAux s.cur a) :=
  ⟨fun _ => rfl, fun _ _ => rfl, fun _ h => setAux_aux_other _ _ _ _ h, rfl, rfl, rfl, rfl, rfl, rfl, rfl, rfl, timersKept_of rfl, rfl, rfl, rfl, rfl⟩
theorem poke_unitsKept (s : State) (e : Event) : UnitsKept s (s.poke e) :=
  ⟨fun _ => rfl, fun _ _ => rfl, fun _ _ => rfl, rfl, rfl, rfl, rfl, rfl, rfl, rfl, rfl, timersKept_of rfl, rfl, rfl, rfl, rfl⟩
theorem spend_unitsKept (s : State) : UnitsKept s s.spend :=
  ⟨fun _ => rfl, fun _ _ => rfl, fun _ _ => rfl, rfl, rfl, rfl, rfl, rfl, rfl, rfl, rfl, timersKept_of rfl, rfl, rfl, rfl, rfl⟩
theorem setRegs_unitsKept (s : State) (g : Regs) : UnitsKept s (s.setRegs g) := setHart_unitsKept ..
theorem setRegs_statusKept (s : State) (g : Regs) : StatusKept s (s.setRegs g) := by constructor <;> simp
theorem hold_unitsKept (s : State) (i : Held) : UnitsKept s (s.hold i) := setHart_unitsKept ..
theorem hold_hart (s : State) (i : Held) :
    (s.hold i).hart = { s.hart with young := { s.hart.young with held := s.hart.young.held ++ [i] } } := setHart_hart ..

/-! ### Retiring -/

/-- A context one instruction further. -/
def Ctx.ticked (c : Ctx) (npc : Word) : Ctx := { c with pc := npc, young := { c.young with n := c.young.n + 1 } }
/-- A context whose chunk has just ended and awaits its commit since `g`. -/
def Ctx.closed (c : Ctx) (g : Nat) : Ctx := { c.shift with older := some { c.young with since := g } }
/-- A context whose chunk has ended behind an uncommitted one. -/
def Ctx.stopped (c : Ctx) : Ctx := { c with young := { c.young with ended := true } }
/-- A context that issues nothing until its commit. -/
def Ctx.synced (c : Ctx) : Ctx := { c with sync := true }

/-- A capture counter changes nothing but the counters of its context (R257). -/
theorem capEvent_eq (s : State) (h evt n : Nat) : ∃ caps, s.capEvent h evt n = s ∨
    s.capEvent h evt n = s.setAux h { s.aux h with caps := caps } := by
  unfold State.capEvent; dsimp only
  by_cases hc : ((s.aux h).capOn = 0 || !(s.ctx h).st.counts || (s.sx (h / 64)).halted) = true
  · exact ⟨[], .inl (if_pos hc)⟩
  · exact ⟨_, .inr (if_neg hc)⟩

/-- What advancing does (R134): the pc, one instruction more in the chunk, the turn used. -/
theorem advance_spec (s : State) (npc : Word) : UnitsKept s (s.advance npc) ∧ (s.advance npc).hart = s.hart.ticked npc ∧
    (s.advance npc).spent = true ∧ (s.advance npc).thallus = s.thallus ∧ (s.advance npc).flight = s.flight := by
  have key : ∀ u : State, UnitsKept s u → u.hart = s.hart.ticked npc → u.thallus = s.thallus → u.flight = s.flight →
      UnitsKept s (u.capEvent u.cur 1 1).spend ∧ (u.capEvent u.cur 1 1).spend.hart = s.hart.ticked npc ∧
      (u.capEvent u.cur 1 1).spend.spent = true ∧ (u.capEvent u.cur 1 1).spend.thallus = s.thallus ∧
      (u.capEvent u.cur 1 1).spend.flight = s.flight := by
    intro u hk hh ht hf
    obtain ⟨caps, h | h⟩ := capEvent_eq u u.cur 1 1
    · rw [h]; exact ⟨unitsKept_trans hk (spend_unitsKept _), hh, rfl, ht, hf⟩
    · rw [h]; exact ⟨unitsKept_trans hk (unitsKept_trans (setAux_unitsKept u _) (spend_unitsKept _)), hh, rfl, ht, hf⟩
  have h0 := setHart_unitsKept s (s.hart.ticked npc)
  have e : s.advance npc =
      (let t := s.setHart (s.hart.ticked npc)
       let u := if s.hart.st = .draining && s.hart.firing.any (fun f => f.level = s.hart.priv) then
         t.setAux t.cur { t.aux t.cur with drainFrom := (t.aux t.cur).drainFrom + 1 } else t
       (u.capEvent u.cur 1 1).spend) := by unfold State.advance; rfl
  rw [e]; dsimp only
  split
  · exact key _ (unitsKept_trans h0 (setAux_unitsKept _ _)) (by rw [setAux_hart, setHart_hart]) rfl rfl
  · exact key _ h0 (setHart_hart ..) rfl rfl

/-- What a chunk bound does to a firing that it does not kill (R133, R134). -/
theorem endChunk_spec (s : State) (hu : Unordered s) : UnitsKept s (s.endChunk s.cur) ∧
    (s.endChunk s.cur).flight = s.flight ∧ (s.endChunk s.cur).spent = s.spent ∧
    (s.hart.older = none → (s.endChunk s.cur).hart = s.hart.closed s.gtime) ∧
    (s.hart.older ≠ none → (s.endChunk s.cur).hart = s.hart.stopped) := by
  have hord : (s.hart.firing.any (fun f => f.order.isSome) && !s.hart.young.halts) = false := by
    cases hf : s.hart.firing with
    | none => rfl
    | some f => simp [hu f hf]
  have e : s.endChunk s.cur = if s.hart.older.isNone then (s.setHart s.hart.shift).requestCommit s.cur
      else s.setHart s.hart.stopped := by
    unfold State.endChunk; dsimp only; exact if_neg (by simp only [State.hart] at hord; simp [hord])
  rw [e]
  cases ho : s.hart.older with
  | some o =>
    simp only [Option.isNone_some, Bool.false_eq_true, if_false]
    exact ⟨setHart_unitsKept .., rfl, rfl, by simp, fun _ => setHart_hart ..⟩
  | none =>
    simp only [Option.isNone_none, if_true]
    have h1 : (s.setHart s.hart.shift).ctx s.cur = s.hart.shift := setHart_hart ..
    have e2 : (s.setHart s.hart.shift).requestCommit s.cur =
        (let t := (s.setHart s.hart.shift).setHart (s.hart.closed s.gtime)
         if s.hart.young.wset.any thallusLine then
           let d := s.hopTime (s.cur / 64) (homeSlice s.hart.young.wset)
           ({ t with thallus := { t.thallus with
             requests := insertReq ⟨s.gtime + d, s.cur, s.hart.young.wset⟩ t.thallus.requests } }).after (d + pathTime) .grant
         else t.after pathTime (.localCommit s.cur)) := by
      unfold State.requestCommit; rw [h1]; rfl
    rw [e2]; dsimp only
    have k := unitsKept_trans (setHart_unitsKept s s.hart.shift) (setHart_unitsKept (s.setHart s.hart.shift) (s.hart.closed s.gtime))
    split
    · refine ⟨⟨k.byte, k.ctx, k.aux, k.cores, k.sori, k.saux, k.parts, k.slots, k.hub, k.fabric, k.gtime,
        ⟨_, rfl, by simp⟩, k.out, k.cur, k.flight, rfl⟩, rfl, rfl, fun _ => ?_, fun h => absurd rfl h⟩
      exact setHart_hart (s.setHart s.hart.shift) (s.hart.closed s.gtime)
    · refine ⟨⟨k.byte, k.ctx, k.aux, k.cores, k.sori, k.saux, k.parts, k.slots, k.hub, k.fabric, k.gtime,
        ⟨_, rfl, by simp⟩, k.out, k.cur, k.flight, rfl⟩, rfl, rfl, fun _ => ?_, fun h => absurd rfl h⟩
      exact setHart_hart (s.setHart s.hart.shift) (s.hart.closed s.gtime)

theorem full_ticked (c : Ctx) (npc : Word) : (c.ticked npc).young.full = fills c.young := by
  unfold Chunk.full fills Ctx.ticked; simp

/-- What retiring does where no bound falls. -/
theorem retire_noBound (s : State) (npc : Word) (hb : NoBound s) : UnitsKept s (s.retire npc) ∧
    (s.retire npc).hart = s.hart.ticked npc ∧ (s.retire npc).spent = true ∧ (s.retire npc).thallus = s.thallus ∧
    (s.retire npc).flight = s.flight := by
  have : s.retire npc = s.advance npc := by
    unfold State.retire; dsimp only; rw [if_neg]
    rw [(advance_spec s npc).2.1, full_ticked, show fills s.hart.young = false from hb]; simp
  rw [this]; exact advance_spec s npc

/-- What the end of an instruction leaves in its context, with or without a bound: the register files, the status, the pc,
what its chunk holds. -/
structure Ends (s t : State) (npc : Word) : Prop where
  retired : Retired s t npc
  regs : t.hart.regs = s.hart.regs
  shadow : t.hart.shadow = s.hart.shadow
  pend : t.hart.pend = s.hart.pend
  wait : t.hart.wait = s.hart.wait
  flight : t.flight = s.flight
  holds : Holds s t []

theorem ends_ticked {s t : State} {npc : Word} (hk : UnitsKept s t) (hs : t.spent = true) (hf : t.flight = s.flight)
    (h : t.hart = s.hart.ticked npc) : Ends s t npc :=
  ⟨⟨hk, by constructor <;> rw [h] <;> rfl, by rw [h]; rfl, hs⟩, by rw [h]; rfl, by rw [h]; rfl, by rw [h]; rfl,
    by rw [h]; rfl, hf, ⟨_, .inl rfl, by rw [h]; simp [Ctx.ticked], by rw [h]; rfl, by rw [h]; rfl⟩⟩

theorem ends_closed {s t : State} {npc : Word} {c : Ctx} (hc : c = s.hart.ticked npc ∨ c = (s.hart.ticked npc).synced)
    (hk : UnitsKept s t) (hs : t.spent = true) (hf : t.flight = s.flight) (h : t.hart = c.closed s.gtime) : Ends s t npc := by
  have hy : c.young.held = s.hart.young.held ++ [] ∧ c.young.n = s.hart.young.n + 1 ∧ c.young.wbuf = s.hart.young.wbuf := by
    rcases hc with hc | hc <;> subst hc <;> exact ⟨(List.append_nil _).symm, rfl, rfl⟩
  have hh : Holds s t [] := ⟨{ c.young with since := s.gtime }, .inr (by rw [h]; rfl), hy.1, hy.2.1, hy.2.2⟩
  rcases hc with hc | hc <;> subst hc <;>
    exact ⟨⟨hk, by constructor <;> rw [h] <;> rfl, by rw [h]; rfl, hs⟩, by rw [h]; rfl, by rw [h]; rfl, by rw [h]; rfl,
      by rw [h]; rfl, hf, hh⟩

theorem ends_stopped {s t : State} {npc : Word} {c : Ctx} (hc : c = s.hart.ticked npc ∨ c = (s.hart.ticked npc).synced)
    (hk : UnitsKept s t) (hs : t.spent = true) (hf : t.flight = s.flight) (h : t.hart = c.stopped) : Ends s t npc := by
  rcases hc with hc | hc <;> subst hc <;>
    exact ⟨⟨hk, by constructor <;> rw [h] <;> rfl, by rw [h]; rfl, hs⟩, by rw [h]; rfl, by rw [h]; rfl, by rw [h]; rfl,
      by rw [h]; rfl, hf, ⟨_, .inl rfl, by rw [h]; simp [Ctx.ticked, Ctx.synced, Ctx.stopped], by rw [h]; rfl, by rw [h]; rfl⟩⟩

theorem unordered_of_firing {s t : State} (h : t.hart.firing = s.hart.firing) (hu : Unordered s) : Unordered t := by
  intro f hf; rw [h] at hf; exact hu f hf

/-- What a bound does at the end of an instruction: `t` is the state one instruction further. -/
theorem bound_spec {s t : State} {npc : Word} {c : Ctx} (hc : c = s.hart.ticked npc ∨ c = (s.hart.ticked npc).synced)
    (hk : UnitsKept s t) (ht : t.hart = c) (hs : t.spent = true) (hf : t.flight = s.flight) (hu : Unordered s) :
    Ends s (t.endChunk t.cur) npc ∧ Bounded s (t.endChunk t.cur) ∧ (t.endChunk t.cur).hart.sync = c.sync := by
  have hut : Unordered t := unordered_of_firing (by rw [ht]; rcases hc with h | h <;> rw [h] <;> rfl) hu
  obtain ⟨h1, h2, h3, h4, h5⟩ := endChunk_spec t hut
  rw [ht, hk.gtime] at h4; rw [ht] at h5
  have ho : c.older = s.hart.older := by rcases hc with h | h <;> rw [h] <;> rfl
  have hn : c.young.n = s.hart.young.n + 1 := by rcases hc with h | h <;> rw [h] <;> rfl
  have hx : c.young.next = s.hart.young.next := by rcases hc with h | h <;> rw [h] <;> rfl
  have k := unitsKept_trans hk h1
  cases h0 : s.hart.older with
  | none =>
    have e := h4 (ho.trans h0)
    refine ⟨ends_closed hc k (h3.trans hs) (h2.trans hf) e, ⟨fun _ => ⟨⟨{ c.young with since := s.gtime }, by rw [e]; rfl, hn⟩, by rw [e, ← hx]; rfl⟩, ?_⟩, by rw [e]; rfl⟩
    intro o h; rw [h0] at h; exact nomatch h
  | some o =>
    have e := h5 (by rw [ho, h0]; simp)
    refine ⟨ends_stopped hc k (h3.trans hs) (h2.trans hf) e, ⟨fun h => ?_, ?_⟩, by rw [e]; rfl⟩
    · rw [h0] at h; exact nomatch h
    · intro o' h; exact ⟨by rw [e]; exact ho.trans h, by rw [e]; rfl, by rw [e]; exact hn⟩

/-- What retiring does to a firing that a bound does not kill. -/
theorem retire_spec (s : State) (npc : Word) (hg : Goes s) : Ends s (s.retire npc) npc := by
  obtain ⟨h1, h2, h3, _, h5⟩ := advance_spec s npc
  rcases hg with hu | hb
  · unfold State.retire; dsimp only
    split
    · exact (bound_spec (.inl rfl) h1 h2 h3 h5 hu).1
    · exact ends_ticked h1 h3 h5 h2
  · obtain ⟨k1, k2, k3, _, k5⟩ := retire_noBound s npc hb
    exact ends_ticked k1 k3 k5 k2

/-- Where the chunk fills, retiring brings a bound (R134). -/
theorem retire_bounded (s : State) (npc : Word) (hu : Unordered s) (hf : fills s.hart.young = true) :
    Bounded s (s.retire npc) := by
  obtain ⟨h1, h2, h3, _, h5⟩ := advance_spec s npc
  have : s.retire npc = (s.advance npc).endChunk (s.advance npc).cur := by
    unfold State.retire; dsimp only; rw [if_pos]; rw [h2, full_ticked]; exact hf
  rw [this]; exact (bound_spec (.inl rfl) h1 h2 h3 h5 hu).2.1

/-- A bound that the instruction itself brings (R134). -/
theorem stepEnd_spec (s : State) (hu : Unordered s) : Ends s s.stepEnd (s.hart.pc + 4) ∧ Bounded s s.stepEnd := by
  obtain ⟨h1, h2, h3, _, h5⟩ := advance_spec s (s.hart.pc + 4)
  obtain ⟨k1, k2, _⟩ := bound_spec (.inl rfl) h1 h2 h3 h5 hu
  exact ⟨k1, k2⟩

/-- A bound whose effects the next instruction must find: nothing issues until the commit (R248, R251; log 14). -/
theorem stepSync_spec (s : State) (hu : Unordered s) :
    Ends s s.stepSync (s.hart.pc + 4) ∧ Bounded s s.stepSync ∧ s.stepSync.hart.sync = true := by
  obtain ⟨h1, h2, h3, _, h5⟩ := advance_spec s (s.hart.pc + 4)
  have := bound_spec (t := (s.advance (s.hart.pc + 4)).setHart (s.advance (s.hart.pc + 4)).hart.synced)
    (.inr rfl) (unitsKept_trans h1 (setHart_unitsKept ..)) (by rw [setHart_hart, h2]) h3 h5 hu
  exact ⟨this.1, this.2.1, this.2.2⟩

/-! ### Meanings that write one register -/

theorem goes_of_hart {s t : State} (hf : t.hart.firing = s.hart.firing) (hy : t.hart.young = s.hart.young) (hg : Goes s) : Goes t := by
  rcases hg with h | h
  · exact .inl (unordered_of_firing hf h)
  · exact .inr (by unfold NoBound at *; rw [hy]; exact h)

/-- The end of an instruction that has first changed the registers of its context. -/
theorem regs_step4 (s : State) (g : Regs) (hg : Goes s) :
    let t := (s.setRegs g).step4
    Retired s t (s.hart.pc + 4) ∧ Holds s t [] ∧ t.hart.shadow = s.hart.shadow ∧ t.flight = s.flight ∧ t.hart.regs = g := by
  have hh : (s.setRegs g).hart = { s.hart with regs := g } := setRegs_hart ..
  have e := retire_spec (s.setRegs g) ((s.setRegs g).hart.pc + 4) (goes_of_hart (by rw [hh]) (by rw [hh]) hg)
  have hpc : (s.setRegs g).hart.pc = s.hart.pc := by rw [hh]
  obtain ⟨⟨k1, k2, k3, k4⟩, k5, k6, _, _, k8, k9⟩ := e
  have k9' : Holds s ((s.setRegs g).retire ((s.setRegs g).hart.pc + 4)) [] := by
    obtain ⟨k, a, b, c, d⟩ := k9
    exact ⟨k, a, by rw [b, hh], by rw [c, hh], by rw [d, hh]⟩
  exact ⟨⟨unitsKept_trans (setRegs_unitsKept s g) k1, statusKept_trans (setRegs_statusKept s g) k2, by rw [← hpc]; exact k3, k4⟩,
    k9', k6.trans (by rw [hh]), k8, k5.trans (by rw [hh])⟩

theorem putX_spec (s : State) (i : Instr) (d : Reg) (v : Word) (hi : exec i s = s.putX d v) (hg : Goes s) : ComputesX s i d v := by
  obtain ⟨h1, h2, h3, h4, h5⟩ := regs_step4 s (s.hart.regs.setX d.toNat v) hg
  exact ⟨_, hi, h1, h2, h3, h4, wroteX_of_regs h5⟩

theorem putV_spec (s : State) (i : Instr) (d : Reg) (v : VReg) (hi : exec i s = s.putV d v) (hg : Goes s) : ComputesV s i d v := by
  obtain ⟨h1, h2, h3, h4, h5⟩ := regs_step4 s (s.hart.regs.setV d.toNat v) hg
  exact ⟨_, hi, h1, h2, h3, h4, wroteV_of_regs h5⟩

theorem putP_spec (s : State) (i : Instr) (d : Reg3) (v : PReg) (hi : exec i s = s.putP d v) (hg : Goes s) : ComputesP s i d v := by
  obtain ⟨h1, h2, h3, h4, h5⟩ := regs_step4 s (s.hart.regs.setP d.toNat v) hg
  exact ⟨_, hi, h1, h2, h3, h4, wroteP_of_regs h5⟩

theorem putA_spec (s : State) (i : Instr) (d : Reg3) (v : AReg) (hi : exec i s = s.putA d v) (hg : Goes s) : ComputesA s i d v := by
  obtain ⟨h1, h2, h3, h4, h5⟩ := regs_step4 s (s.hart.regs.setA d.toNat v) hg
  exact ⟨_, hi, h1, h2, h3, h4, wroteA_of_regs h5⟩

end Sys2Proof.Machine
end

