-- ==== Sys2Proof/Tests/Slice0.lean ====
section
/-! SUPPORT. Tests: a word of every row of the encoding tables, words that are no instruction, ill-formed terms, single steps,
and for every statement states and operands that meet its hypotheses. -/

namespace Sys2Proof.Tests

set_option Elab.async false

open Sys2Proof Sys2Proof.Machine

/-! ### Decoding (R217 to R231): words written out from the encoding tables, one for each row -/

/-- Whether each word decodes to its instruction. -/
def decodes (l : List (BitVec 32 × Instr)) : Bool := l.all (fun p => (decodeWord p.1).toOption == some p.2)

theorem test_decode_load : decodes [
    (0b10000000000100110000001010000011, .lb 5 6 0x801),
    (0b10000000000100110001001010000011, .lh 5 6 0x801),
    (0b10000000000100110010001010000011, .lw 5 6 0x801),
    (0b10000000000100110011001010000011, .ld 5 6 0x801),
    (0b10000000000100110100001010000011, .lbu 5 6 0x801),
    (0b10000000000100110101001010000011, .lhu 5 6 0x801),
    (0b10000000000100110110001010000011, .lwu 5 6 0x801)] = true := by decide

theorem test_decode_store : decodes [
    (0b10000000011100110000000010100011, .sb 7 6 0x801),
    (0b10000000011100110001000010100011, .sh 7 6 0x801),
    (0b10000000011100110010000010100011, .sw 7 6 0x801),
    (0b10000000011100110011000010100011, .sd 7 6 0x801)] = true := by decide

theorem test_decode_branch : decodes [
    (0b10000010011100110000001101100011, .beq 6 7 0b100000010011),
    (0b10000010011100110001001101100011, .bne 6 7 0b100000010011),
    (0b10000010011100110100001101100011, .blt 6 7 0b100000010011),
    (0b10000010011100110101001101100011, .bge 6 7 0b100000010011),
    (0b10000010011100110110001101100011, .bltu 6 7 0b100000010011),
    (0b10000010011100110111001101100011, .bgeu 6 7 0b100000010011)] = true := by decide

theorem test_decode_jump : decodes [
    (0b10000000000100110000001011100111, .jalr 5 6 0x801),
    (0b10000000011100000001001011101111, .jal 5 0b10000000110000000011),
    (0b10000000000000000001001010110111, .lui 5 0x80001),
    (0b10000000000000000001001010010111, .auipc 5 0x80001)] = true := by decide

theorem test_decode_op_imm : decodes [
    (0b10000000000100110000001010010011, .addi 5 6 0x801),
    (0b10000000000100110010001010010011, .slti 5 6 0x801),
    (0b10000000000100110011001010010011, .sltiu 5 6 0x801),
    (0b10000000000100110100001010010011, .xori 5 6 0x801),
    (0b10000000000100110110001010010011, .ori 5 6 0x801),
    (0b10000000000100110111001010010011, .andi 5 6 0x801),
    (0b00000010000100110001001010010011, .slli 5 6 33),
    (0b00000010000100110101001010010011, .srli 5 6 33),
    (0b01000010000100110101001010010011, .srai 5 6 33),
    (0b10000000000100110000001010011011, .addiw 5 6 0x801),
    (0b00000001000100110001001010011011, .slliw 5 6 17),
    (0b00000001000100110101001010011011, .srliw 5 6 17),
    (0b01000001000100110101001010011011, .sraiw 5 6 17)] = true := by decide

theorem test_decode_op : decodes [
    (0b00000000011100110000001010110011, .add 5 6 7),
    (0b00000000011100110001001010110011, .sll 5 6 7),
    (0b00000000011100110010001010110011, .slt 5 6 7),
    (0b00000000011100110011001010110011, .sltu 5 6 7),
    (0b00000000011100110100001010110011, .xor 5 6 7),
    (0b00000000011100110101001010110011, .srl 5 6 7),
    (0b00000000011100110110001010110011, .or 5 6 7),
    (0b00000000011100110111001010110011, .and 5 6 7),
    (0b01000000011100110000001010110011, .sub 5 6 7),
    (0b01000000011100110101001010110011, .sra 5 6 7),
    (0b00000010011100110000001010110011, .mul 5 6 7),
    (0b00000010011100110001001010110011, .mulh 5 6 7),
    (0b00000010011100110010001010110011, .mulhsu 5 6 7),
    (0b00000010011100110011001010110011, .mulhu 5 6 7),
    (0b00000010011100110100001010110011, .div 5 6 7),
    (0b00000010011100110101001010110011, .divu 5 6 7),
    (0b00000010011100110110001010110011, .rem 5 6 7),
    (0b00000010011100110111001010110011, .remu 5 6 7),
    (0b00000000011100110000001010111011, .addw 5 6 7),
    (0b00000000011100110001001010111011, .sllw 5 6 7),
    (0b00000000011100110101001010111011, .srlw 5 6 7),
    (0b01000000011100110000001010111011, .subw 5 6 7),
    (0b01000000011100110101001010111011, .sraw 5 6 7),
    (0b00000010011100110000001010111011, .mulw 5 6 7),
    (0b00000010011100110100001010111011, .divw 5 6 7),
    (0b00000010011100110101001010111011, .divuw 5 6 7),
    (0b00000010011100110110001010111011, .remw 5 6 7),
    (0b00000010011100110111001010111011, .remuw 5 6 7)] = true := by decide

theorem test_decode_system : decodes [
    (0b10000011001000110000001010001111, .fence 8 3 2 6 5),
    (0b00000000000000000000000001110011, .ecall),
    (0b00000000000100000000000001110011, .ebreak),
    (0b00110100000000110001001011110011, .csrrw 5 0x340 6),
    (0b00110100000000110010001011110011, .csrrs 5 0x340 6),
    (0b00110100000000110011001011110011, .csrrc 5 0x340 6),
    (0b00110100000000110101001011110011, .csrrwi 5 0x340 6),
    (0b00110100000000110110001011110011, .csrrsi 5 0x340 6),
    (0b00110100000000110111001011110011, .csrrci 5 0x340 6)] = true := by decide

theorem test_decode_vector_int : decodes [
    (0b00000011000011100110001010001011, .vadd 3 .i8 5 6 7),
    (0b00001011010011100110001010001011, .vsub 3 .i16 5 6 7),
    (0b00010011100011100110001010001011, .vmul 3 .i32 5 6 7),
    (0b00011011110011100110001010001011, .vsel 3 .i4 5 6 7),
    (0b00100011000011100110001010001011, .vsadd 3 .i8 5 6 7),
    (0b00101011010011100110001010001011, .vssub 3 .i16 5 6 7),
    (0b00110011100011100110001010001011, .vmin 3 .i32 5 6 7),
    (0b00111011110011100110001010001011, .vmax 3 .i4 5 6 7),
    (0b01000011000011100110001010001011, .vminu 3 .i8 5 6 7),
    (0b01001011010011100110001010001011, .vmaxu 3 .i16 5 6 7),
    (0b01010011100011100110001010001011, .vand 3 .i32 5 6 7),
    (0b01011011110011100110001010001011, .vor 3 .i4 5 6 7),
    (0b01100011000011100110001010001011, .vxor 3 .i8 5 6 7),
    (0b01101011010011100110001010001011, .vsll 3 .i16 5 6 7),
    (0b01110011100011100110001010001011, .vsrl 3 .i32 5 6 7),
    (0b01111011110011100110001010001011, .vsra 3 .i4 5 6 7)] = true := by decide

theorem test_decode_vector_float : decodes [
    (0b10000011000011100110001010001011, .vfadd 3 .f32 5 6 7),
    (0b10001011010011100110001010001011, .vfsub 3 .bf16 5 6 7),
    (0b10010011100011100110001010001011, .vfmul 3 .f16 5 6 7),
    (0b10011011000011100110001010001011, .vfma 3 .f32 5 6 7),
    (0b10100011010011100110001010001011, .vfmin 3 .bf16 5 6 7),
    (0b10101011100011100110001010001011, .vfmax 3 .f16 5 6 7),
    (0b10110011000011100110001010001011, .vfdiv 3 .f32 5 6 7),
    (0b10111011000000000110001010001011, .vfexp2 3 .f32 5 6),
    (0b10111011010000100110001010001011, .vflog2 3 .bf16 5 6),
    (0b10111011100001000110001010001011, .vfrcp 3 .f16 5 6),
    (0b10111011000001100110001010001011, .vfrsqrt 3 .f32 5 6),
    (0b10111011010010000110001010001011, .vfsqrt 3 .bf16 5 6),
    (0b10111011100010100110001010001011, .vftanh 3 .f16 5 6),
    (0b10111011000011000110001010001011, .vfsig 3 .f32 5 6),
    (0b10111011010011100110001010001011, .vferf 3 .bf16 5 6)] = true := by decide

theorem test_decode_compare : decodes [
    (0b11000011000011100110000100001011, .vcmpeq 3 .i8 2 6 7),
    (0b11000011010011100110010100001011, .vcmplt 3 .i16 2 6 7),
    (0b11000011100011100110100100001011, .vcmple 3 .i32 2 6 7),
    (0b11000011110011100110110100001011, .vcmpltu 3 .i4 2 6 7),
    (0b11001011000011100110000100001011, .vfcmpeq 3 .f32 2 6 7),
    (0b11001011010011100110010100001011, .vfcmplt 3 .bf16 2 6 7),
    (0b11001011100011100110100100001011, .vfcmple 3 .f16 2 6 7),
    (0b11001011000011100110110100001011, .vfcmpun 3 .f32 2 6 7)] = true := by decide

theorem test_decode_accumulator : decodes [
    (0b11010000000011100110000100001011, .vmacc .bf16 2 6 7),
    (0b11010000000011100110010100001011, .vmacc .f16 2 6 7),
    (0b11010000010011100110000100001011, .vdot2 .bf16 2 6 7),
    (0b11010000010011100110010100001011, .vdot2 .f16 2 6 7),
    (0b11010000010011100110100100001011, .vdot2 .i16 2 6 7),
    (0b11010000100011100110000100001011, .vdot4 .e4m3 2 6 7),
    (0b11010000100011100110010100001011, .vdot4 .e5m2 2 6 7),
    (0b11010000100011100110100100001011, .vdot4 .i8 2 6 7),
    (0b11010001000000000000000100001011, .accz 2),
    (0b11010001010001000110000000001011, .accst 2 6),
    (0b11010001100000000110000100001011, .accld 2 6),
    (0b11010001110000000110001010001011, .vxchg 5 6),
    (0b11010000110100100010001010001011, .vnarrow .bf16 true 5 2)] = true := by decide

theorem test_decode_vector_mem : decodes [
    (0b11011011000000000110001010001011, .vld 3 5 6),
    (0b11011011010000000110001010001011, .vst 3 5 6),
    (0b11011011100011100110001010001011, .vlds 3 5 6 7),
    (0b11011011110011100110001010001011, .vsts 3 5 6 7),
    (0b11100011000011100110001010001011, .vldx 3 5 6 7),
    (0b11100011010011100110001010001011, .vstx 3 5 6 7),
    (0b11100011100001000110001010001011, .vldf 3 .f16 5 6)] = true := by decide

theorem test_decode_predicate : decodes [
    (0b11101000000010000011000100001011, .pand 2 3 4),
    (0b11101000010010000011000100001011, .por 2 3 4),
    (0b11101000100010000011000100001011, .pxor 2 3 4),
    (0b11101000110010000011000100001011, .pandn 2 3 4),
    (0b11101001000000000011000100001011, .pnot 2 3),
    (0b11101001010000000011001010001011, .pcnt 5 3),
    (0b11101001100000000011001010001011, .pfirst 5 3),
    (0b11101001110000000110000100001011, .plt 2 6)] = true := by decide

theorem test_decode_permute : decodes [
    (0b11110000000000100110001010001011, .vredsum .i16 5 6),
    (0b11110000010001000110001010001011, .vredmax .i32 5 6),
    (0b11110000100001100110001010001011, .vredmin .i4 5 6),
    (0b11110000110000000110001010001011, .vfredsum .f32 5 6),
    (0b11110001000000100110001010001011, .vfredmax .bf16 5 6),
    (0b11110001010001000110001010001011, .vfredmin .f16 5 6),
    (0b11110001100011100110001010001011, .vslideup 5 6 7),
    (0b11110001110011100110001010001011, .vslidedn 5 6 7),
    (0b11110010000011100110001010001011, .vperm 5 6 7),
    (0b11110010010000000110001010001011, .vbcast .w8 5 6),
    (0b11110010010000100110001010001011, .vbcast .w16 5 6),
    (0b11110010010001000110001010001011, .vbcast .w32 5 6),
    (0b11110010010001100110001010001011, .vbcast .w64 5 6),
    (0b11110010100011100110001010001011, .vget 5 6 7),
    (0b11110010110011100110001010001011, .vset 5 6 7),
    (0b11111110010111000110001010001011, .vcvt .e4m3 .rtz .f32 true 5 6)] = true := by decide

theorem test_decode_matrix : decodes [
    (0b00000000000011100110001010101011, .mma .i8i8 5 6 7),
    (0b00000000100011100110001010101011, .mma .e4m3e4m3 5 6 7),
    (0b00000001000011100110001010101011, .mma .e4m3e5m2 5 6 7),
    (0b00001001100011100110001010101011, .mmav .e5m2e4m3 5 6 7),
    (0b00001010000011100110001010101011, .mmav .e5m2e5m2 5 6 7),
    (0b00001010100011100110001010101011, .mmav .b8b8 5 6 7),
    (0b00010011000011100110001010101011, .mmat .o4o4 5 6 7),
    (0b00010011100011100110001010101011, .mmat .bf16bf16 5 6 7),
    (0b00010100000011100110001010101011, .mmat .f16f16 5 6 7),
    (0b00011000000000000110000000101011, .aclr 6),
    (0b00101000000011100110000000101011, .ald 6 7),
    (0b00110000000011100110000000101011, .ast 6 7),
    (0b00111000000000000110001010101011, .amovv 5 6),
    (0b01000000000011100110000000101011, .amova 6 7),
    (0b01001000000000000110000000101011, .unfcfg 6),
    (0b10111000000011100110000000101011, .ascale 6 7),
    (0b00100101100000100110001010101011, .anarrow .f16 .rup true 5 6)] = true := by decide

theorem test_decode_stream : decodes [
    (0b01010000000000000110000100101011, .qbind 2 6),
    (0b01011000000000000000000100101011, .qunbind 2),
    (0b01100000000000000010001010101011, .qld 5 2),
    (0b01101000000011100010000000101011, .qst 2 7),
    (0b01110000000000000010001010101011, .qldx 5 2),
    (0b01111000000011100010000000101011, .qstx 2 7),
    (0b10000000000000000010001010101011, .qpos 5 2),
    (0b10001000000000000010000000101011, .qflush 2)] = true := by decide

theorem test_decode_copy : decodes [
    (0b10010000000000000110001010101011, .cpyGo 5 6),
    (0b10011000000011100110001010101011, .cpyGoM 5 6 7),
    (0b10100000000000000000001010101011, .cpyCancel 5),
    (0b10101000000000000110001010101011, .cpyProg 5 6),
    (0b10110001000001100010000010101011, .waitc 1 2 3 4)] = true := by decide

theorem test_decode_message : decodes [
    (0b00000101010011100110001011011011, .send true 5 5 6 7),
    (0b00001101010011100110001011011011, .sendv true 5 5 6 7),
    (0b00010000000011100110000001011011, .reply 6 7),
    (0b00011000000000000000001011011011, .msgrd 5),
    (0b00100000000000000000001011011011, .msgsrc 5),
    (0b00101001010000000000000001011011, .chon 5),
    (0b00110001010000000000000001011011, .choff 5)] = true := by decide

theorem test_decode_atomic : decodes [
    (0b00111000000011100110001011011011, .rmadd false 5 7 6),
    (0b01000100000011100110000001011011, .rmaddI32 true 0 7 6),
    (0b00111000010011100110001011011011, .rmand false 5 7 6),
    (0b01000100010011100110000001011011, .rmandI32 true 0 7 6),
    (0b00111000100011100110001011011011, .rmor false 5 7 6),
    (0b01000100100011100110000001011011, .rmorI32 true 0 7 6),
    (0b00111000110011100110001011011011, .rmxor false 5 7 6),
    (0b01000100110011100110000001011011, .rmxorI32 true 0 7 6),
    (0b00111001000011100110001011011011, .rmmin false 5 7 6),
    (0b01000101000011100110000001011011, .rmminI32 true 0 7 6),
    (0b00111001010011100110001011011011, .rmmax false 5 7 6),
    (0b01000101010011100110000001011011, .rmmaxI32 true 0 7 6),
    (0b00111001100011100110001011011011, .rmminu false 5 7 6),
    (0b01000101100011100110000001011011, .rmminuI32 true 0 7 6),
    (0b00111001110011100110001011011011, .rmmaxu false 5 7 6),
    (0b01000101110011100110000001011011, .rmmaxuI32 true 0 7 6),
    (0b00111010000011100110001011011011, .rmswap false 5 7 6),
    (0b01000110000011100110000001011011, .rmswapI32 true 0 7 6),
    (0b00111010010011100110001011011011, .rmcas false 5 7 6),
    (0b01000110010011100110001011011011, .rmcasI32 true 5 7 6),
    (0b01000010100011100110001011011011, .rmfadd false 5 7 6),
    (0b01000010110011100110001011011011, .rmfmin false 5 7 6),
    (0b01000011000011100110001011011011, .rmfmax false 5 7 6)] = true := by decide

theorem test_decode_sync : decodes [
    (0b01001000000011100110000001011011, .logapp 6 7),
    (0b01100000000011100110000001011011, .tktwait 6 7),
    (0b01110000000011100110000001011011, .bararr 6 7),
    (0b01010000000000000110001011011011, .logmrg 5 6),
    (0b01011000000000000110001011011011, .tktget 5 6),
    (0b01111000000000000110001011011011, .barwait 5 6),
    (0b10001000000000000110001011011011, .lbar 5 6),
    (0b10100000000000000110001011011011, .launch 5 6),
    (0b10111000000000000110001011011011, .crzrecv 5 6),
    (0b01101000000000000110000001011011, .tktadv 6),
    (0b10000000000000000000001011011011, .gbar 5),
    (0b10010000000000000000000001011011, .chunkend),
    (0b10011000000011100110001011011011, .otdecl 5 6 7),
    (0b10101000000001000001000001011011, .fenceX 1 2),
    (0b11000000000000000000000001011011, .halt),
    (0b10110000000011100110000001011011, .crzsendAdd 6 7),
    (0b10110000010011100110000001011011, .crzsendMax 6 7),
    (0b10110000100011100110000001011011, .crzsendMin 6 7),
    (0b10110000110011100110000001011011, .crzsendAnd 6 7),
    (0b10110001000011100110000001011011, .crzsendOr 6 7),
    (0b10110001010011100110000001011011, .crzsendXor 6 7),
    (0b10110001100011100110000001011011, .crzsendBadd 6 7),
    (0b11000100000011100110000001011011, .haltR 6 7)] = true := by decide

theorem test_decode_privileged : decodes [
    (0b00000000000000000110000001111011, .waitC 6),
    (0b00001000000000000110000001111011, .waitT 6),
    (0b00010000000000000110000001111011, .waitTr 6),
    (0b01000000000000000110000001111011, .trmark 6),
    (0b10000000000000000110000001111011, .maprm 6),
    (0b10001000000000000110000001111011, .mapadd 6),
    (0b00011011100000000000000001111011, .breq 3 2),
    (0b00100000000000000000000001111011, .eretS),
    (0b00101000000000000000000001111011, .eretM),
    (0b00110000000000000000000001111011, .tron),
    (0b00111000000000000000000001111011, .troff),
    (0b01110000000000000000000001111011, .scanabort),
    (0b01001100110000000000000001111011, .capon 19),
    (0b01010100110000000000000001111011, .capoff 19),
    (0b01011100110000000000001011111011, .caprd 5 19),
    (0b01100000000000000110001011111011, .scanrun 5 6),
    (0b01111000000000000110001011111011, .maprd 5 6),
    (0b10010000000000000110001011111011, .preq 5 6),
    (0b01101000000000000000001011111011, .scanstat 5)] = true := by decide
/-- Words that the spec's worked code writes out. -/
theorem test_decode_worked_words : decodes [
    (0x9A0A418B, .vfma 2 .f32 3 4 5),
    (0x0096A2AB, .mma .e4m3e4m3 5 10 11), (0x2400652B, .anarrow .bf16 .rne false 10 6), (0x6000122B, .qld 4 1),
    (0x9000D62B, .cpyGo 12 13), (0xB044002B, .waitc 0 0 2 1), (0x1000A07B, .waitTr 10), (0x1D80007B, .breq 5 2),
    (0x58C0037B, .caprd 6 3), (0x7800B57B, .maprd 10 11), (0x0556A2DB, .send true 5 5 10 11), (0x3816C55B, .rmadd false 10 11 12),
    (0x4416C05B, .rmaddI32 true 0 11 12), (0x470CA05B, .rmfmax true 0 6 10), (0x7800B55B, .barwait 10 11), (0x2940005B, .chon 5),
    (0xA808005B, .fenceX 0 4), (0xC416A05B, .haltR 10 11), (0xA800105B, .fenceX 1 0)] = true := by decide

/-- R231: words that are no instruction: all zeros, all ones, MRET and SRET of the base, FENCE.I, FENCE.X of classes 5, ACCZ with
a reserved bit of D, VNARROW with a reserved bit of A, VFMA of the reserved type, and a load of the unused width. -/
theorem test_decode_refuses : ([0x00000000, 0xFFFFFFFF, 0x30200073, 0x10200073, 0x0000100F, 0xA800505B,
    0b11010010000000000000010010001011, 0b11010010100001011000000010001011, 0b10011000110001010010000110001011,
    0b00000000000000110111001010000011] : List (BitVec 32)).all (fun w => (decodeWord w).toOption.isNone) = true := by decide

/-- R216: the bytes of a word stand with the least significant first; fewer than four are no instruction. -/
theorem test_decode_bytes : decode [0x8B, 0x41, 0x0A, 0x9A, 0x77] = .ok (.vfma 2 .f32 3 4 5, [0x77]) ∧
    (decode [0x8B, 0x41, 0x0A]).toOption = none := ⟨rfl, rfl⟩

/-! ### Ill-formed terms -/

/-- Each check of `wellFormed` refuses a term that fails it. -/
theorem test_well_formed_refuses : ([
    .csrrw 1 0xFFF 2, .csrrw 1 0xF14 2, .csrrs 1 0xF14 2, .csrrc 1 0xF14 2, .csrrwi 1 0xF14 2, .csrrsi 1 0xF14 2, .csrrci 1 0xF14 2,
    .csrrs 1 0xFFF 0, .csrrc 1 0xFFF 0, .csrrsi 1 0xFFF 0, .csrrci 1 0xFFF 0,
    .fenceX 5 0, .fenceX 0 5, .breq 0 3,
    .rmadd true 1 2 3, .rmaddI32 true 1 2 3, .rmand true 1 2 3, .rmandI32 true 1 2 3, .rmor true 1 2 3, .rmorI32 true 1 2 3,
    .rmxor true 1 2 3, .rmxorI32 true 1 2 3, .rmmin true 1 2 3, .rmminI32 true 1 2 3, .rmmax true 1 2 3, .rmmaxI32 true 1 2 3,
    .rmminu true 1 2 3, .rmminuI32 true 1 2 3, .rmmaxu true 1 2 3, .rmmaxuI32 true 1 2 3, .rmswap true 1 2 3,
    .rmswapI32 true 1 2 3, .rmfadd true 1 2 3, .rmfmin true 1 2 3, .rmfmax true 1 2 3] : List Instr).any wellFormed = false := by decide

/-- And lets a term pass that meets it: reads of a read-only CSR, classes up to 4, levels up to 2, the no-return forms with x0,
and RMCAS, whose D is an operand. -/
theorem test_well_formed_lets_pass : ([
    .csrrw 1 0x300 2, .csrrs 1 0xF14 0, .csrrc 1 0xF14 0, .csrrsi 1 0xF14 0, .csrrci 1 0xF14 0, .fenceX 4 4, .breq 7 2,
    .rmadd true 0 2 3, .rmadd false 1 2 3, .rmcas true 1 2 3] : List Instr).all wellFormed = true := by decide

/-! ### Single steps -/

/-- Context 0 runs a firing in M at 0x10000, with the first GiB mapped onto itself. -/
def base : State := State.reset.withFetchWord 32 0x13

/-- The state after a step that has one. -/
def nextOf (o : Host.Outcome State Fault Refusal) : State := match o with | .next t => t | .fault _ => .reset | .refused _ => .reset

/-- The state after an instruction. -/
def after (i : Instr) (s : State) : State := nextOf (exec i s)

/-- Integer registers set. -/
def withX (s : State) (l : List (Reg × Word)) : State := l.foldl (fun u p => u.setX p.1 p.2) s

/-- Lanes of 32 bits as a vector register, the first lowest. -/
def lanes (l : List Nat) : VReg := BitVec.ofNat 2048 (l.foldr (fun v n => v + 2 ^ 32 * n) 0)

def r56 (a b : Word) : State := withX base [(5, a), (6, b)]

/-- R239: a sum wraps, an immediate is signed. -/
theorem test_addi : (after (.addi 7 5 0xFFF) (r56 0 0)).x 7 = 0xFFFFFFFFFFFFFFFF := by decide
theorem test_add_wraps : (after (.add 5 5 6) (r56 0xFFFFFFFFFFFFFFFF 2)).x 5 = 1 := by decide
theorem test_sub : (after (.sub 7 5 6) (r56 1 2)).x 7 = 0xFFFFFFFFFFFFFFFF := by decide
theorem test_slt_signed : (after (.slt 7 5 6) (r56 0xFFFFFFFFFFFFFFFF 0)).x 7 = 1 := by decide
theorem test_sltu_unsigned : (after (.sltu 7 5 6) (r56 0xFFFFFFFFFFFFFFFF 0)).x 7 = 0 := by decide
theorem test_sra : (after (.sra 7 5 6) (r56 0x8000000000000000 65)).x 7 = 0xC000000000000000 := by decide
theorem test_sllw_extends : (after (.sllw 7 5 6) (r56 1 63)).x 7 = 0xFFFFFFFF80000000 := by decide
theorem test_addiw : (after (.addiw 7 5 1) (r56 0x7FFFFFFF 0)).x 7 = 0xFFFFFFFF80000000 := by decide
theorem test_lui : (after (.lui 7 0x80000) base).x 7 = 0xFFFFFFFF80000000 := by decide
theorem test_auipc : (after (.auipc 7 1) base).x 7 = 0x11000 := by decide
theorem test_x0 : (after (.addi 0 5 1) (r56 1 0)).x 0 = 0 := by decide
theorem test_mulh : (after (.mulh 7 5 6) (r56 0xFFFFFFFFFFFFFFFF 1)).x 7 = 0xFFFFFFFFFFFFFFFF := by decide
theorem test_mulhu : (after (.mulhu 7 5 6) (r56 0xFFFFFFFFFFFFFFFF 2)).x 7 = 1 := by decide
theorem test_mulhsu : (after (.mulhsu 7 5 6) (r56 0xFFFFFFFFFFFFFFFF 2)).x 7 = 0xFFFFFFFFFFFFFFFF := by decide
/-- R240. -/
theorem test_div_by_zero : (after (.div 7 5 6) (r56 7 0)).x 7 = 0xFFFFFFFFFFFFFFFF := by decide
theorem test_div_overflow : (after (.div 7 5 6) (r56 0x8000000000000000 0xFFFFFFFFFFFFFFFF)).x 7 = 0x8000000000000000 := by decide
theorem test_rem_sign : (after (.rem 7 5 6) (r56 0xFFFFFFFFFFFFFFF9 2)).x 7 = 0xFFFFFFFFFFFFFFFF := by decide
theorem test_divuw : (after (.divuw 7 5 6) (r56 0xFFFFFFFF 1)).x 7 = 0xFFFFFFFFFFFFFFFF := by decide
/-- R243. -/
theorem test_beq_taken : (after (.beq 5 6 8) (r56 3 3)).hart.pc = 0x10010 := by decide
theorem test_bltu_not_taken : (after (.bltu 5 6 8) (r56 0xFFFFFFFFFFFFFFFF 1)).hart.pc = 0x10004 := by decide
theorem test_jal : (fun t : State => (t.x 1, t.hart.pc)) (after (.jal 1 0xFFFFE) base) = (0x10004, 0xFFFC) := by decide
theorem test_jalr_clears_bit_0 : (fun t : State => (t.x 5, t.hart.pc)) (after (.jalr 5 5 1) (r56 0x20004 0)) = (0x10004, 0x20004) := by decide
/-- R242: a store is seen by the context before its commit, and a signed load extends. -/
theorem test_store_load : (fun t : State => (t.x 7, t.x 8, t.byte 0x20001))
    (after (.lbu 8 5 1) { after (.lb 7 5 1) { after (.sd 6 5 0) (r56 0x20000 0xFF80) with spent := false } with spent := false })
    = (0xFFFFFFFFFFFFFFFF, 0xFF, 0) := by decide
/-- R246, R427: an environment call from M with a handler. -/
def handled : State := base.setCore 0 { base.core 0 with mtvec := 0x30001 }
theorem test_ecall : (fun t : State => (t.hart.pc, t.hart.sys.mcause, t.hart.sys.mepc, t.hart.sys.status.getLsbD 12)) (after .ecall handled)
    = (0x30000, 11, 0x10000, true) := by decide
theorem test_illegal_word : (fun t : State => (t.hart.pc, t.hart.sys.mcause, t.hart.sys.mtval))
    (nextOf (step ({ handled with script := [] }.withFetchWord 32 0x30200073))) = (0x30000, 2, 0x30200073) := by decide
/-- R247: a CSR that is no chunk bound is written at once. -/
theorem test_csrrw : (fun t : State => (t.x 7, t.hart.shadow.mscratch)) (after (.csrrw 7 0x340 5) (r56 0x1234 0)) = (0, 0x1234) := by decide
/-- R275: saturating and wrapping lanes; a lane whose guard is 0 keeps its value. -/
def v12 (a b : List Nat) : State := (base.setV 1 (lanes a)).setV 2 (lanes b)
theorem test_vadd_wraps : elem ((after (.vadd 0 .i32 3 1 2) (v12 [0xFFFFFFFF] [2])).v 3) 32 0 = 1 := by decide +kernel
theorem test_vsadd : elem ((after (.vsadd 0 .i8 3 1 2) (v12 [0x7F] [1])).v 3) 8 0 = 0x7F := by decide +kernel
theorem test_vsub_guarded : (fun t : State => (elem (t.v 3) 32 0, elem (t.v 3) 32 1))
    (after (.vsub 1 .i32 3 1 2) (((v12 [5, 5] [1, 1]).setV 3 (lanes [9, 9])).setP 1 1)) = (4, 9) := by decide +kernel
/-- R180, R276: 1.0 + 2⁻²⁴ in FP32 rounds to even; 1.0 · 3.0 + 0.5. -/
theorem test_vfadd_ties_even : elem ((after (.vfadd 0 .f32 3 1 2) (v12 [0x3F800000] [0x33800000])).v 3) 32 0 = 0x3F800000 := by decide +kernel
theorem test_vfma : elem ((after (.vfma 0 .f32 3 1 2) ((v12 [0x3F800000] [0x40400000]).setV 3 (lanes [0x3F000000]))).v 3) 32 0 = 0x40600000 := by decide +kernel
theorem test_vcmpltu : ((after (.vcmpltu 0 .i32 2 1 2) (v12 [1, 2] [2, 1])).p 2).getLsbD 0 = true := by decide +kernel
theorem test_vredsum : (after (.vredsum .i32 7 1) (v12 [0xFFFFFFFF, 3] [])).x 7 = 2 := by decide +kernel
theorem test_vdot4 : elem ((after (.vdot4 .i8 1 1 2) ((v12 [0x01FF0201] [0x01010101]).setAcc 1 10)).acc 1) 32 0 = 13 := by decide +kernel

/-! ### States and operands that meet the hypotheses of the statements -/

theorem ok_of {ε α : Type} {e : Except ε α} {a : α} (h : e.toOption = some a) : e = .ok a := by
  cases e <;> simp_all [Except.toOption]

/-- The error of a result. -/
def errOf {ε α : Type} : Except ε α → Option ε | .ok _ => none | .error x => some x

theorem error_of {ε α : Type} {e : Except ε α} {x : ε} (h : errOf e = some x) : e = .error x := by
  cases e <;> simp_all [errOf]

theorem places_of {f : Word → Except Nat Place} : ∀ {vas : List Word} {ps : List Place},
    vas.map (fun a => (f a).toOption) = ps.map some → vas.map f = ps.map .ok
  | [], [], _ => rfl
  | [], _ :: _, h => by simp at h
  | _ :: _, [], h => by simp at h
  | a :: vas, p :: ps, h => by
    simp only [List.map_cons, List.cons.injEq] at h ⊢
    exact ⟨ok_of h.1, places_of h.2⟩

/-- The places of loads or stores. -/
def at' (s : State) (acc : Acc) (vas : List Word) : List Place := vas.filterMap (fun a => (s.resolve s.cur acc a).toOption)

/-- Whether `CanLoad` holds with those places. -/
def loads' (s : State) (w : Nat) (vas : List Word) : Bool :=
  let ps := at' s .load vas
  vas.map (fun a => (s.resolve s.cur .load a).toOption) == ps.map some && vas.all (fun a => a.toNat % w == 0) &&
  s.asleep ps == [] && ps.all (fun p => !s.lineBusy s.hart p.key w && !s.keyStill (s.cur / 64) p.key) && (addLines s.hart.young.rset ps).length ≤ 512 &&
  ps.all (fun p => !isHost p.key)

theorem canLoad_of {s : State} {w : Nat} {vas : List Word} (h : loads' s w vas = true) : CanLoad s w vas (at' s .load vas) := by
  simp only [loads', Bool.and_eq_true, and_assoc, beq_iff_eq, List.all_eq_true, decide_eq_true_eq, Bool.not_eq_true'] at h
  obtain ⟨places, rest⟩ := h
  exact CanLoad.mk (places_of places) rest.left rest.right.left (by simp_all) (by simp_all) (by simp_all) (by simp_all)

/-- Whether `CanStore` holds with those places. -/
def stores' (s : State) (w : Nat) (vas : List Word) : Bool :=
  let ps := at' s .store vas
  vas.map (fun a => (s.resolve s.cur .store a).toOption) == ps.map some && vas.all (fun a => a.toNat % w == 0) &&
  s.asleep ps == [] && (ps.foldl (fun l p => insertNew l (p.key / 64)) s.hart.young.lines).length ≤ 128

theorem canStore_of {s : State} {w : Nat} {vas : List Word} (h : stores' s w vas = true) : CanStore s w vas (at' s .store vas) := by
  simp only [stores', Bool.and_eq_true, and_assoc, beq_iff_eq, List.all_eq_true, decide_eq_true_eq] at h
  obtain ⟨places, rest⟩ := h
  exact CanStore.mk (places_of places) rest.left (by simp_all) (by simp_all)

/-- The doublewords that `Reads` reads. -/
def words' (s : State) (n : Nat) (va : Word) : List Word :=
  (at' s .load ((List.range n).map (fun i => va + word (8 * i)))).map (fun p => word (s.seenNat s.hart p.key 8))

theorem reads_of {s : State} {al n : Nat} {va : Word}
    (h : (va.toNat % al == 0 && loads' s 8 ((List.range n).map (fun i => va + word (8 * i)))) = true) :
    Reads s al n va (words' s n va) := by
  simp only [Bool.and_eq_true, beq_iff_eq] at h
  exact ⟨h.1, _, canLoad_of h.2, rfl⟩

theorem unordered_of {s : State} (h : s.hart.firing.all (fun f => f.order.isNone) = true) : Unordered s := by
  intro f hf; simpa [hf] using h

/-- What holds of the reset value and of every listed entry holds of every entry. -/
theorem tget_all {α : Type} {d : α} {P : α → Bool} (hd : P d = true) : ∀ {t : Tab α}, t.all (fun p => P p.2) = true → ∀ k, P (tget d t k) = true
  | [], _, _ => hd
  | (n, v) :: t, h, k => by
    simp only [List.all_cons, Bool.and_eq_true] at h
    simp only [tget]; split
    · exact h.1
    · exact tget_all hd h.2 k

theorem noTrace_of {s : State} (h : s.auxs.all (fun p => !p.2.trace) = true) : NoTrace s := fun n => by
  have := tget_all (d := ({} : CtxAux)) (P := fun a => !a.trace) rfl h n
  exact Bool.not_eq_true' _ ▸ this

/-- Context 0 otherwise. -/
def hart (s : State) (f : Ctx → Ctx) : State := s.setHart (f s.hart)
/-- Its chunk otherwise. -/
def chunk (s : State) (f : Chunk → Chunk) : State := hart s (fun c => { c with young := f c.young })
/-- Its firing otherwise. -/
def fires (s : State) (f : Firing → Firing) : State := hart s (fun c => { c with firing := c.firing.map f })
/-- Sorus 0 halted. -/
def haltedS : State := base.setSx 0 { base.sx 0 with halted := true }
/-- Another hub. -/
def hubS (f : Hub → Hub) : State := { base with hub := f base.hub }
/-- At another level. -/
def level (s : State) (p : Priv) : State := hart s (fun c => { c with priv := p })
/-- A run-to-completion firing. -/
def rtcS : State := fires base (fun f => { f with rtc := true })
/-- An ordered task. -/
def taskS : State := fires base (fun f => { f with order := some (1, 2) })
/-- One instruction before the bound of 2,048. -/
def lastS : State := chunk base (fun k => { k with n := 2047 })
/-- With 128 buffer lines, and with 512 lines in the read set. -/
def linesS : State := chunk base (fun k => { k with lines := List.range 128 })
def rsetS : State := chunk base (fun k => { k with rset := List.range 512 })
/-- With a chunk that awaits its commit. -/
def olderS : State := hart base (fun c => { c with older := some {} })
/-- An ordered task behind such a chunk. -/
def waitTaskS : State := hart taskS (fun c => { c with older := some {} })

/-- A task whose trap waits until it could commit, and one at whose core a commit of the chunk order is still to come. -/
def taskTrapS : State := hart taskS (fun c => { c with trapReq := some { int := false, cause := 29, val := 0 } })
def taskLateS : State := taskTrapS.setCore 0 { taskTrapS.core 0 with inbox := [0] }

theorem witness_goes : Goes base ∧ Goes lastS ∧ Goes taskS ∧ Unordered base ∧ Unordered lastS ∧ NoBound base :=
  ⟨.inl (unordered_of rfl), .inl (unordered_of rfl), .inr rfl, unordered_of rfl, unordered_of rfl, rfl⟩

theorem witness_BaseArithmeticWritesItsResult : Goes base ∧ Goes lastS ∧ Goes taskS :=
  ⟨.inl (unordered_of rfl), .inl (unordered_of rfl), .inr rfl⟩

theorem witness_ProductsQuotientsAndRemainders : Goes base ∧ Goes lastS ∧ Goes taskS :=
  ⟨.inl (unordered_of rfl), .inl (unordered_of rfl), .inr rfl⟩

/-- Taken and not, to a multiple of 4 and to none; jumps alike. -/
theorem witness_ControlTransfersReachTheirTargets : Goes base ∧ base.x 0 = base.x 0 ∧ ¬ base.x 0 ≠ base.x 0 ∧
    (base.hart.pc + ((2 : BitVec 12) ++ (0 : BitVec 1)).signExtend 64).toNat % 4 = 0 ∧
    (base.hart.pc + ((1 : BitVec 12) ++ (0 : BitVec 1)).signExtend 64).toNat % 4 ≠ 0 ∧
    ((base.x 0 + (4 : BitVec 12).signExtend 64) &&& ~~~1).toNat % 4 = 0 ∧
    ((base.x 0 + (6 : BitVec 12).signExtend 64) &&& ~~~1).toNat % 4 ≠ 0 :=
  ⟨.inl (unordered_of rfl), rfl, fun h => h rfl, by decide, by decide, by decide, by decide⟩

theorem witness_ChunkBounds : Unordered base ∧ (Unordered lastS ∧ lastS.hart.young.n = 2047) ∧
    (Unordered linesS ∧ linesS.hart.young.lines.length = 128) ∧ (Unordered rsetS ∧ rsetS.hart.young.rset.length = 512) ∧
    (base.hart.young.n ≠ 2047 ∧ base.hart.young.lines.length ≠ 128 ∧ base.hart.young.rset.length ≠ 512) ∧
    (∃ f o, taskS.hart.firing = some f ∧ f.order = some o ∧ taskS.hart.young.halts = false ∧ taskS.hart.older = none) ∧
    (∃ f o, waitTaskS.hart.firing = some f ∧ f.order = some o ∧ waitTaskS.hart.young.halts = false ∧ waitTaskS.hart.older = some {}) ∧
    (∃ f o r, (taskTrapS.ctx 0).firing = some f ∧ f.order = some o ∧ (taskTrapS.ctx 0).older = none ∧ (taskTrapS.ctx 0).trapReq = some r ∧
      taskTrapS.taskReady 0 = true ∧ taskTrapS.paused 0 = false ∧ taskTrapS.otFails 0 (taskTrapS.ctx 0).young = false) ∧
    ∃ f o r, (taskLateS.ctx 0).firing = some f ∧ f.order = some o ∧ (taskLateS.ctx 0).older = none ∧ (taskLateS.ctx 0).trapReq = some r ∧
      taskLateS.taskReady 0 = false :=
  ⟨unordered_of rfl, ⟨unordered_of rfl, rfl⟩, ⟨unordered_of rfl, by decide +kernel⟩, ⟨unordered_of rfl, by decide +kernel⟩, by decide +kernel,
    ⟨_, _, rfl, rfl, rfl, rfl⟩, ⟨_, _, rfl, rfl, rfl, rfl⟩, ⟨_, _, _, rfl, rfl, rfl, rfl, by decide +kernel, by decide +kernel, by decide +kernel⟩,
    _, _, _, rfl, rfl, rfl, rfl, by decide +kernel⟩

/-- A trap from U to S and one from M to M, both with a handler; and the three kills. -/
def delegS : State := level (base.setCore 0 { base.core 0 with mtvec := 0x30001, stvec := 0x40001, medeleg := 0xFFFFFFFF }) .u
theorem witness_TrapEntry :
    (∃ f, (delegS.ctx 0).firing = some f ∧ f.rtc = false ∧ f.order = none ∧ (2 : Nat) ≠ 28 ∧ GoesToS delegS 0 false 2 ∧ HasHandler delegS 0 false 2) ∧
    (∃ f, (handled.ctx 0).firing = some f ∧ f.rtc = false ∧ f.order = none ∧ ¬ GoesToS handled 0 true 9 ∧ HasHandler handled 0 true 9) ∧
    (∃ f, (rtcS.ctx 0).firing = some f ∧ f.rtc = true) ∧ (∃ f, (taskS.ctx 0).firing = some f ∧ f.order ≠ none) ∧
    (∃ f, (base.ctx 0).firing = some f ∧ ¬ HasHandler base 0 false 2) := by
  have m : ¬ GoesToS handled 0 true 9 := fun h => h.1 rfl
  have b : ¬ GoesToS base 0 false 2 := fun h => h.1 rfl
  have d : GoesToS delegS 0 false 2 := ⟨by decide, by decide⟩
  exact ⟨⟨_, rfl, rfl, rfl, by decide, d, fun _ => by decide, fun h => absurd d h⟩,
    ⟨_, rfl, rfl, rfl, m, fun h => absurd h m, fun _ => by decide⟩, ⟨_, rfl, rfl⟩, ⟨_, rfl, by decide⟩, _, rfl, fun h => h.2 b (by decide)⟩

theorem witness_ExceptionWaitsForTheChunkBefore : (Unordered base ∧ base.hart.clean = true) ∧ (Unordered lastS ∧ lastS.hart.clean = false) ∧
    (lastS.hart.older = none ∧ olderS.hart.older = some {}) ∧ (Unordered olderS ∧ olderS.hart.clean = false) :=
  ⟨⟨unordered_of rfl, rfl⟩, ⟨unordered_of rfl, rfl⟩, ⟨rfl, rfl⟩, unordered_of rfl, rfl⟩

def armedS : State := base.setSx 0 { base.sx 0 with arm := true }
theorem witness_EnvironmentCallAndBreakpointTrap :
    (∃ f, handled.hart.firing = some f ∧ f.rtc = false ∧ f.order = none ∧ handled.hart.clean = true ∧ HasHandler handled handled.cur false 11 ∧
      (handled.sx (handled.cur / 64)).arm = false ∧ HasHandler handled handled.cur false 3) ∧
    (∃ f, delegS.hart.firing = some f ∧ f.rtc = false ∧ f.order = none ∧ delegS.hart.clean = true ∧ delegS.hart.priv = .u ∧
      HasHandler delegS delegS.cur false 8) ∧
    (∃ f, armedS.hart.firing = some f ∧ f.rtc = false ∧ f.order = none ∧ armedS.hart.clean = true ∧ (armedS.sx (armedS.cur / 64)).arm = true) := by
  have m (c : Nat) : ¬ GoesToS handled 0 false c := fun h => h.1 rfl
  have d : GoesToS delegS 0 false 8 := ⟨by decide, by decide⟩
  exact ⟨⟨_, rfl, rfl, rfl, rfl, ⟨fun h => absurd h (m _), fun _ => by decide⟩, rfl, fun h => absurd h (m _), fun _ => by decide⟩,
    ⟨_, rfl, rfl, rfl, rfl, rfl, fun _ => by decide, fun h => absurd d h⟩, _, rfl, rfl, rfl, rfl, rfl⟩

/-- A doubleword at 0x10000; and one line short of a full read set. -/
theorem witness_LoadsReadTheBytesTheContextSees : (Unordered base ∧ CanLoad base 8 [0x10000] [⟨0x10000, false⟩]) ∧
    (let s := chunk base (fun k => { k with rset := (List.range 511).map (· + 10) })
     CanLoad (s.writeNat 0x1000 8 (61 + 128)) 1 [0xFFFF] [⟨0xFFFF, true⟩]) :=
  ⟨⟨unordered_of rfl, canLoad_of (s := base) (w := 8) (vas := [0x10000]) (by decide +kernel)⟩,
    canLoad_of (s := (chunk base (fun k => { k with rset := (List.range 511).map (· + 10) })).writeNat 0x1000 8 (61 + 128)) (w := 1) (vas := [0xFFFF]) (by decide +kernel)⟩

/-- A page of host memory at 0x40000000, with one token and with none. -/
def hostS (tokens : Nat) : State := (base.writeNat 0x1008 8 (2 ^ 63 + 61)).setSlot 0 { base.slot 0 with thost := 2 ^ 34, tokens := tokens }
/-- A shared page instead of a private one. -/
def sharedS : State := base.writeNat 0x1000 8 (61 + 128)
/-- The line of 0x10000 is pending. -/
def pendS : State := { base with thallus := { base.thallus with pending := [(0x400, 9)] } }

theorem witness_LoadsThatWait :
    (∃ p u, Unordered (hostS 1) ∧ (withX (hostS 1) [(6, 0x40000000)]).resolve 0 .load 0x40000000 = .ok p ∧ isHost p.key = true ∧ p.shared = false ∧
      (hostS 1).hart.young.rset.length ≤ 512 ∧ (hostS 1).charge (hostS 1).mySlot 1 (.loadDataReturn (hostS 1).cur) = some u) ∧
    (∃ p, (hostS 0).resolve 0 .load 0x40000000 = .ok p ∧ isHost p.key = true ∧ (hostS 0).charge (hostS 0).mySlot 1 (.loadDataReturn (hostS 0).cur) = none) ∧
    (((hostS 1).slot 0).queue = [] ∧ ((hostS 1).slot 0).granted = [] ∧ ((hostS 1).slot 0).bdebt ≤ bits ((hostS 1).slot 0).tbkt 23 4 ∧ 1 ≤ ((hostS 1).slot 0).tokens) ∧
    (let s := base.setSx 1 { base.sx 1 with halted := true }
     s.keyStill (s.cur / 64) (sorusKey 1 0) = true ∧ s.keyStill (s.cur / 64) 0x10000 = false) ∧
    (let s := chunk sharedS (fun k => { k with rset := (List.range 512).map (· + 2000) })
     ∃ p, s.resolve 0 .load 0x10000 = .ok p ∧ s.asleep [p] = [] ∧ s.lineBusy s.hart p.key 8 = false ∧ 512 < (addLines s.hart.young.rset [p]).length) ∧
    (let s := chunk base (fun k => { k with lines := (List.range 128).map (· + 2000) })
     ∃ p, s.resolve 0 .store 0x10000 = .ok p ∧ s.asleep [p] = [] ∧ 128 < (insertNew s.hart.young.lines (p.key / 64)).length) ∧
    (∃ p, pendS.resolve 0 .load 0x10000 = .ok p ∧ pendS.asleep [p] = [] ∧ pendS.lineBusy pendS.hart p.key 8 = true) ∧
    (∃ p, base.resolve 0 .load 0xFF0000000000 = .ok p ∧ base.asleep [p] ≠ [] ∧ (0, 0) ∈ base.asleep [p]) :=
  ⟨⟨⟨2 ^ 52, false⟩, _, unordered_of rfl, ok_of (by decide +kernel), by decide, rfl, by decide, rfl⟩,
    ⟨⟨2 ^ 52, false⟩, ok_of (by decide +kernel), by decide, rfl⟩, by decide +kernel, by decide +kernel,
    ⟨⟨0x10000, true⟩, ok_of (by decide +kernel), by decide +kernel, by decide +kernel, by decide +kernel⟩,
    ⟨⟨0x10000, false⟩, ok_of (by decide +kernel), by decide +kernel, by decide +kernel⟩,
    ⟨⟨0x10000, false⟩, ok_of (by decide +kernel), by decide +kernel, by decide +kernel⟩,
    ⟨⟨spadKey 0 0, true⟩, ok_of (by decide +kernel), by decide +kernel, by decide +kernel⟩⟩

/-- The last doubleword of the page; and the 128th buffer line. -/
theorem witness_StoresGoToTheWriteBuffer : Unordered base ∧ CanStore base 8 [0x3FFFFFF8] (at' base .store [0x3FFFFFF8]) ∧
    CanStore (chunk base (fun k => { k with lines := (List.range 127).map (· + 2000) })) 1 [0x10000] [⟨0x10000, false⟩] :=
  ⟨unordered_of rfl, canStore_of (by decide +kernel),
    canStore_of (s := chunk base (fun k => { k with lines := (List.range 127).map (· + 2000) })) (w := 1) (vas := [0x10000]) (by decide +kernel)⟩

/-- Addresses that are misaligned by one, two and four; above 48 bits; where nothing is mapped. -/
theorem witness_FaultingAccessesTrap : ((1 : Word).toNat % 2 ≠ 0 ∧ (2 : Word).toNat % 4 ≠ 0 ∧ (4 : Word).toNat % 8 ≠ 0) ∧
    base.resolve base.cur .load 0x1000000000000 = .error 5 ∧ base.resolve base.cur .load 0x80000000 = .error 13 ∧
    base.resolve base.cur .store 0x1000000000000 = .error 7 ∧ base.resolve base.cur .store 0x80000000 = .error 15 :=
  ⟨by decide, error_of (by decide +kernel), error_of (by decide +kernel), error_of (by decide +kernel), error_of (by decide +kernel)⟩

/-- A read of a counter and one of FINJ, which clears; HCDATA with HCADDR at a register; MSCRATCH; a copy CSR; mtvec. -/
theorem witness_CsrInstructions :
    (Goes base ∧ csrRow 0xC01 = some ⟨.u, none, false⟩ ∧ base.atLeast .u = true ∧ base.csrSpecial 0xC01 false = true ∧
      base.csrReadClears 0xC01 = false) ∧
    (csrRow 0x5C2 = some ⟨.s, some .s, true⟩ ∧ base.atLeast .s = true ∧ base.csrSpecial 0x5C2 false = true ∧ base.csrReadClears 0x5C2 = true) ∧
    (csrRow 0x340 = some ⟨.m, some .m, false⟩ ∧ base.atLeast .m = true) ∧ csrRow 0x82A = some ⟨.u, some .u, false⟩ ∧
    (Unordered base ∧ csrRow 0x305 = some ⟨.m, some .m, true⟩ ∧ base.csrSpecial 0x305 true = true) ∧
    (∃ r w, csrRow 0xB00 = some r ∧ r.write = some w ∧ base.atLeast r.read = true ∧ base.atLeast w = true ∧ base.csrSpecial 0xB00 true = true) ∧
    (∃ r w, csrRow 0xB02 = some r ∧ r.write = some w ∧ base.atLeast r.read = true ∧ base.atLeast w = true ∧ base.csrSpecial 0xB02 true = true) ∧
    ((5 : Reg) ≠ 0 ∧ (31 : BitVec 5) ≠ 0) :=
  ⟨⟨.inl (unordered_of rfl), rfl, rfl, rfl, rfl⟩, ⟨rfl, rfl, rfl, rfl⟩, ⟨rfl, rfl⟩, rfl, ⟨unordered_of rfl, rfl, rfl⟩,
    ⟨_, _, rfl, rfl, rfl, rfl, rfl⟩, ⟨_, _, rfl, rfl, rfl, rfl, rfl⟩, by decide⟩

theorem witness_AccessesBelowTheirLevelTrap : csrRow 0xFFF = none ∧ csrRow 0 = none ∧
    (csrRow 0x300 = some ⟨.m, some .m, true⟩ ∧ (level base .s).atLeast .m = false) ∧
    (csrRow 0x802 = some ⟨.u, some .m, true⟩ ∧ (level base .s).atLeast .u = true) ∧
    (level base .u).hart.priv = .u ∧ (level base .s).hart.priv ≠ .m := by decide +kernel

theorem witness_VectorIntegerLanes : Goes base ∧ Goes lastS ∧ Goes taskS := witness_BaseArithmeticWritesItsResult
/-- Bounds that round alike; 4 with an even exponent, whose root is 2; an odd exponent; a NaN, an infinity, a zero and 1 in FP32. -/
theorem witness_VectorFloatLanes : (Goes base ∧ Goes lastS ∧ Goes taskS) ∧
    (Fmt.round .f32 .rne false (.fin false 0x1000001 0) = Fmt.round .f32 .rne false (.fin false 0x1000000 0)) ∧
    (2 ^ 65 * 2 ^ 65 ≤ 4 * 2 ^ 128 ∧ 4 * 2 ^ 128 < (2 ^ 65 + 1) * (2 ^ 65 + 1) ∧ 2 ^ 127 * 2 ^ 127 * 4 ≤ 2 ^ 256 ∧
      2 ^ 256 < (2 ^ 127 + 1) * (2 ^ 127 + 1) * 4) ∧ ((1 : Int) % 2 ≠ 0) ∧
    ((∃ n p, Fmt.decode .f32 0x7FC00000 = .nan n p) ∧ (∃ n, Fmt.decode .f32 0x7F800000 = .inf n) ∧ (∃ n e, Fmt.decode .f32 0 = .fin n 0 e) ∧
      ∃ n m e, m ≠ 0 ∧ Fmt.decode .f32 0xBF800000 = .fin n m e) :=
  ⟨witness_BaseArithmeticWritesItsResult, by decide +kernel, by decide +kernel, by decide,
    ⟨_, _, rfl⟩, ⟨_, rfl⟩, ⟨_, _, rfl⟩, _, _, _, by decide, rfl⟩
theorem witness_VectorCompares : Goes base ∧ Goes lastS ∧ Goes taskS := witness_BaseArithmeticWritesItsResult
theorem witness_VectorPermutes : Goes base ∧ Goes lastS ∧ Goes taskS := witness_BaseArithmeticWritesItsResult

/-- i8 to i32 from v31 into v27 to v30, overlapping and past the last register; VNARROW into the last two registers and past them. -/
theorem witness_ConversionsWriteTheirGroups : Goes base ∧
    ((28 : Reg).toNat + 4 ≤ 32 ∧ (27 : Reg).toNat + 1 ≤ 32 ∧ (27 : Reg).toNat + 1 ≤ (28 : Reg).toNat) ∧
    ¬ ((29 : Reg).toNat + 4 ≤ 32) ∧ ¬ ((28 : Reg) = 30 ∨ (28 : Reg).toNat + 4 ≤ (30 : Reg).toNat ∨ (30 : Reg).toNat + 1 ≤ (28 : Reg).toNat) ∧
    Ty3Width .i32 / min (Ty3Width .i32) (Ty3Width .i8) = 4 ∧
    ((30 : Reg).toNat + 2 ≤ 32 ∧ 32 < (31 : Reg).toNat + 2) :=
  ⟨.inl (unordered_of rfl), by decide +kernel⟩

/-- A predicate whose only bit is the last; the zero predicate; the largest and the smallest of lanes that are equal. -/
theorem witness_PredicatesAndReductions : Goes base ∧
    (let s := base.setP 1 (1 <<< 511)
     (s.p 1).getLsbD 511 = true ∧ ∀ m, m < 511 → (s.p 1).getLsbD m = false) ∧ (base.p 1 = 0) ∧
    (∀ k, k < 2048 / ITyWidth .i32 → toSigned 32 (elem (base.v 1) 32 k) ≤ toSigned 32 (elem (base.v 1) 32 63)) :=
  ⟨.inl (unordered_of rfl), ⟨by decide +kernel, by decide +kernel⟩, rfl, by decide +kernel⟩

/-- A guard of one lane, the last; all lanes; ACCLD at a multiple of 64 and not; VLDF in bank 0. -/
def bank0 : State := (base.setBank 0 0 { base.bank 0 0 with powered := true }).setP 1 (1 <<< 63)
/-- A guard whose only lane is the last. -/
def guardS : State := base.setP 1 (1 <<< 63)
/-- The addresses of the lanes under a guard, 4 bytes apart. -/
def laneVas (s : State) (g : Reg3) : List Word := ((List.range 64).filter (fun k => (s.p g).getLsbD k)).map (fun k => 0x10000 + word (4 * k))
/-- The bytes that VLDF reads for FP32 lanes at offset 0 of bank 0 under that guard. -/
def vldfVas : List Word :=
  ((((List.range 64).filter (fun i => (bank0.p 1).getLsbD i)).flatMap (vldfBytes 0 32 0 0)).foldl insertNew []).map
    (fun n => 0xFF0000000000 - word 0 + word n)
/-- The addresses of an accumulator. -/
def accVas : List Word := (List.range 128).map (fun k => 0x10000 + word (4 * k))
theorem witness_VectorLoads : Unordered base ∧ (laneVas guardS 1 = [0x100FC] ∧ CanLoad guardS 4 (laneVas guardS 1) (at' guardS .load (laneVas guardS 1))) ∧
    CanLoad base 4 (laneVas base 0) (at' base .load (laneVas base 0)) ∧
    ((0x10000 : Word).toNat % 64 = 0 ∧ CanLoad base 4 accVas (at' base .load accVas)) ∧ (0x10004 : Word).toNat % 64 ≠ 0 ∧
    (let b : Word := 0xFF0000000000
     b.toNat / 2 ^ 32 = 0xFF00 ∧ b.toNat % 2 ^ 32 < 0x50000 ∧ b.toNat % 0x8000 % vldfAlign 0 32 = 0 ∧ bank0.bankOk bank0.cur 0 = true ∧
     vldfVas.all (fun a => decide ((a - b).toNat < 0x8000)) = true ∧ CanLoad bank0 1 vldfVas (at' bank0 .load vldfVas)) :=
  ⟨unordered_of rfl, ⟨by decide +kernel, canLoad_of (by decide +kernel)⟩, canLoad_of (by decide +kernel), ⟨by decide, canLoad_of (by decide +kernel)⟩,
    by decide, by decide +kernel, by decide +kernel, by decide +kernel, by decide +kernel, by decide +kernel, canLoad_of (by decide +kernel)⟩

theorem witness_VectorStores : Unordered base ∧
    CanStore base 4 (laneVas base 0) (at' base .store (laneVas base 0)) ∧
    ((0x10000 : Word).toNat % 64 = 0 ∧ CanStore base 4 accVas (at' base .store accVas)) ∧ (0x10004 : Word).toNat % 64 ≠ 0 :=
  ⟨unordered_of rfl, canStore_of (by decide +kernel), ⟨by decide, canStore_of (by decide +kernel)⟩, by decide⟩

theorem witness_AccumulatorsMultiplyAndAdd : Goes base ∧ ((30 : Reg).toNat + 2 ≤ 32 ∧ (0 : Reg).toNat + 2 ≤ 32) ∧
    ¬ ((31 : Reg).toNat + 2 ≤ 32) := ⟨.inl (unordered_of rfl), by decide⟩

/-- Doublewords in memory. -/
def put (s : State) (a : Nat) (ws : List Word) : State :=
  (ws.zipIdx).foldl (fun u p => u.writeNat (a + 8 * p.2) 8 p.1.toNat) s
/-- The firing holds row groups 0 and 15, and bank 0 has the format I8. -/
def rowsS (fmt : Word) : State := base.setCore 0 { base.core 0 with rowOwn := [(0, 0), (15, 0)], fmt := [(0, fmt)] }
/-- A tensor of one pixel of 64 channels. -/
def unf1 : Unf := [0x40 <<< 32, 0x40 <<< 32 ||| 0x10001, 0x11110101, 1, 0, 0, 0, 0]
def ld64 : Word := 64 <<< 32

/-- A tile of 8 by 8 by 64 at row 0 and at row 120; a command and descriptors that break a rule; rows that are not held. -/
theorem witness_MatrixProducts :
    (let s := (rowsS 1).setAux 0 { unfIssued := [(1, unf1)] }
     Goes s ∧ (s.aux s.cur).tiles.length < 16 ∧ s.checkProduct (.mma .i8i8 5 6 7) 0 .i8i8 0 ld64 ld64 = .ok () ∧
     s.checkProduct (.mma .i8i8 5 6 7) 0 .i8i8 (15 <<< 36) ld64 ld64 = .ok () ∧
     s.checkProduct (.mmav .i8i8 5 6 7) 1 .i8i8 0 0 ld64 = .ok () ∧ s.checkProduct (.mmat .i8i8 5 6 7) 2 .i8i8 0 ld64 (8 <<< 32) = .ok ()) ∧
    (∃ n v, base.checkProduct (.mma .i8i8 5 6 7) 0 .i8i8 0 ld64 ld64 = .error (.trap n v)) ∧
    (bits 1 22 0 ≠ 0 ∧ descOk (1 <<< 48) = false ∧ descOk (1 <<< 19) = false) ∧
    (128 < 8 * bits (15 <<< 36 ||| 1 <<< 28) 39 36 + 8 * (bits (15 <<< 36 ||| 1 <<< 28) 31 28 + 1)) ∧
    (128 < 8 * bits (15 <<< 32 ||| 1 <<< 24) 35 32 + 8 * (bits (15 <<< 32 ||| 1 <<< 24) 27 24 + 1)) ∧
    (bits (0 : Word) 22 0 = 0 ∧ descOk ld64 = true ∧ cmdRow 0 + cmdM 0 ≤ 128 ∧ cmdCol 0 + cmdN 0 ≤ 128 ∧ descOff ld64 % opAlign (pairA .i8i8) = 0 ∧
      descLd ld64 % opAlign (pairA .i8i8) = 0 ∧ descOff ld64 % opAlign (pairB .i8i8) = 0 ∧ descLd ld64 % opAlign (pairB .i8i8) = 0 ∧
      base.holdsRows (cmdRow 0) (cmdM 0) = false) :=
  ⟨⟨.inl (unordered_of rfl), by decide +kernel, ok_of (by decide +kernel), ok_of (by decide +kernel), ok_of (by decide +kernel), ok_of (by decide +kernel)⟩,
    ⟨_, _, rfl⟩, by decide +kernel, by decide +kernel, by decide +kernel, by decide +kernel⟩

/-- The last row group released, claimed, held by another firing; a configuration in memory. -/
def unfS : State := put base 0x20000 unf1
theorem witness_RowGroupsAndUnfolding :
    (Goes base ∧ (base.aux base.cur).tiles.length < 16 ∧ bits (0x1F0 : Word) 63 9 = 0 ∧ bits (0x1F0 : Word) 7 4 + bits (0x1F0 : Word) 3 0 ≤ 15 ∧
      bit (0x1F0 : Word) 8 = true ∧ bit (0xF0 : Word) 8 = false) ∧
    (∀ j, j ≤ 0 → tget? ((rowsS 1).core 0).rowOwn (15 + j) = none ∨ tget? ((rowsS 1).core 0).rowOwn (15 + j) = some (rowsS 1).myFid) ∧
    (let s := base.setCore 0 { base.core 0 with rowOwn := [(15, 7)] }
     ∃ j f, j ≤ 0 ∧ tget? (s.core s.lcore).rowOwn (15 + j) = some f ∧ f ≠ s.myFid) ∧
    (Unordered unfS ∧ Reads unfS 64 8 0x20000 (words' unfS 8 0x20000) ∧ Unf.ok (words' unfS 8 0x20000) = true) :=
  ⟨⟨.inl (unordered_of rfl), by decide +kernel⟩, by decide +kernel, ⟨0, 7, by decide, rfl, by decide⟩,
    unordered_of rfl, reads_of (by decide +kernel), by decide +kernel⟩

theorem witness_RegionOperations :
    (Goes (rowsS 1) ∧ regionOf 0 = some ⟨0, 0, 0, 0⟩ ∧ (rowsS 1).holdsRows 0 1 = true ∧
      (rowsS 1).checkRegionMem (.anarrow .i8 .rne false 5 6) 0 ⟨0, 0, 0, 0⟩ 1 [0, 1] = .ok () ∧
      (rowsS 5).checkRegionMem (.ald 6 5) 0 ⟨0, 0, 0, 0⟩ 4 [0, 3, 5] = .ok () ∧ (rowsS 0).checkRegionMem (.ast 6 5) 0 ⟨0, 0, 0, 0⟩ 4 [0, 3, 5] = .ok ()) ∧
    (regionOf 0x7F40 = some ⟨127, 64, 0, 0⟩ ∧ (rowsS 1).holdsRows 127 1 = true) ∧ regionOf (1 <<< 31) = none ∧ regionOf 0x17F00 = none ∧
    base.holdsRows 0 1 = false :=
  ⟨⟨.inl (unordered_of rfl), by decide +kernel, by decide +kernel, ok_of (by decide +kernel), ok_of (by decide +kernel), ok_of (by decide +kernel)⟩,
    by decide +kernel⟩

/-- A port of 64 words of I32 at 0x10000, for reading or writing, at a position. -/
def port (dir wrap : Bool) (pos : Nat) : Port :=
  { bind := 3, base := 0x10000, wrap := wrap, satf := false, mode := .rne, dir := dir, pty := .i32, mfmt := 3, cnt := [63, 0, 0, 0], stride := [4, 0, 0, 0], pos := pos }
def portS (p : Port) : State :=
  (hart base (fun c => { c with shadow := { c.shadow with ports := [(2, p)] } })).setAux 0
    { fetch := [(2, { bind := 3, els := (List.range 64).map (fun k => (k, 5)), flying := 0, stop := none, dead := false })] }
/-- The descriptor of such a port. -/
def qbindS : State := put base 0x20000 [0x10000, 0x20, 63, 4, 0, 0, 0, 0]
theorem witness_StreamPortsAreBound :
    (let d := words' qbindS 8 0x20000
     Unordered qbindS ∧ Reads qbindS 64 8 0x20000 d ∧ bits (d.getD 1 0) 63 12 = 0 ∧ d.getD 7 0 = 0 ∧ qbindS.streamBase (d.getD 0 0) = true ∧
     streamFmt (qbindS.streamOf qbindS.flight.ids d).mfmt = true ∧ (qbindS.streamOf qbindS.flight.ids d).aligned = true) ∧
    ((portS (port false false 0)).hart.port 2 = some (port false false 0) ∧ (port false false 0).dir = false) ∧ base.hart.port 2 = none :=
  ⟨⟨unordered_of rfl, reads_of (by decide +kernel), by decide +kernel⟩, by decide +kernel⟩

theorem witness_StreamAccesses :
    (let p := port false false 0
     let s := portS p
     Unordered s ∧ s.hart.port 2 = some p ∧ p.dir = false ∧ p.pos < p.total ∧
     (p.ahead (2048 / Ty3Width p.pty)).all (fun k => thas ((s.aux s.cur).fetchOf 2 p.bind).els k) = true) ∧
    (let p := port false true 63
     p.wrap = true ∧ (p.ahead 1).all (fun k => thas (((portS p).aux 0).fetchOf 2 p.bind).els k) = true) ∧
    (let p := port true false 63
     let s := portS p
     s.hart.port 2 = some p ∧ p.dir = true ∧ p.pos < p.total ∧ tget? (s.aux s.cur).drain 2 = none ∧ s.hart.young.transfers 2 = 0 ∧ s.hart.older = none) ∧
    (let e (n : Nat) : StreamEl := { bind := 3, va := 0x10000 + word (4 * n), size := 4, bits := 0 }
     (((portS (port true false 0)).setAux 0 { drain := [(2, { part := 0, fid := 0, queue := List.replicate 16 [e 0], stop := none })] }).aux 0).drain.length = 1 ∧
     ((chunk (portS (port true false 0)) (fun k => { k with held := [.stream 2 ((List.range 256).map e)] })).hart.young.transfers 2 = 16)) ∧
    (let p := port false false 64
     (portS p).hart.port 2 = some p ∧ p.wrap = false ∧ p.total ≤ p.pos) ∧
    (let p := port true false 64
     (portS p).hart.port 2 = some p ∧ p.wrap = false ∧ p.total ≤ p.pos) ∧ (port true false 0).dir = true ∧ (port false false 0).dir = false :=
  ⟨⟨unordered_of rfl, by decide +kernel⟩, by decide +kernel⟩

/-- Fewer than 16 copies and 16 of them; a copy with a matrix product behind it. -/
def copy0 : Copy :=
  { id := 1, fid := 0, h := 0, slot := 0, part := 0, csr := [], xd := 0, promise := 0, done := 0, parked := false, fault := false, side := false
    late := false, lateTrap := false, cancel := false, checked := false, discard := false, fmt := [], sreg := 0, dreg := 0, got := [], acked := []
    flying := none, seq := 0, follow := none }
/-- 16 bytes from offset 0 to offset 0x100 of bank 0. -/
def copy1 : Copy := { copy0 with csr := [(0x821, 0x100), (0x826, 16), (0x827, 1), (0x828, 1), (0x829, 1), (0x82A, 1 + 8)] }
def cpyS : State := put (rowsS 1) 0x20000 [0, 0, ld64, ld64]
theorem witness_CopiesAreHeld : (copy1.follow = none ∧ copy1.empty = false) ∧ (Unordered base ∧ base.copiesOf base.cur < 16 ∧ (5 : Reg) ≠ 6 ∧ (5 : Reg) ≠ 0) ∧
    (let s := { base with flight := { base.flight with copies := (List.range 16).map (fun i => (i, copy0)) } }
     16 ≤ s.copiesOf s.cur) ∧
    (let d := words' cpyS 4 0x20000
     Reads cpyS 32 4 0x20000 d ∧ cpyS.copiesOf cpyS.cur < 16 ∧ (cpyS.aux cpyS.cur).tiles.length < 16 ∧ bits (d.getD 0 0) 63 6 = 0 ∧
     bits (d.getD 0 0) 1 0 ≠ 3 ∧ pairOfNat (bits (d.getD 0 0) 5 2) = some .i8i8 ∧
     cpyS.checkProduct (.cpyGoM 5 6 7) (bits (d.getD 0 0) 1 0) .i8i8 (d.getD 1 0) (d.getD 2 0) (d.getD 3 0) = .ok ()) :=
  ⟨by decide +kernel, ⟨unordered_of rfl, by decide +kernel⟩, by decide +kernel, reads_of (by decide +kernel), by decide +kernel, by decide +kernel, by decide +kernel,
    by decide +kernel, by decide +kernel, ok_of (by decide +kernel)⟩

/-- The last core and the second channel; one past them; payloads of one and of 32 words; a trigger of three words from a sender
that asks for a reply. -/
def msgS : State := fires base (fun f => { f with src := 1 <<< 39 ||| 2 <<< 40, trigger := [(1, 0), (2, 0), (3, 0)] })
theorem witness_MessagesAreHeld : (Unordered base ∧ bits (2559 : Word) 46 20 = 0 ∧ bits (2559 : Word) 15 12 = 0 ∧ bits (2559 : Word) 11 0 ≤ 2559 ∧
      2 ≤ (2 : BitVec 4).toNat ∧ base.isRtc = false ∧ rtcS.isRtc = true ∧ Unordered rtcS) ∧
    (¬ (bits (2560 : Word) 11 0 ≤ 2559) ∧ ¬ (2 ≤ (1 : BitVec 4).toNat)) ∧
    (∃ f, (base.ctx 0).firing = some f ∧ bit (0 : Word) 47 = false ∧ base.present 0 = true ∧ base.partOf 0 = some f.part ∧ base.partOf 2559 ≠ some f.part ∧
      (hubS (fun g => { g with absent := [0] })).present 0 = false) ∧
    (∃ f, (fires base (fun f => { f with src := 1 <<< 39 ||| 1 <<< 40 })).hart.firing = some f ∧ bits f.src 43 40 < 2) ∧
    (∃ f, msgS.hart.firing = some f ∧ f.chan ≠ 0 ∧ bit f.src 39 = true ∧ 2 ≤ bits f.src 43 40) ∧
    (∃ f, base.hart.firing = some f ∧ bit f.src 39 = false) ∧
    (((msgS.hart.firing.map (·.trigger)).getD []).map (·.1))[2 + msgS.hart.shadow.msgPos]? = some 3 ∧
    (((base.hart.firing.map (·.trigger)).getD []).map (·.1))[2 + base.hart.shadow.msgPos]? = none :=
  ⟨⟨unordered_of rfl, by decide +kernel, by decide +kernel, by decide +kernel, by decide +kernel, by decide +kernel, by decide +kernel, unordered_of rfl⟩,
    by decide +kernel, ⟨_, rfl, by decide +kernel⟩, ⟨_, rfl, by decide +kernel⟩, ⟨_, rfl, by decide +kernel⟩, ⟨_, rfl, by decide +kernel⟩,
    by decide +kernel, by decide +kernel⟩

/-- The 32nd request of a chunk and the 33rd; 32 outstanding; a datum in no place. -/
def reqS (n : Nat) : State := chunk base (fun k => { k with nonIdem := n })
def outS : State := hart base (fun c => { c with older := some { nonIdem := 32 } })
theorem witness_RemoteAtomics :
    (Unordered (reqS 31) ∧ (reqS 31).isRtc = false ∧ (reqS 31).atomicPlace 0x10000 = .ok ⟨0x10000, none⟩ ∧ (reqS 31).hart.young.nonIdem < 32 ∧
      (reqS 31).outstanding + (reqS 31).hart.heldNonIdem + (reqS 31).hart.ownNonIdem < 32) ∧ rtcS.isRtc = true ∧
    ((reqS 32).isRtc = false ∧ 32 ≤ (reqS 32).hart.ownNonIdem) ∧ (0x10004 : Word).toNat % 8 ≠ 0 ∧
    base.atomicPlace 0x1000000000000 = .error 7 ∧ base.atomicPlace 0x80000000 = .error 15 ∧
    (outS.hart.ownNonIdem < 32 ∧ outS.atomicPlace 0x10000 = .ok ⟨0x10000, none⟩ ∧
      32 ≤ outS.outstanding + outS.hart.heldNonIdem + outS.hart.ownNonIdem) :=
  ⟨⟨unordered_of rfl, by decide +kernel, ok_of (by decide +kernel), by decide +kernel, by decide +kernel⟩, by decide +kernel, by decide +kernel,
    by decide +kernel, error_of (by decide +kernel), error_of (by decide +kernel), by decide +kernel, ok_of (by decide +kernel), by decide +kernel⟩

/-- The partition has an open log of 512 KiB at 0x20000 with no entry. -/
def logS : State := base.setPart 0 { base.part 0 with log := some { base := 0x20000, cap := 0x80000 } }
theorem witness_SynchronisationIsHeld :
    (∃ f g key u, (base.ctx 0).firing = some f ∧ (base.part f.part).log = none ∧ base.hartOf f.fid = some 0 ∧ base.paused 0 = false ∧
      (logS.part f.part).log = some g ∧ logS.logPlace f.part 0x10000 = some key ∧ 0 < g.segment ∧ tget 0 g.counts 0 < 2 ^ 18 ∧
      logS.partWrite f.part (g.base + word (16 * (sliceOf (key / 64) * g.segment))) ({ slice := sliceOf (key / 64), va := 0x10000, int := false, v := 0, core := 0, ctx := 0, seq := 0 } : LogEnt).words = some u) ∧
    ((hart base (fun c => { c with pend := [⟨5, 6⟩] })).hart.pend = [⟨5, 6⟩] ∧ (5 : Nat) ≠ 0 ∧ 5 < 32) ∧
    (Unordered base ∧ bits (0x1FFFFFFFF : Word) 63 33 = 0 ∧ (0x10004 : Word).toNat % 4 = 0 ∧ ∃ k, base.logTarget (base.cur / 64) 0 0x10004 = .ok k) ∧
    (Reads base 32 4 0x20000 (words' base 4 0x20000) ∧ logDescOk (words' base 4 0x20000) = true) ∧
    ((15 : Word).toNat ≤ 15 ∧ 15 < (16 : Word).toNat) ∧
    (bits (0xFF000004FFF0 : Word) 3 0 = 0 ∧ base.barPlace 0xFF000004FFF0 = some (spadKey 0 0x4FFF0) ∧ bits (1 <<< 63 ||| 9 : Word) 62 32 = 0) ∧
    (base.isRtc = false ∧ Reads base 64 8 0x20000 (words' base 8 0x20000)) :=
  ⟨⟨_, _, _, _, rfl, rfl, by decide +kernel, by decide +kernel, rfl, rfl, by decide +kernel, by decide +kernel, rfl⟩, by decide +kernel,
    ⟨unordered_of rfl, by decide +kernel, by decide +kernel, 0x10004, ok_of (by decide +kernel)⟩, ⟨reads_of (by decide +kernel), by decide +kernel⟩,
    by decide +kernel, by decide +kernel, by decide +kernel, reads_of (by decide +kernel)⟩

theorem witness_HaltAndOrderedTasks :
    (∃ f, NoTrace base ∧ (base.ctx 0).firing = some f ∧ f.owner = none ∧ ((base.setBank 0 9 { powered := true, own := some f.fid }).bank 0 9).own = some f.fid ∧
      (1 <<< 9 : Nat).testBit 9 = true ∧ (1 : Nat).testBit 9 = false) ∧
    (∃ f, base.hart.firing = some f ∧ f.order = none ∧ (withX base [(5, 255)] |>.x 5).toNat ≤ 255 ∧ NoBound base ∧
      base.hart.young.n = 0 ∧ base.hart.young.otfail = false) ∧
    (let s := chunk base (fun k => { k with otfail := true })
     s.hart.young.n = 0 ∧ s.hart.young.otfail = true ∧ NoBound s) ∧
    (let s := chunk base (fun k => { k with n := 1 })
     s.hart.young.n ≠ 0 ∧ NoBound s) :=
  ⟨⟨_, noTrace_of rfl, rfl, rfl, by decide +kernel⟩, ⟨_, rfl, rfl, by decide +kernel, rfl, rfl, rfl⟩, ⟨rfl, rfl, rfl⟩, by decide +kernel, rfl⟩

/-- Descriptors of one F32, one 64-bit and 32 B8 elements, with core 0 a member. -/
def crzS (w : Word) : State := put (rowsS 10) 0x20000 [w, 1]
theorem witness_CrozierContributionsAreHeld :
    (let s := crzS 0
     let d := words' s 4 0x20000
     Unordered s ∧ Reads s 32 4 0x20000 d ∧ (crzDesc d).ty ≤ 1 ∧ s.crzCheck (.crzsendAdd 5 6) d = .ok () ∧ s.crzFmt (crzDesc d) 0x4FFFC = true ∧
     s.crzRange (crzDesc d) 0x4FFFC = true ∧ s.crzCheck (.crzrecv 5 6) d = .ok ()) ∧
    (let s := crzS (2 <<< 46)
     let d := words' s 4 0x20000
     Reads s 32 4 0x20000 d ∧ (crzDesc d).ty = 2 ∧ s.crzCheck (.crzsendAnd 5 6) d = .ok () ∧ s.crzFmt (crzDesc d) 0 = true ∧ s.crzRange (crzDesc d) 0 = true) ∧
    (let s := crzS (3 <<< 46 ||| 31 <<< 32)
     let d := words' s 4 0x20000
     Reads s 32 4 0x20000 d ∧ (crzDesc d).ty = 3 ∧ s.crzCheck (.crzsendBadd 5 6) d = .ok () ∧ s.crzFmt (crzDesc d) 32 = true ∧ s.crzRange (crzDesc d) 32 = true) :=
  ⟨⟨unordered_of rfl, reads_of (by decide +kernel), by decide +kernel, ok_of (by decide +kernel), by decide +kernel, by decide +kernel, ok_of (by decide +kernel)⟩,
    ⟨reads_of (by decide +kernel), by decide +kernel, ok_of (by decide +kernel), by decide +kernel, by decide +kernel⟩,
    reads_of (by decide +kernel), by decide +kernel, ok_of (by decide +kernel), by decide +kernel, by decide +kernel⟩

theorem witness_WaitInstructions : (Unordered base ∧ base.isRtc = false ∧ (15 : Word).toNat ≤ 15 ∧ (3 : Word).toNat ≤ 3 ∧
      bits (0xFF0100000011 : Word) 3 1 = 0 ∧ base.barPlace ((0xFF0100000011 : Word) &&& ~~~15) = some (sorusKey 0 16)) ∧ rtcS.isRtc = true :=
  ⟨⟨unordered_of rfl, by decide +kernel⟩, by decide +kernel⟩

theorem witness_SystemInstructions : Unordered base ∧ base.hart.priv = .m ∧ (Unordered (level base .s) ∧ (level base .s).hart.priv ≠ .u ∧
    (level base .s).scanAccess 0x20000 = .ok ()) ∧ (level base .u).hart.priv = .u :=
  ⟨unordered_of rfl, rfl, ⟨unordered_of rfl, by decide +kernel, ok_of (by decide +kernel)⟩, rfl⟩

/-! Happenings: a state in which one takes place is `on s e`. -/

/-- The state in which the happening takes place. -/
def on (s : State) (e : Event) : State := { s with now := some e }
def fabS (f : Fabric → Fabric) : State := { base with fabric := f base.fabric }
def flightS (f : Flight → Flight) : State := { base with flight := f base.flight }

/-- Every phase; links of 15 and of 16 lanes; GO taken and not; an image of one entry with its CRC, and none. -/
def imageS : State := ((hubS (fun g => { g with phase := 5, go := true })).writeNat (imageKey 0) 4 1)
theorem witness_ResetAndBringUp :
    ((on base .fundamentalReset).now = some .fundamentalReset ∧ (on base .configRequest).now = some .configRequest ∧ (on base .imageCheck).now = some .imageCheck) ∧
    ((hubS (fun g => { g with linkBad := true })).hub.linkBad = true ∧ base.hub.linkBad = false) ∧
    ((hubS (fun g => { g with phase := 0 })).hub.phase = 0 ∧ (hubS (fun g => { g with phase := 4 })).hub.phase = 4) ∧
    ((∃ l ∈ [((0 : Nat), (15 : Nat))], l.2 < 16) ∧ ∀ l ∈ [((0 : Nat), (16 : Nat))], 16 ≤ l.2) ∧
    ((hubS (fun g => { g with ready := true })).hub.ready = true ∧ base.hub.ready = false ∧ base.hub.go = false ∧ base.hub.phase ≠ 5) ∧
    (imageS.hub.go = true ∧ imageS.hub.phase = 5 ∧ imageS.hub.ready = false ∧ imageS.imageOk = false) ∧
    (imageS.writeNat (imageKey 4) 4 (crc32 (List.replicate 16 0))).imageOk = true :=
  ⟨⟨rfl, rfl, rfl⟩, ⟨rfl, rfl⟩, ⟨rfl, rfl⟩, by decide +kernel, by decide +kernel, by decide +kernel, by decide +kernel⟩

theorem witness_SupplyAndTime : (NoTrace base ∧ ∀ h, (base.aux h).inq = []) ∧
    ((base.gtime - 40) / 40 * 40 < 640 + base.hub.relAt ∧
      (let s := { hubS (fun g => { g with phase := 5 }) with gtime := 680 }
       640 + s.hub.relAt ≤ (s.gtime - 40) / 40 * 40 ∧ 3 ≤ s.hub.phase)) ∧
    (on base .railSample).now = some .railSample ∧ (base.hub.stopped = false ∧ (hubS (fun g => { g with stopped := true })).hub.stopped = true) ∧
    (560 ≤ (hubS (fun g => { g with raw := 560 })).hub.raw ∧ (hubS (fun g => { g with raw := 860 })).hub.raw ≤ 860) ∧
    ((2 : Int) > 1 ∧ tget 0 (fabS (fun f => { f with skew := [(0, 2)] })).fabric.skew 0 = 2 ∧ tget 0 base.fabric.skew 0 = 0) ∧
    (tget 0 base.fabric.lastBeacon 0 + 10000 ≤ ({ base with gtime := 10000 } : State).gtime ∧ base.gtime < tget 0 base.fabric.lastBeacon 0 + 10000) :=
  ⟨⟨noTrace_of rfl, fun h => of_decide_eq_true (tget_all (d := ({} : CtxAux)) (P := fun a => decide (a.inq = [])) rfl (t := base.auxs) (by decide +kernel) h)⟩,
    by decide +kernel, by decide +kernel, by decide +kernel, by decide +kernel, by decide +kernel, by decide +kernel⟩

theorem witness_LinksAndPorts : (on base (.linkLaneFailure 3 15)).now = some (.linkLaneFailure 3 15) ∧ (15 : Nat) < 16 ∧ (16 : Nat) ≤ 16 ∧
    (15 ∈ (fabS (fun f => { f with portsUp := [15] })).fabric.portsUp) ∧ 64 + 15 ∈ (fabS (fun f => { f with retrain := [79] })).fabric.retrain := by decide +kernel

/-- A chunk to be granted, one granted, a local one; broadcasts that meet an executing chunk and that do not; a clock that stands. -/
def commitS (w : List Nat) (n : Option Nat) : State :=
  { hart base (fun c => { c with older := some { wset := w, csn := n, wbuf := [(0x10000, 7)] } }) with gtime := 3 }
def pausedS : State := base.setSx 0 { base.sx 0 with clk := [⟨0, 400, 400, 400, 0⟩] }
def bcastS (ls : List Nat) : State :=
  let s := chunk base (fun k => { k with n := 1, rset := [0x400] })
  ({ s with thallus := { s.thallus with bcasts := [{ csn := 5, lines := ls, owner := some 9, order := none }] } }).setCore 0 { s.core 0 with inbox := [5, 6] }
theorem witness_CommitsAndGrants :
    (let s := commitS [0x400] (some 5)
     ∃ f o, NoTrace s ∧ (s.ctx 0).firing = some f ∧ (s.ctx 0).older = some o ∧ s.orderReady 0 = true ∧ s.otFails 0 o = false ∧
       s.commitWaits 0 o = false ∧ s.drainsBehind 0 o 5 = false ∧ s.hubBehind 0 o 5 = false ∧ (∀ m ∈ (s.core 0).inbox, max 5 o.hor < m) ∧ o.hostCost = 0 ∧
       o.csn = some 5 ∧ o.held = [] ∧ (s.ctx 0).young.ended = false) ∧
    (let s := commitS [] none
     ∃ f o, (s.ctx 0).firing = some f ∧ (s.ctx 0).older = some o ∧ s.orderReady 0 = true ∧ s.otFails 0 o = false ∧ s.commitWaits 0 o = false ∧
       s.drainsBehind 0 o (o.hor + 1) = false ∧ s.hubBehind 0 o (o.hor + 1) = false ∧ (∀ m ∈ (s.core 0).inbox, o.hor < m) ∧ o.wset.any thallusLine = false) ∧
    (let s := hart (hostS 1) (fun c => { c with older := some { wbuf := [(2 ^ 52, 7)] } })
     ∃ f o, (s.ctx 0).firing = some f ∧ (s.ctx 0).older = some o ∧ o.hostCost ≠ 0 ∧ (s.charge f.slot o.hostCost (.localCommit 0)).isSome = true) ∧
    (let s : State := { base with gtime := 3, spent := false }
     s.runnable 0 = true ∧ (s.core 0).tried.1 ≠ s.gtime ∧ haltedS.runnable 0 = false) ∧
    (∃ o, ((commitS [0x400] (some 5)).ctx 0).older = some o ∧ ({ commitS [0x400] (some 5) with gtime := 2 } : State).gtime < o.since + 3) ∧
    (let s := { commitS [0x400] none with thallus := { base.thallus with requests := [⟨0, 0, [0x400]⟩] } }
     s.thallus.requests.find? s.grantable = some ⟨0, 0, [0x400]⟩ ∧ ∃ o, (s.ctx 0).older = some o ∧ 0x400 ∈ o.wset ∧ thallusLine 0x400 = true) ∧
    base.thallus.requests.find? base.grantable = none ∧
    (let s := bcastS [0x400]
     NoTrace s ∧ s.paused 0 = false ∧ 5 ∈ (s.core 0).inbox ∧ (∀ m ∈ (s.core 0).inbox, 5 ≤ m) ∧
     ∃ b, s.thallus.bcasts.find? (fun b => b.csn = 5) = some b ∧ (s.ctx 0).older = none ∧ 0 < (s.ctx 0).young.n ∧ b.owner ≠ some 0 ∧
       (sigMeets (s.ctx 0).young.rset b.lines || sigMeets (s.ctx 0).young.wset b.lines) = true) ∧
    (sigMeets [0x400] [0x401] || sigMeets [] [0x401]) = false ∧ pausedS.paused 0 = true ∧
    (∃ r ∈ [Reserve.mk 3 [0x400] true 7], r.h = 3 ∧ r.active = true ∧ r.since = 7) :=
  ⟨⟨_, _, noTrace_of rfl, rfl, rfl, by decide +kernel, by decide +kernel, by decide +kernel, by decide +kernel, by decide +kernel, by decide +kernel,
      by decide +kernel, rfl, rfl, rfl⟩,
    ⟨_, _, rfl, rfl, by decide +kernel, by decide +kernel, by decide +kernel, by decide +kernel, by decide +kernel, by decide +kernel, by decide +kernel⟩,
    ⟨_, _, rfl, rfl, by decide +kernel, by decide +kernel⟩, by decide +kernel, ⟨_, rfl, by decide⟩,
    ⟨by decide +kernel, _, rfl, by decide +kernel, by decide +kernel⟩, rfl,
    ⟨noTrace_of rfl, by decide +kernel, by decide +kernel, by decide +kernel, _, rfl, rfl, by decide +kernel, by decide +kernel, by decide +kernel⟩,
    by decide +kernel, by decide +kernel, ⟨3, [0x400], true, 7⟩, by decide, rfl, rfl, rfl⟩

/-- A launch of one firing at 0x10000 with a safe-point table at 0x20000. -/
def hdr1 : List Word := [0x10000, 0, 0x20000, 0, 0, 0, 1 <<< 36 ||| 1, 0]
def launch1 : Launch := { hdr := { words := hdr1, slot := 0, core := none, seq := 0 } }
def launchS (l : Launch) : State := base.setPart 0 { base.part 0 with launches := [(0, l)], svcfg := 1 }
/-- Channel 2 of core 1 has a word and is runnable. -/
def chanS : State := base.setCore 1 { base.core 1 with
  hte := [(2, word (2 ^ 63 + 2 ^ 52 + 0x10000))], chans := [(2, { fifo := [(7, 8)] })] }
theorem witness_FiringsStart :
    (NoTrace chanS ∧ chanS.noSelect 1 = false ∧ chanS.present 1 = true ∧ (chanS.core 1).owners = [] ∧ (chanS.core 1).resume = [] ∧
      (match chanS.chanCands 1 false with | [(p, q, .chan 2)] => decide (p = bits ((chanS.core 1).entry 2) 60 58) && decide (q = 2) | _ => false) = true ∧
      ((chanS.core 1).chan 2).restore = []) ∧
    pausedS.noSelect 0 = true ∧
    (let s := base.setCtx 5 { base.ctx 5 with st := .starting }
     (s.ctx 5).st = .starting ∧ (s.sx 0).halted = false ∧ s.paused 0 = false ∧ (s.aux 5).preqs = [] ∧ (s.ctx 0).st ≠ .starting) ∧
    ((base.setBank 0 9 { base.bank 0 9 with waking := true }).bank 0 9).waking = true ∧ (base.bank 0 9).waking = false ∧
    (pausedS.paused 0 = true ∧ base.paused 0 = false ∧ ({ base with agenda := [.retentionExpiry 0 0 0, .grant] } : State).otherDue = true ∧ base.otherDue = false) ∧
    ((base.setBank 0 9 { base.bank 0 9 with retain := some (4, 5) }).bank 0 9).retain = some (4, 5) ∧
    (base.headLaunch 0 = none ∧ base.unreturned 0 = []) ∧
    ((launchS launch1).headLaunch 0 = some (0, launch1) ∧ launch1.relief = false ∧ launch1.keep = [] ∧ (launchS launch1).unreturned 0 = [] ∧
      hdrFlag hdr1 2 = false ∧ hdrFlag hdr1 1 = false ∧ (launchS launch1).nextPlaces 0 0 launch1 launch1.trial = some [(0, [1])] ∧
      tget? ((launchS launch1).part 0).launches 0 = some launch1) ∧
    (base.hub.stopped = false ∧ (base.slot 0).flr = false ∧ (base.part 0).hubq.length < 64 ∧ (base.part 0).ov = []) ∧
    (let s := base.setPart 0 { base.part 0 with ov := [launch1.hdr], hubq := List.replicate 63 launch1.hdr }
     (s.part 0).ov = [launch1.hdr] ∧ (s.part 0).hubq.length < 64 ∧ (s.partRead 0 ((s.part 0).area + 0x1000 + word (64 * ((s.part 0).ovHead % 1))) 8).isSome = true) ∧
    (let s := base.setPart 0 { base.part 0 with hubq := [launch1.hdr], launches := (List.range 63).map (fun i => (i, launch1)) }
     (s.part 0).hubq = [launch1.hdr] ∧ (s.part 0).freeSlot = some 63 ∧ (s.partWrite 0 ((s.part 0).area + word (64 * 63)) hdr1).isSome = true) :=
  by refine ⟨⟨noTrace_of rfl, ?_⟩, ?_, ?_, ?_, ?_, ?_, ?_, ?_, ?_, ?_, ?_⟩ <;> decide +kernel

/-- Context 0 runs the firing of that launch. -/
def ofLaunch (l : Launch) (f : Ctx → Ctx) : State := hart (fires (launchS l) (fun f => { f with chan := 0, key := some 0 })) f
def safeS (n : Word) (st : CtxSt) : State := (put (ofLaunch launch1 (fun c => { c with st := st })) 0x20000 [n, 0x10000]).setAux 0 { preqs := [.dispatcher] }
/-- Whether context `h` stands in a wait, by `Waits`. -/
def waits' (s : State) (h : Nat) (w : WaitFor) : Bool :=
  decide ((s.ctx h).st = .waiting) && decide ((s.ctx h).wait = w) && (s.ctx h).waitOk && (s.sorus (h / 64)).admq.all (fun p => p.h != h) && !s.paused (h / 64)
theorem waits_of {s : State} {h : Nat} {w : WaitFor} (x : waits' s h w = true) : Waits s h w := by
  simpa only [Waits, waits', Bool.and_eq_true, and_assoc, decide_eq_true_eq, List.all_eq_true, bne_iff_ne, Bool.not_eq_true'] using x
/-- Context 0 waits. -/
def waitS (l : Launch) (w : WaitFor) (pend : List Pend) : State := ofLaunch l (fun c => { c with st := .waiting, wait := w, waitOk := true, pend := pend })
def over1 : Launch := { launch1 with next := 1, ended := 1 }
theorem witness_PreemptionAndCompletion :
    (∃ f, (ofLaunch launch1 id).hart.firing = some f ∧ (ofLaunch launch1 id).hart.st = .running ∧ (ofLaunch launch1 id).unpreemptible f = false ∧
      (ofLaunch launch1 id).poolRoom f.part = true ∧ (ofLaunch launch1 id).paused 0 = false ∧ ((ofLaunch launch1 id).sx 0).halted = false ∧
      ((ofLaunch launch1 id).aux 0).fence = none ∧ (ofLaunch launch1 id).preqStale .dispatcher f = false) ∧
    pausedS.paused 0 = true ∧
    (let s := { safeS 1 .draining with flight := { (safeS 1 .draining).flight with copies := [(1, copy0)] } }
     ∃ f e, s.hart.firing = some f ∧ s.safeAt 0 = some (some e) ∧ tget? s.flight.copies 1 = some copy0 ∧ copy0.fid = f.fid ∧ copy0.discard = false) ∧
    (∃ f, rtcS.hart.firing = some f ∧ rtcS.unpreemptible f = true) ∧
    (∃ f e, (safeS 1 .draining).hart.firing = some f ∧ ((safeS 1 .draining).aux 0).preqs ≠ [] ∧ ((safeS 1 .draining).aux 0).fence = none ∧ (safeS 1 .draining).hart.st = .draining ∧
      (safeS 1 .draining).hart.priv = f.level ∧ (safeS 1 .draining).hart.clean = true ∧ (safeS 1 .draining).safeAt 0 = some (some e)) ∧
    (safeS 0 .draining).safeAt 0 = some none ∧
    ((safeS 1 .draining).quiet 0 = false ∧ (safeS 1 .draining).awaitsAdm 0 = false ∧ haltedS.quiet 0 = true ∧ pausedS.quiet 0 = true ∧
      (base.setSorus 0 { base.sorus 0 with admq := [⟨0, 4, 0⟩] }).awaitsAdm 0 = true) ∧
    (∃ f e, (safeS 1 .saving).hart.firing = some f ∧ (safeS 1 .saving).hart.st = .saving ∧ (safeS 1 .saving).saveWaits 0 f = false ∧ ((safeS 1 .saving).sx 0).halted = false ∧
      (safeS 1 .saving).paused 0 = false ∧ (safeS 1 .saving).parts.all (fun q => q.2.saved.isEmpty) = true ∧
      (safeS 1 .saving).safeAt 0 = some (some e) ∧ (safeS 1 .saving).poolFree f.part = some 0 ∧ ((safeS 1 .saving).launchOf f).all (fun l => !l.relief) = true ∧
      (safeS 1 .saving).blockFault f.part 0 ((safeS 1 .saving).savedRecord 0 (safeS 1 .saving).flight.ids 0 f e).bytes true = none) ∧
    (let s := (ofLaunch launch1 (fun c => { c with st := .restoring })).setAux 0 { block := some 0, blockLen := 4096 }
     ∃ f, NoTrace s ∧ s.hart.firing = some f ∧ (s.aux 0).block = some 0 ∧ s.hart.st = .restoring ∧ (s.sx 0).halted = false ∧ s.hart.wait = .none ∧
       (s.aux 0).capOn = 0 ∧ (s.aux 0).preqs = [] ∧ s.paused 0 = false ∧ s.blockFault f.part 0 (s.aux 0).blockLen false = none) ∧
    (tget? ((launchS launch1).part 0).launches 0 = some launch1 ∧ launch1.isOver = false) ∧
    (over1.isOver = true ∧ over1.keep = [] ∧ hdrCompl over1.hdr.words = 0 ∧ hdrSigkind over1.hdr.words = 0) ∧
    (let ws : List Word := [0x10000, 0, 0, 0, 0, 63 <<< 32, 0, 1 <<< 32]
     hdrSigkind ws = 1 ∧ hdrSigvec ws < 64 ∧ bit (({ base.slot 0 with msix := [(127, 0)] } : Slot).msixWord (2 * hdrSigvec ws + 1)) 32 = false) ∧
    (let l := { launch1 with lbOut := [(3, 0, 5, 1)] }
     tget? ((waitS l (.lbar 0) []).part 0).launches 0 = some l ∧ (∀ m ∈ l.gangOut, m.1 ≠ 3) ∧ (waitS l (.lbar 0) []).hartOf 0 = some 0 ∧
     Waits (waitS l (.lbar 0) []) 0 (.lbar 0) ∧ ((waitS l (.lbar 0) []).ctx 0).pend = [] ∧ ((waitS l (.lbar 0) []).sx 0).halted = false) ∧
    (let s := base.setSorus 3 { base.sorus 3 with pvalid := true, leaving := true }
     (s.sorus 3).leaving = true ∧ ((s.sorus 3).pvalid && s.sorusHolds 3) = false ∧ (base.sorus 3).leaving = false) :=
  ⟨⟨_, rfl, rfl, by decide +kernel, by decide +kernel, by decide +kernel, rfl, rfl, by decide +kernel⟩, by decide +kernel,
    ⟨_, { wait := false, blive := 0, alive := 0, plive := 0, vlive := 0, xlive := 0 }, rfl, by decide +kernel, rfl, rfl, rfl⟩, ⟨_, rfl, rfl⟩,
    ⟨_, { wait := false, blive := 0, alive := 0, plive := 0, vlive := 0, xlive := 0 }, rfl, by decide +kernel, rfl, rfl, rfl, rfl, by decide +kernel⟩, by decide +kernel, by decide +kernel,
    ⟨_, { wait := false, blive := 0, alive := 0, plive := 0, vlive := 0, xlive := 0 }, rfl, rfl, by decide +kernel, by decide +kernel, by decide +kernel, by decide +kernel,
      by decide +kernel, by decide +kernel, by decide +kernel, by decide +kernel⟩,
    ⟨_, noTrace_of rfl, rfl, rfl, rfl, rfl, rfl, rfl, rfl, by decide +kernel, by decide +kernel⟩, ⟨by decide +kernel, by decide +kernel⟩, by decide +kernel, by decide +kernel,
    ⟨rfl, by decide, by decide +kernel, waits_of (by decide +kernel), rfl, rfl⟩, by decide +kernel⟩

/-- A barrier object that expects 2 arrivals with 1 in, its last update; the first of two; a group of one and of two. -/
def barS (w0 w1 : Word) (k : BarKind) : State :=
  (put base (sorusKey 0 0) [w0, w1]).setSorus 0 { base.sorus 0 with barq := [{ upd := { key := sorusKey 0 0, kind := k }, core := 0, at' := 0 }] } |> fun s => { s with gtime := 3 }
def group1 (hs : List Nat) : Group := { gid := 0, sorus := 0, hs := hs, gb := [(0, 0, 5)] }
def xgroup : Group := { gid := 0, sorus := 0, hs := [0], xg := [(0, 0, 5, 0)] }
/-- A crozier that holds one combine: of core 0 and of a second core of its column. -/
def crzOf (k : Combine) : State := flightS (fun f => { f with combines := [(0, [k])] })
def crzK (ty : Nat) (members : Nat) (two : Bool) : Combine :=
  let d : CrzDesc := { tag := 3, ty := ty, nel := 0, res := 0x100, members := members }
  { tag := 3, sends := (0, 0, d, 0, 0) :: if two then [(1, 1, d, 0, 0)] else [], next := 0, acc := none, code := none, waits := [], got := [] }
theorem no_cycles {s : State} {L : Nat} (h : s.gtime = s.hub.relAt) : s.cycles L < 1 := by simp [State.cycles, h]
theorem witness_WaitsEnd :
    (Waits (waitS launch1 (.cycles 0) []) 0 (.cycles 0) ∧ 0 ≤ (waitS launch1 (.cycles 0) []).cycles 0 ∧ (waitS launch1 (.cycles 1) []).cycles 0 < 1) ∧
    (Waits (waitS launch1 (.time 1) []) 0 (.time 1) ∧ (waitS launch1 (.time 1) []).paused 0 = false ∧ (waitS launch1 (.time 1) []).localTime 0 < 1 ∧
      0 ≤ (waitS launch1 (.time 0) []).localTime 0) ∧
    (base.sorus 0).barq = [] ∧
    (let s := barS (2 <<< 48 ||| 1 <<< 32) 0 (.arrive 0)
     (s.sorus 0).barq = [{ upd := { key := sorusKey 0 0, kind := .arrive 0 }, core := 0, at' := 0 }] ∧ s.still 0 = false ∧ 0 + 3 ≤ s.gtime ∧
     ({ s with gtime := 2 } : State).gtime < 0 + 3 ∧ bits (word (s.readNat (sorusKey 0 0) 8)) 63 48 ≠ 0 ∧
     bit (word (s.readNat (sorusKey 0 0 + 8) 8)) 1 = false ∧
     (bits (word (s.readNat (sorusKey 0 0) 8)) 47 32 + 1) % 2 ^ 16 = bits (word (s.readNat (sorusKey 0 0) 8)) 63 48 ∧
     min (2 ^ 32 - 1) (bits (word (s.readNat (sorusKey 0 0) 8)) 31 0 + 0) = 0) ∧
    (let s := (waitS launch1 (.bar (sorusKey 0 0) false 5) [])
     Waits s 0 (.bar (sorusKey 0 0) false 5) ∧ (s.ctx 0).firing ≠ none ∧ (s.sx 0).halted = false) ∧
    (let l := { launch1 with groups := [group1 [0]] }
     tget? ((waitS l .gbar []).part 0).launches 0 = some l ∧ l.group 0 = some (group1 [0]) ∧ (group1 [0]).allIn ((group1 [0]).gb.map (·.1)) = true ∧
     (group1 [0, 1]).allIn ((group1 [0, 1]).gb.map (·.1)) = false ∧ (waitS l .gbar []).hartOf 0 = some 0 ∧ Waits (waitS l .gbar []) 0 .gbar ∧
     ((waitS l .gbar []).sx 0).halted = false) ∧
    (let l := { launch1 with groups := [xgroup] }
     l.group 0 = some xgroup ∧ xgroup.hs.length = 1 ∧ xgroup.ended = [] ∧ Waits (waitS l .xchg [⟨32, 5⟩]) 0 .xchg ∧ ((waitS l .xchg [⟨32, 5⟩]).ctx 0).pend = [⟨32, 5⟩] ∧
     ((waitS l .xchg [⟨32, 5⟩]).sx 0).halted = false ∧ (group1 [0]).xg = []) ∧
    tget [] launch1.lb 3 = [] ∧
    (let l := { launch1 with lb := [(3, [(0, 5)])] }
     let s := waitS l (.lbar 3) []
     tget? (s.part 0).launches 0 = some l ∧ tget [] l.lb 3 = [(0, 5)] ∧ s.alive 0 = true ∧ s.hartOf 0 = some 0 ∧ l.ended + 1 = hdrAll l.hdr.words ∧ l.lbOut = [] ∧
     (s.ctx 0).pend = [] ∧ Waits s 0 (.lbar 3) ∧ (s.sx 0).halted = false ∧
     bits ({ s with hub := { s.hub with mpwrcfg := 0 } } : State).hub.mpwrcfg 41 32 = 0) ∧
    (base.part 0).merges = [] ∧ (∃ m : Merge, m.closed = none ∧ bit (m.desc.getD 2 0) 1 = true) ∧ (base.crzPick 0 = none ∧ base.combinesOf 0 = []) ∧
    (let k := crzK 1 3 true
     let s := { crzOf k with gtime := 3 }
     s.crzPick 0 = some k ∧ s.combinesOf 0 = [k] ∧ k.waits = [] ∧ k.got = [] ∧ k.code = none ∧ k.mismatch = true ∧ (3 : Nat).testBit 0 = true ∧
     s.present (coreOfMember 0 0) = true) ∧
    (let k := crzK 1 3 false
     let s := crzOf k
     let d : CrzDesc := { tag := 3, ty := 1, nel := 0, res := 0x100, members := 3 }
     s.crzPick 0 = some k ∧ s.combinesOf 0 = [k] ∧ k.waits = [] ∧ k.got = [] ∧ k.code = none ∧ k.sends.head?.map (fun x => (x.2.1, x.2.2.1)) = some (0, d) ∧
     k.mismatch = false ∧ s.crzNext 0 k = some 0 ∧ coreOfMember 0 0 = 0 ∧ k.sends.find? (fun x => x.1 = 0) = some (0, 0, d, 0, 0)) ∧
    (let L := coreOfMember 0 159
     let k : Combine := { tag := 3, sends := [(L, 0, { tag := 3, ty := 0, nel := 0, res := 0x100, members := 2 ^ 159 }, 0, 0)], next := 160
                          acc := some ([1, 2, 3, 4], []), code := none, waits := [], got := [], last := 0 }
     let s := { crzOf k with gtime := 3 }
     s.combinesOf 0 = [k] ∧ (∀ i, i < 160 → (2 ^ 159 : Nat).testBit i = decide (i = 159)) ∧ s.present L = true ∧ s.paused (L / 16) = false ∧
     (s.sx (L / 16)).halted = false ∧ k.last + 3 ≤ s.gtime) :=
  ⟨⟨waits_of (by decide +kernel), Nat.zero_le _, no_cycles rfl⟩,
    ⟨waits_of (by decide +kernel), by decide +kernel, by decide +kernel, Nat.zero_le _⟩, rfl, by decide +kernel,
    ⟨waits_of (by decide +kernel), by decide +kernel, rfl⟩,
    ⟨by decide +kernel, by decide +kernel, by decide +kernel, by decide +kernel, by decide +kernel, waits_of (by decide +kernel), rfl⟩,
    ⟨by decide +kernel, rfl, rfl, waits_of (by decide +kernel), by decide +kernel, rfl, rfl⟩, rfl,
    ⟨by decide +kernel, by decide +kernel, by decide +kernel, by decide +kernel, by decide +kernel, rfl, rfl, waits_of (by decide +kernel), rfl, by decide +kernel⟩, rfl,
    ⟨{ id := 1, fid := 0, open0 := none, closed := none, desc := [0, 0, 2] }, rfl, by decide⟩, by decide +kernel, by decide +kernel, by decide +kernel, by decide +kernel⟩

/-- The matrix queue of core 0 holds an operation; a copy stands at the head of its copy queue. -/
def tileS (k : TileKind) : State := base.setCore 0 { base.core 0 with matq := [{ id := 4, fid := 0, h := 0, kind := k, fmt := [], admitted := false }] }
def copyS (c : Copy) : State := (flightS (fun f => { f with copies := [(1, c)] })).setCore 0 { base.core 0 with copyq := [1] }
def drainS (n : Nat) : State := base.setAux 0 { drain := [(2, { part := 0, fid := 0, queue := [[{ bind := 3, va := 0x10000, size := 4, bits := n }]], stop := none })] }
theorem witness_EnginesRun :
    ((base.core 0).matq = [] ∧ base.still 0 = false ∧ haltedS.still 0 = true) ∧
    (∀ k, k = .product 0 .i8i8 0 ld64 ld64 [] ∨ k = .aclr 0 15 false [] ∨ k = .amova ⟨127, 64, 0, 0⟩ 0 →
      ∃ t, ((tileS k).core 0).matq.head? = some t ∧ t.kind = k ∧ t.ready = true) ∧
    (cmdBarv 0 = false ∧ cmdCol 0 + cmdN 0 ≤ 128) ∧ (({ id := 4, fid := 0, h := 0, kind := .product 0 .i8i8 (0xFFFF000000 * 256 + 0xFF000000) 0 0 [], fmt := [], admitted := false } : Tile).ready = false) ∧
    (base.copyHead 0 = none ∧ (copyS copy1).copyHead 0 = some copy1 ∧ copy1.checked = false ∧ (copyS copy1).still 0 = false) ∧
    ((copyS copy1).copyCode ((copyS copy1).sampled copy1) = 0 ∧ (copyS copy0).copyCode ((copyS copy0).sampled copy0) = 0 ∧
      (let c := { copy1 with csr := (0x820, 0x50000) :: copy1.csr }
       (copyS c).copyCode ((copyS c).sampled c) ≠ 0) ∧
      (let c := { copy1 with fault := true, parked := true }
       (copyS c).copyHead 0 = some c ∧ c.fault = true ∧ c.follow = none ∧ c.h / 4 = 0) ∧
      (let s := hart (copyS copy1) (fun c => { c with pend := [⟨5, 1⟩] })
       copy1.discard = false ∧ s.hartOf copy1.fid = some 0 ∧ s.paused 0 = false ∧ (s.ctx 0).pend = [⟨5, copy1.id⟩])) ∧
    (let t : Tile := { id := 4, fid := 0, h := 0, kind := .aclr 0 15 false [], fmt := [], admitted := false }
     t.running = false ∧ { t with running := true }.running = true) ∧
    ({ copy1 with parked := true }.parked = true ∧ (haltedS.sx 0).halted = true ∧ { copy1 with frozen := true }.frozen = true ∧ pausedS.stuck 0 = true) ∧
    (let c := { copy1 with checked := true }
     (copyS c).copyHead 0 = some c ∧ (copyS c).stuck 0 = false ∧ ((copyS c).sx 0).halted = false ∧ (copyS c).copyAwaits c = false ∧ c.words = 0 ∧ c.raw = true ∧ c.sp false = 1 ∧ c.sp true = 1 ∧ c.pieces c.done = [{ run := 0, e0 := 0, e1 := 16 }] ∧
     c.span false { run := 0, e0 := 0, e1 := 16 } = (0, 16) ∧ c.run true 0 + 16 ≤ 0x50000 ∧
     c.made = none ∧ c.frozen = false ∧ ∀ i, i < 16 → (copyS c).byte (spadKey 0 (0 + i)) = (List.replicate 16 (0 : Byte)).getD i 0) ∧
    (let c := { copy1 with checked := true, made := some 0, out := [(List.range 16).map (fun i => (spadKey 0 (0x100 + i), (7 : Byte)))] }
     let s := { copyS c with gtime := 3 }
     s.copyHead 0 = some c ∧ (s.sx 0).halted = false ∧ 0 + 3 ≤ s.gtime ∧ ({ s with gtime := 2 } : State).gtime < 0 + 3 ∧ c.follow = none ∧ c.cancel = false ∧
     c.out.flatten = (List.range 16).map (fun i => (spadKey 0 (0x100 + i), (List.replicate 16 (7 : Byte)).getD i 0)) ∧ c.sectors ≤ c.done + 1 ∧
     (let d := { c with csr := (0x826, 0x2000) :: copy1.csr }
      d.done + 1 < d.sectors)) ∧
    ((base.ctx 0).port 2 = none ∧ base.stuck 0 = false ∧
      (let p := port false false 0
       let s := (hart base (fun c => { c with shadow := { c.shadow with ports := [(2, p)] } })).setAux 0
         { fetch := [(2, { bind := 3, els := [], flying := 1, stop := none, dead := false })] }
       s.stuck 0 = false ∧ (s.ctx 0).port 2 = some p ∧ p.dir = false ∧ (s.ctx 0).firing ≠ none ∧
       (∃ f, tget? (s.aux 0).fetch 2 = some f ∧ f.bind = p.bind ∧ f.flying ≠ 0) ∧ (p.request ((s.aux 0).fetchOf 2 p.bind)).length = 16 ∧
       ((p.request ((s.aux 0).fetchOf 2 p.bind)).all (fun j => match s.streamPlace 0 0 0 .load (p.addr j) with | .ok pl => !isHost pl.key && !s.keyStill 0 pl.key | .error _ => false)) = true)) ∧
    (tget? (base.aux 0).drain 2 = none ∧ (∃ d, tget? ((drainS 9).aux 0).drain 2 = some d ∧ d.queue = [[{ bind := 3, va := 0x10000, size := 4, bits := 9 }]] ∧ d.stop = none ∧
      (drainS 9).keyStill 0 0x10000 = false ∧ d.dead = none ∧ (drainS 9).streamPlace 0 d.part d.fid .store 0x10000 = .ok ⟨0x10000, false⟩)) ∧
    (tget? base.flight.copies 1 = none ∧ tget? (copyS copy1).flight.copies 1 = some copy1 ∧ copy1.late = false ∧ copy1.id = 1 ∧ base.localTime 0 ≤ copy1.promise ∧
      copy1.promise < ({ base with gtime := 1 } : State).localTime 0 ∧ pausedS.paused (copy1.h / 64) = true) := by
  refine ⟨by decide +kernel, ?_, by decide +kernel, by decide +kernel, by decide +kernel, by decide +kernel, by decide +kernel, by decide +kernel, by decide +kernel, by decide +kernel,
    ⟨rfl, rfl, rfl, rfl, rfl, by decide +kernel, ⟨_, rfl, rfl, by decide⟩, by decide +kernel, by decide +kernel⟩,
    ⟨rfl, ⟨_, rfl, rfl, rfl, by decide +kernel, rfl, ok_of (by decide +kernel)⟩⟩, by decide +kernel⟩
  rintro k (rfl | rfl | rfl) <;> exact ⟨_, rfl, rfl, by decide +kernel⟩

def msg0 (left : Bool) : Msg := { sender := 5, core := 1, ch := 2, words := List.replicate 32 7, srcw := 0, left := left }
def op0 : AtomicOp := { op := 0, narrow := false, nr := false, v := 1, e := 0 }
def rcopy0 : ReqCopy :=
  { rid := 4, copyn := 0, sent := 0, core := 1, ack := 0, epoch := 0, queued := false, tenant := 0, vrid := 0, serial := 0, nonIdem := true, op := op0, key := 0
    remote := none, abort := false }
def req0 (held : Bool) : Req :=
  { fid := 0, core := 0, slot := 0, tenant := 0, vrid := 0, serial := 3, nonIdem := true, op := op0, key := spadKey 1 0, win := none, va := 0, id := 6, xd := 5
    first := 0, sorus := 0, held := held }
def reqOf (held : Bool) (h0 : Nat) : State :=
  hart ({ flightS (fun f => { f with reqs := [(4, req0 held)], leftAt := [(0, [(32771, h0)])] }) with gtime := 312000 }) (fun c => { c with pend := [⟨5, 6⟩] })
theorem witness_RemoteTraffic :
    (let s := flightS (fun f => { f with msgs := [(3, msg0 false)] })
     tget? s.flight.msgs 3 = some (msg0 false) ∧ s.msgBehind 3 (msg0 false) true = false ∧ s.routeHeld 2 = false ∧
     (hubS (fun g => { g with rtOld := [(2, [9])] } ) |>.routeHeld 2) = false ∧
     ({ s with hub := { s.hub with rtOld := [(2, [3])] } } : State).routeHeld 2 = true ∧ (msg0 false).words.length ≤ ((s.core 1).chan 2).free) ∧
    (let s := flightS (fun f => { f with msgs := [(3, msg0 true)] })
     s.msgBehind 3 (msg0 true) false = false ∧ ((s.sx 0).halted || s.paused 0) = false ∧ s.wayDown (s.routeOf (msg0 true)) = false ∧
     (fabS (fun f => { f with retrain := [0] })).wayDown (wayLinks 0 4) = true ∧ s.present 1 = true ∧ s.finjHits 1 1 2 0 = false) ∧
    (let s := base.setCore 1 { base.core 1 with finj := word (0xFFFF * 2 ^ 48 + 2 ^ 32 + 2 * 2 ^ 16 + 256) }
     s.finjHits 1 1 2 0 = true) ∧
    (({ base with hub := { base.hub with absent := [1] } } : State).present 1 = false ∧ (msg0 true).sender < 10240 ∧ ((haltedS.sx 0).halted || haltedS.paused 0) = true) ∧
    (let s := { flightS (fun f => { f with rcopies := [(3, rcopy0)] }) with gtime := 8000 }
     let floor (x : SorusSt) : Nat := tget 0 x.floors (rcopy0.tenant * 2 ^ 32 + rcopy0.vrid)
     tget? s.flight.rcopies 3 = some rcopy0 ∧ s.fabric.admits = [] ∧ rcopy0.queued = false ∧ s.wayDown (s.copyWay rcopy0) = false ∧ s.still 0 = false ∧
     s.present 1 = true ∧ rcopy0.age + ((rcopy0.came.map (·.1)).getD s.gtime - rcopy0.sent) ≤ 8000 ∧
     rcopy0.hit = none ∧ ((s.sorus 0).ackSeen rcopy0).cache.find? (fun e => e.answers rcopy0) = none ∧ rcopy0.nonIdem = true ∧ rcopy0.copyn = 0 ∧
     (∀ p ∈ s.flight.rcopies, p.2.queued = false) ∧
     (rcopy0.serial + 65536 - floor ((s.sorus 0).ackSeen rcopy0)) % 65536 < 32768 ∧ 8000 < 1 + (8000 - rcopy0.sent) ∧
     32768 ≤ (rcopy0.serial + 65536 - floor (({ s.sorus 0 with floors := [(0, 32768)] } : SorusSt).ackSeen rcopy0)) % 65536 ∧
     (0 < { rcopy0 with copyn := 2 }.copyn ∧ s.gtime < max ((s.sorus 0).ackSeen rcopy0).epochAt s.hub.relAt + 264000)) ∧
    (let e : CacheEnt := { tenant := 0, vrid := 0, serial := 0, result := 9, time := 0, epoch := 1, abort := false, ver := 0 }
     ((({ base.sorus 0 with cache := [e] } : SorusSt)).ackSeen rcopy0).cache.find? (fun e => e.answers rcopy0) = some e ∧ rcopy0.remote = none ∧
     { rcopy0 with hit := some (0, 9, 0) }.hit.isSome = true ∧ e.answers rcopy0 = true ∧ e.time + 256000 ≤ ({ base with gtime := 256000 } : State).gtime) ∧
    (let s := flightS (fun f => { f with rcopies := [(2, { rcopy0 with queued := true }), (3, rcopy0)] })
     haltedS.still 0 = true ∧ rcopy0.came = none ∧ { rcopy0 with came := some (4, 1) }.came ≠ none ∧ s.lineAhead rcopy0 = true ∧ (flightS (fun f => { f with rcopies := [(3, rcopy0)] })).lineAhead rcopy0 = false) ∧
    (let s := { reqOf false 0 with flight := { (reqOf false 0).flight with replies := [(2, { rid := 4, code := 0, v := 9, ver := 0, epoch := 0, sorus := 0 })] } }
     ∃ r, tget? s.flight.replies 2 = some r ∧ tget? s.flight.reqs r.rid = some (req0 false) ∧ (s.sx 0).halted = false ∧ s.paused 0 = false ∧
       s.wayDown (wayLinks r.sorus 0) = false ∧ r.code = 0 ∧ (req0 false).op.nr = false ∧ s.hartOf 0 = some 0 ∧ s.quiet 0 = false ∧
       (s.ctx 0).pend = [⟨5, (req0 false).id⟩] ∧ tget? base.flight.reqs r.rid = none) ∧
    (let s := reqOf false 0
     s.ownerOf (spadKey 1 0) = some 1 ∧ 1 / 16 = (req0 false).sorus ∧ (req0 false).copies < copyNow (req0 false).first (s.localTime 0) ∧
     copyNow (req0 false).first 7999 ≤ (req0 false).copies ∧ 1 / 16 ≠ { req0 false with sorus := 3 }.sorus) ∧
    (((reqOf true 0).flight.reqs.filter (fun p => p.2.fid = 0 && p.2.held)).map (·.1) = [4] ∧ (reqOf true 0).wrapUntil (req0 true) = none ∧
      (reqOf true 0).reqBehind 4 (req0 true) = false ∧
      (let s := reqOf true 0
       ({ s with flight := { s.flight with reqs := (3, { req0 false with win := some 1 }) :: s.flight.reqs } } : State).reqBehind 4 (req0 true) = true) ∧
      (reqOf true 12001).wrapUntil (req0 true) = some 312001) ∧
    ((req0 false).first + 312000 ≤ (reqOf false 0).localTime 0 ∧ (reqOf false 0).paused 0 = false ∧ (reqOf false 0).quiet 0 = false ∧
      ((reqOf false 0).ctx 0).sys.pendEi = false ∧ base.localTime 0 < (req0 false).first + 312000 ∧ pausedS.paused ((req0 false).core / 16) = true) :=
  ⟨by decide +kernel, by decide +kernel, by decide +kernel, by decide +kernel, by decide +kernel, by decide +kernel, by decide +kernel,
    ⟨_, rfl, rfl, rfl, by decide +kernel, by decide +kernel, rfl, rfl, by decide +kernel, by decide +kernel, rfl, rfl⟩, by decide +kernel, by decide +kernel, by decide +kernel⟩

theorem witness_RegisterWrites :
    ((base.core 2559).post.go = false ∧ (base.setCore 2559 { base.core 2559 with post := { go := true } } |>.core 2559).post.go = true ∧ base.present 2559 = true ∧
      bit (16 + 2 : Word) 4 = true ∧ 2 ≤ bits (16 + 2 : Word) 3 0 ∧ bits (16 + 1 : Word) 3 0 < 2) ∧
    ((hubReg 0xFFFFF8).isNone = true ∧ (hubReg 0x40FC0).isSome = true) ∧ ((hubS (fun g => { g with ready := true })).hub.ready = true ∧ base.hub.ready = false) ∧
    ((4 : Nat) % 8 ≠ 0 ∧ (0xFFFFF8 : Nat) % 8 = 0) ∧
    (base.partOf 0 = some 0 ∧ ({ base with hub := { base.hub with absent := [7] } } : State).present 7 = false ∧ base.present 7 = true ∧ base.scanOn 7 = none ∧
      ({ base with hub := { base.hub with absent := [7] } } : State).hub.selffail.contains 7 = false) ∧
    (let x := base.sorus 0
     x.leaving = false ∧ bit (0x80 : Word) 7 = x.pvalid ∧ bits (0x80 : Word) 5 0 = x.part ∧ bits (0x81 : Word) 5 0 ≠ x.part ∧ bit (0 : Word) 7 ≠ x.pvalid) ∧
    ((base.sx 0).halted = false ∧ (haltedS.sx 0).halted = true ∧ (haltedS.ctx 0).st ≠ .free ∧ (haltedS.ctx 1).st = .free) ∧
    ((copyS { copy1 with flying := some (5, 0) }).transBusy 0 = true ∧ base.transBusy 0 = false) ∧
    ((0x3FC : Nat) % 4 = 0 ∧ msixPart 1 0x2000 4 = true ∧ msixPart 1 0x2000 2 = false ∧ msixPart 0 0x2000 4 = false) := by decide +kernel

def readyS (f : Slot → Slot) : State := (hubS (fun g => { g with ready := true })).setSlot 0 (f { base.slot 0 with tencfg := word (2 ^ 63) })
/-- Slot 3 owns partition 5, which stands as partition 0 of the others, and the contexts are these. -/
def flrS (p : Part) (cs : Tab Ctx) : State :=
  let s := base.setPart 5 { p with ptroot := (base.part 0).ptroot, partcfg := 3 }
  { s.setSlot 3 (base.slot 0) with ctxs := cs }
theorem witness_HostLink :
    (base.deviceLine (2 ^ 31 - 1) = true ∧ base.deviceLine (2 ^ 31) = false ∧ base.lineHeld 5 = false ∧ pendS.lineHeld 0x400 = true) ∧
    (base.windowPart 16 0 = none ∧ bit (base.slot 0).tencfg 63 = false) ∧
    (let s := readyS id
     s.windowPart 0 0 = some 0 ∧ bit (s.slot 0).tencfg 63 = true ∧ s.hub.ready = true ∧ s.hub.stopped = false ∧ (s.slot 0).flr = false) ∧
    (let s := readyS (fun q => { q with windows := [(0, (List.range 7).map (fun i => (i, 1)))] })
     (List.range 7).all (fun i => thas (tget [] (s.slot 0).windows 0) i) = true) ∧
    (msixPart 0 0x20 8 = false ∧ msixPart 0 0x182404 4 = false ∧ msixPart 15 0x23FC 4 = true ∧ barLists 0 0x20 = false ∧ barLists 0 0x18 = true ∧ (0x1C : Nat) % 8 ≠ 0 ∧ base.hub.elog = [] ∧
      (base.hub.elogHead + 1) % 256 ≠ base.hub.elogTail) ∧
    (let s := (State.reset.setSlot 15 {})
     s.flight.copies = [] ∧ s.partsOf 15 = [] ∧ s.fabric.expw1 = [] ∧ s.ctxs = []) ∧
    (let d : Hdr := { launch1.hdr with words := [0x10000, 0, 0x20000, 0x20000, 0, 0, 1 <<< 36 ||| 1, 0] }
     let s := flrS { hubq := [d] } []
     s.flight.copies = [] ∧ s.partsOf 3 = [5] ∧ (s.part 5).hubq = [d] ∧ (s.part 5).ov = [] ∧ (s.part 5).launches = [] ∧ s.ctxs = [] ∧
     s.fabric.expw1 = [] ∧ hdrSigkind d.words ≠ 2 ∧ hdrCompl d.words ≠ 0 ∧
     (s.partWrite 5 (hdrCompl d.words) [5, 0, word s.gtime, word s.gtime, 0, word (s.tenantOf d.slot), 0, 1]).isSome = true) ∧
    (let f := base.hart.firing.map (fun f => { f with part := 5, slot := 3, key := some (64 * 5) })
     let s := flrS { launches := [(0, launch1)] } [(0, { base.hart with firing := f })]
     s.flight.copies = [] ∧ s.partsOf 3 = [5] ∧ (s.part 5).hubq = [] ∧ (s.part 5).ov = [] ∧ (s.part 5).saved = [] ∧ (s.part 5).launches = [(0, launch1)] ∧
     s.ctxs = [(0, { base.hart with firing := f })] ∧ f.bind (·.key) = some (64 * 5 + 0)) ∧
    (let f := base.hart.firing.map (fun f => { f with slot := 15 })
     let s := { base with ctxs := [(0, { base.hart with firing := f })] }
     s.flight.copies = [] ∧ s.partsOf 15 = [] ∧ f.map (·.slot) = some 15 ∧ f.map (·.owner) = some none) ∧
    (let c := { copy1 with checked := true, slot := 15 }
     let s := { copyS c with ctxs := [] }
     s.flight.copies = [(c.id, c)] ∧ c.slot = 15 ∧ s.partsOf 15 = [] ∧ s.ctxs = [] ∧ c.checked = true ∧ c.parked = false ∧ s.copyHead (c.h / 4) = some c ∧
     copy1.checked = false) ∧
    (let e : Word := word (2 ^ 63 + 15 * 2 ^ 24)
     let s := { fabS (fun f => { f with expw1 := [(1, e)] }) with ctxs := [] }
     s.flight.copies = [] ∧ s.partsOf 15 = [] ∧ s.ctxs = [] ∧ s.fabric.expw1 = [(1, e)] ∧ bits e 27 24 = 15 ∧ bits e 27 24 ≠ 3) ∧
    (let l := { launch1 with hdr := { launch1.hdr with words := [0x10000, 0, 0x20000, 0x20000, 0, 0, 1 <<< 36 ||| 1, 0] }, force := some 5, silent := true
                             next := 1, ended := 1, killed := true }
     tget? ((launchS l).part 0).launches 0 = some l ∧ l.isOver = true ∧ l.force = some 5 ∧ l.silent = true ∧ l.keep = [] ∧ 0 < l.ended ∧
     hdrSigkind l.hdr.words ≠ 2 ∧ hdrCompl l.hdr.words ≠ 0 ∧
     ((launchS l).partWrite 0 (hdrCompl l.hdr.words) [word (l.faults * 2 ^ 32 + 5), word l.halted, word (l.tstart.getD l.tend), word l.tend,
       word l.cycles, word ((launchS l).tenantOf l.hdr.slot), 0, 1]).isSome = true) ∧
    ((base.slot 3).flr = false ∧ ((base.setSlot 3 { base.slot 3 with flr := true }).slot 3).flr = true ∧ base.partsOf 3 = []) := by
  refine ⟨?_, ?_, ?_, ?_, ?_, ?_, ?_, ?_, ?_, ?_, ?_, ?_, ?_⟩ <;> decide +kernel

/-- Port 0 is trained and lets (0, 9) pass; window 1 exports one page from 0x10000 with every right. -/
def linkS : State := fabS (fun f => { f with
  portsUp := [0], keyset := [(0, word (2 ^ 63 + 2 ^ 32 + 9))], expw0 := [(1, word 0x10000)], expw1 := [(1, word (2 ^ 63 + 7))] })
def ckS (n done : Nat) (at0 : Nat) : State :=
  { fabS (fun f => { f with ckstate := 1, ckdone := done, ckunits := [(5, 0, n, at0)], portsUp := [0], ckcfg := word (2 ^ 32), ckrun := word (2 ^ 32) }) with gtime := 8000 }
/-- Device memory of one stack, and as many import slots from 0 on as it takes, each with every right. -/
def readyCk : State :=
  let s := { hubS (fun g => { g with good := 1 }) with fabric := { base.fabric with portsUp := [0], keyset := [(0, word (2 ^ 63 + 2 ^ 32 + (base.slot 0).tencfg.toNat % 2 ^ 32))] } }
  let n := (s.capacity + 2 ^ 32 - 1) / 2 ^ 32
  { s with fabric := { s.fabric with impw0 := (List.range n).map (fun i => (i, 0xFFFF)), impw1 := (List.range n).map (fun i => (i, word (2 ^ 63 + 2))) } }
def bktS (f : Slot → Slot) : State := base.setSlot 0 (f { base.slot 0 with tencfg := word (2 ^ 63), tbkt := word (10 * 2 ^ 44 + 4 * 2 ^ 24) })
theorem witness_FabricTraffic :
    ((0 ∈ linkS.fabric.portsUp ∧ 64 + 0 ∉ linkS.fabric.retrain) ∧ 0 ∉ base.fabric.portsUp ∧ linkS.portPasses 0 0 9 = true ∧ linkS.portPasses 0 0 8 = false ∧
      linkS.modId = 0 ∧ linkS.present 0 = true ∧ linkS.partOf 0 = some 0 ∧ bits (linkS.slot (linkS.slotOf 0)).tencfg 59 48 = 0 ∧
      ({ linkS with hub := { linkS.hub with absent := [0] } } : State).present 0 = false) ∧
    (let e0 := tget 0 linkS.fabric.expw0 1
     let e1 := tget 0 linkS.fabric.expw1 1
     bit e1 63 = true ∧ bits e1 59 48 = 0 ∧ bits e1 47 32 = 0 ∧ bit e1 0 = true ∧ bit e1 1 = true ∧ bit e1 2 = true ∧ bits e1 47 32 ≠ 1 ∧
     bits e0 51 16 * 65536 + 0xFFC0 + 64 ≤ bits e0 51 16 * 65536 + (bits e0 15 0 + 1) * 65536 ∧
     ¬ (bits e0 51 16 * 65536 + 0xFFC1 + 64 ≤ bits e0 51 16 * 65536 + (bits e0 15 0 + 1) * 65536) ∧ (linkS.ownerOf 0x10000).isSome = true) ∧
    (({ linkS with fabric := { linkS.fabric with admits := [(1, 3, 5)] } } : State).fabric.admits.any (fun p => p.1 = 1) = true ∧ linkS.fabric.admits = [] ∧
      (∃ p ∈ [((1 : Nat), (3 : Nat), (5 : Nat))], p.1 = 1 ∧ p.2.2 ≠ bits (tget 0 linkS.fabric.expw1 1) 47 32)) ∧
    (let q := (bktS (fun q => { q with tokens := 6, bdebt := 0 })).slot 0
     bit q.tencfg 63 = true ∧ q.tokens + (4 - 0) ≤ bits q.tbkt 63 44 ∧ q.tokens ≤ bits q.tbkt 63 44 ∧ bit (base.slot 0).tencfg 63 = false) ∧
    (let q := (bktS (fun q => { q with tokens := 7, bdebt := 0 })).slot 0
     bits q.tbkt 63 44 ≤ q.tokens + (4 - 0)) ∧
    ((base.trimmed 0).queue = [] ∧ (let s := bktS (fun q => { q with queue := [(3, .turn (.loadDataReturn 0) 0x10000)], tokens := 3 })
      (s.trimmed 0).queue = [(3, .turn (.loadDataReturn 0) 0x10000)] ∧ (chargeTokens (s.trimmed 0) 0 3).isSome = true ∧
      chargeTokens (s.trimmed 0) 0 4 = none)) ∧
    (let s := { linkS with fabric := { linkS.fabric with modroute := [(0, word (2 ^ 63 + 9 * 2 ^ 16 + 1))] } }
     (match (s.setSlot 0 { s.slot 0 with tencfg := 9 }).exitPort 0 9 0 0 with | .ok n => n == 0 | .error _ => false) = true ∧
     (match s.exitPort 0 9 0 0, base.exitPort 0 9 0 0 with | .error (0, 1), .error (0, 0) => true | _, _ => false) = true ∧
     (let b := s.setSlot 0 { s.slot 0 with queue := [(3, .datagram 0 9 0 0 (.reply 0 0 0 0 []))], tokens := 3 }
      (b.trimmed 0).queue = [(3, .datagram 0 9 0 0 (.reply 0 0 0 0 []))])) ∧
    (let s := { bktS (fun q => { q with stall := true, stallAt := 7, queue := [(3, .turn (.loadDataReturn 0) 0x10000)] }) with gtime := 10000007 }
     (s.trimmed 0).stall = true ∧ (base.trimmed 0).stall = false ∧ (s.slot 0).stallAt = 7 ∧ 7 + 10000000 ≤ s.gtime ∧ s.hub.stopped = false ∧ s.hub.elog = [] ∧ (s.hub.elogHead + 1) % 256 ≠ s.hub.elogTail) ∧
    (base.fabric.ckstate ≠ 1 ∧ bit (1 <<< 63 : Word) 63 = true ∧ 0 < base.capacity ∧ base.fabric.portsUp = []) ∧
    (let u := { readyCk with fabric := { readyCk.fabric with ckcfg := word (2 ^ 32), ckrun := word (2 ^ 32) } }
     u.ckReady = true ∧ 0 < readyCk.capacity ∧ readyCk.portPasses 0 (bits (readyCk.slot 0).tencfg 59 48) (bits (readyCk.slot 0).tencfg 31 0) = true ∧
     ({ base with fabric := { base.fabric with ckcfg := word (2 ^ 32), ckrun := word (2 ^ 32) } } : State).ckReady = false) ∧
    ((ckS 0 0 0).fabric.ckstate = 1 ∧ (∃ u ∈ (ckS 0 0 0).fabric.ckunits, u.1 = 5) ∧ (ckS 0 0 0).capacity ≤ ((ckS 0 (2 ^ 21 - 1) 0).fabric.ckdone + 1) * 65536 ∧
      ((ckS 0 (2 ^ 21 - 2) 0).fabric.ckdone + 1) * 65536 < (ckS 0 0 0).capacity) ∧
    ((ckS 7 0 0).fabric.ckunits.find? (fun u => u.1 = 5) = some (5, 0, 7, 0) ∧ 0 ∈ (ckS 7 0 0).ckPorts ∧ 0 + 8000 ≤ (ckS 7 0 0).gtime ∧
      (ckS 7 0 1).gtime < 1 + 8000 ∧ (ckS 8 0 0).fabric.ckunits.find? (fun u => u.1 = 5) = some (5, 0, 8, 0) ∧
      (let s := ckS 7 0 0
       ({ s with fabric := { s.fabric with portsUp := [1], ckrun := word (3 * 2 ^ 32) } } : State).ckPorts = [1] ∧
       ({ s with fabric := { s.fabric with portsUp := [] } } : State).ckPorts = [])) ∧
    ((5 : Nat) < 2 ^ 40 ∧ tget? (flightS (fun f => { f with sentFor := [(5, 0)] })).flight.sentFor 5 = some 0) :=
  by refine ⟨?_, ?_, ?_, ?_, ?_, ?_, ?_, ?_, ?_, ?_, ?_, ?_, ?_⟩ <;> decide +kernel

def traceS : State := (base.setAux 0 { trace := true }).setSx 0 { base.sx 0 with trsize := 1, troff := 4080 }
theorem witness_DebugAndTrace :
    ((haltedS.sx 0).halted = true ∧ (base.sx 0).halted = false ∧ (∀ m, (base.sx m).xin &&& (base.sx 0).xout = 0) ∧
      (let s := (base.setSx 0 { base.sx 0 with xout := 1 }).setSx 1 { base.sx 1 with xin := 1 }
       (s.sx 1).xin &&& (s.sx 0).xout ≠ 0) ∧ ∀ m, bits (base.sx m).trsize 19 0 = 0) ∧
    ((haltedS.ctx 0).st = .running ∧ bits (haltedS.sx 0).dbgsel 5 0 = 0 ∧ (haltedS.ctx 1).st ≠ .running) ∧
    ((∀ q ∈ haltedS.ctxs, q.1 / 64 = 0 → (haltedS.aux q.1).preqs = []) ∧ (∀ c, c < 64 → (haltedS.aux (64 * 0 + c)).inq = []) ∧
      (let s := (haltedS.setCtx 0 { haltedS.hart with st := .waiting, wait := .time 0, waitOk := true }).setAux 0 { inq := [.wake] }
       waits' s 0 (.time 0) = true ∧ (s.aux 0).inq = [.wake] ∧ (∀ q ∈ s.ctxs, q.1 / 64 = 0 → (s.aux q.1).preqs = []) ∧
       ∀ c, c < 64 → 64 * 0 + c ≠ 0 → (s.aux (64 * 0 + c)).inq = []) ∧
      (let s := haltedS.setAux 0 { preqs := [.dispatcher] }
       s.ctxs.filter (fun q => q.1 / 64 == 0) = [(0, haltedS.hart)] ∧ (s.aux 0).preqs ≠ [] ∧ (s.aux 0).fence = none ∧ haltedS.hart.st = .running)) ∧
    (let tog (x : SorusAux) : Bool := x.syncAt.any (fun b => b ≤ traceS.localTime 0 && traceS.localTime 0 < b + 1000)
     tog { base.sx 0 with syncAt := some 0 } = true ∧ tog (traceS.sx 0) = false) ∧
    ((∀ c, c < 64 → (base.aux c).trace = false) ∧ (∀ d, d < 16 → d ≠ 0 → ∀ i, i < 4 → (traceS.aux (64 * 0 + 4 * d + i)).trace = false) ∧
      (∃ i, i < 4 ∧ (traceS.aux (64 * 0 + 4 * 0 + i)).trace = true) ∧ 0 < bits (traceS.sx 0).trsize 19 0 ∧
      (traceS.sx 0).troff + 16 ≤ bits (traceS.sx 0).trsize 19 0 * 4096 ∧ (traceS.sx 0).halted = false) ∧
    (let s := { fabS (fun f => { f with rgcfg := 16 }) with gtime := 10000 }
     0 < bits s.fabric.rgcfg 11 4 ∧ 10000 ≤ s.gtime ∧ s.gtime < 2 ^ 64 ∧ bits base.fabric.rgcfg 11 4 = 0) := by
  refine ⟨⟨rfl, rfl, fun m => ?_, by decide +kernel, fun m => ?_⟩, by decide +kernel, by decide +kernel, by decide +kernel, by decide +kernel, by decide +kernel⟩
  · have : (base.sx 0).xout = 0 := rfl
    simp [this]
  · exact of_decide_eq_true (tget_all (d := ({} : SorusAux)) (P := fun x => decide (bits x.trsize 19 0 = 0)) rfl (t := base.saux) (by decide +kernel) m)

def burstS (n : Nat) : State := (hart base (fun c => { c with st := .waiting, wait := .admission })).setSorus 0 { base.sorus 0 with admq := [⟨0, 4, 0⟩], pest := n, admitted := n }
theorem witness_PowerManagement :
    ((∀ m, (base.sorus m).rpri ≤ 7) ∧ NoTrace base ∧ (∀ m, (base.sorus m).admq = [])) ∧
    (∃ g, (base.ctx g).firing ≠ none) ∧ (State.reset.ctxs.all (fun p => p.2.firing.isNone) = true) ∧
    bits (hubS (fun g => { g with mpwrcfg := word (71 * 2 ^ 42) })).hub.mpwrcfg 54 42 < 72 ∧
    (((burstS 0).sorus 0).admq = [⟨0, 4, 0⟩] ∧ (burstS 0).gtime ≤ 0 + 10 ∧ (burstS 0).admits 0 = true ∧ ((burstS 0).ctx 0).wait = .admission) ∧ (burstS 9999).admits 0 = false ∧
    (∀ r, (({ burstS 0 with gtime := 11 } : State).sorus 0).admq.head? = some r → r.at' + 10 < 11) ∧
    (let s := { base with script := [.tick 1], gtime := 99, running := true, agenda := [] }
     s.script = .tick 1 :: [] ∧ s.agenda = [] ∧ s.running = true ∧ (s.gtime + 1) % 100 = 0 ∧ (s.sorus 0).duty ≤ (s.sorus 0).target ∧
     (let y := { s.sorus 0 with target := 16 }
      y.target ≤ y.duty)) ∧
    (pausedS.paused 0 = true ∧ (burstS 0).paused 0 = false) ∧
    (base.gtime < (base.sorus 0).ballastAt + 2000 ∧ (base.sorus 0).ballastAt + 2000 ≤ ({ base with gtime := 2000 } : State).gtime) := by
  have lt : bits ((burstS 9999).sorus 0).pwrcfg 11 0 = 416 := by decide +kernel
  refine ⟨⟨fun m => ?_, noTrace_of rfl, fun m => ?_⟩, ⟨0, by decide +kernel⟩, by decide +kernel, by decide +kernel, ⟨rfl, by decide, ?_, rfl⟩, ?_, ?_, by decide +kernel, by decide +kernel, by decide +kernel⟩
  · exact of_decide_eq_true (tget_all (d := ({} : SorusSt)) (P := fun x => decide (x.rpri ≤ 7)) rfl (t := base.sori) (by decide +kernel) m)
  · exact of_decide_eq_true (tget_all (d := ({} : SorusSt)) (P := fun x => decide (x.admq = [])) rfl (t := base.sori) (by decide +kernel) m)
  · have : ((burstS 0).sorus 0).admitted = 0 := rfl
    simp [State.admits, this]
  · have h1 : ((burstS 9999).sorus 0).pest = 9999 := rfl
    have h2 : ((burstS 9999).sorus 0).admitted = 9999 := rfl
    have h3 : ((burstS 9999).sorus 0).level = 0 := rfl
    simp only [State.admits, State.budget, h1, h2, h3, lt]
    simp
    omega
  · rintro r h
    have : (({ burstS 0 with gtime := 11 } : State).sorus 0).admq.head? = some ⟨0, 4, 0⟩ := rfl
    rw [this] at h; cases h; decide

def trapS (n : Nat) : State := hart handled (fun c => { c with young := { c.young with n := n }, trapReq := some { int := false, cause := 2, val := 7 } })
def auxS (a : CtxAux) : State := handled.setAux 0 a
def eiS : State := hart (handled.setCore 0 { handled.core 0 with mtvec := 0x30001 }) (fun c => { c with sys := { c.sys with ei := true, pendEi := true, status := 8 } })
def dueS (l : Launch) : State := { launchS { l with dlDue := some 100 } with gtime := 100 }
theorem witness_FaultsAndErrors :
    (((trapS 0).ctx 0).trapReq = some { int := false, cause := 2, val := 7 } ∧ ((trapS 0).ctx 0).clean = true ∧ ((trapS 1).ctx 0).clean = false ∧
      ∃ f, ((trapS 0).ctx 0).firing = some f ∧ f.rtc = false ∧ f.order = none) ∧ HasHandler (trapS 0) 0 false 2 ∧
    (∃ f, taskS.hart.firing = some f ∧ f.order ≠ none ∧ taskS.hart.older = none) ∧
    (((auxS { lates := [9] }).aux 0).lates = [9] ∧ (auxS { lates := [9] }).ownLevel 0 = true) ∧ HasHandler (auxS { lates := [9] }) 0 false 30 ∧
    (base.eiDue 0 = false ∧ eiS.eiDue 0 = true ∧ (eiS.ctx 0).clean = true) ∧ HasHandler eiS 0 true 9 ∧
    (let a : CtxAux := { faults := [{ va := 0x10000, store := true, port := false, who := 1 }] }
     ((auxS a).aux 0).faults.length = 1 ∧ (auxS a).ownLevel 0 = true ∧ HasHandler (auxS a) 0 false 15) ∧
    (level base .u).ownLevel 0 = false ∧
    (tget? (base.part 0).launches 63 = none ∧ launch1.dlDue ≠ some 100 ∧
      (tget? ((dueS launch1).part 0).launches 0).map (·.dlDue) = some (some 100) ∧ 100 ≤ (dueS launch1).gtime) ∧
    (let l := { launch1 with hdr := { launch1.hdr with words := [0x10000, 0, 0x20000, 0, 1, 0, 1 <<< 36 ||| 1, 8 ||| 0x3FF <<< 40] }, next := 1 }
     let s := { waitS { l with dlDue := some 100 } .gbar [] with gtime := 100, hub := { base.hub with absent := (List.range 16).drop 1 } }
     let s := s.setBank 0 0 { powered := true, own := some 0 }
     let u := ({ s with now := none }).setLaunch 0 l
     l.pending = true ∧ hdrFlag l.hdr.words 3 = true ∧ hdrFlag l.hdr.words 2 = false ∧ s.ctxs.length = 1 ∧ (s.ctx 0).firing.bind (·.key) = some 0 ∧
     s.launchPaused 0 = false ∧ l.keep = [] ∧ (s.part 0).saved = [] ∧ u.allStuck 0 = true ∧ u.nextPlaces 0 0 l l.trial = none) ∧
    base.allStuck 0 = false ∧
    (let l := { launch1 with next := 1, gone := [1] }
     let s := (ofLaunch l (fun c => { c with pend := [⟨5, 6⟩] })).setAux 0 { stallOn := some (0x10000, [6]) }
     let s := { s with flight := { s.flight with combines := [(0, [{ crzK 1 3 false with waits := [(0, 6, 0)] }])] } }
     s.crzStalled 0 0 = true ∧ s.allStuck 0 = true) ∧
    (launch1.pending = true ∧ (dueS launch1).nextPlaces 0 0 launch1 launch1.trial ≠ none) ∧
    (let l := { launch1 with next := 1, dlDue := some 0 }
     let s := waitS l .gbar []
     let z := s.setSx 0 (pausedS.sx 0)
     z.allStuck 0 = true ∧ z.launchPaused 0 = true ∧ s.launchPaused 0 = false ∧
     l.pending = false ∧ s.allStuck 0 = true ∧ s.launchHarts 0 = [0] ∧ (s.ctx 0).wait.own = true ∧ (s.part 0).saved = [] ∧ 0 ≤ s.gtime) ∧
    (pausedS.paused 0 = true ∧ handled.paused 0 = false ∧ (taskTrapS.ctx 0).older = none ∧ taskTrapS.taskReady 0 = true ∧ taskLateS.taskReady 0 = false) ∧
    (let q := { copy1 with checked := true }
     (copyS q).copyHead 0 = some q ∧ q.made = none ∧ q.reads 0 = true ∧ q.reads 0x200 = false ∧ q.follow = none ∧ q.parked = false ∧
     (copyS q).hartOf q.fid = some 0 ∧ (copyS q).paused 0 = false ∧ ((copyS q).ctx 0).sys.pendEi = false) ∧
    (let s := fires base (fun f => { f with owner := some 0 })
     let serves (p : Nat × Ctx) : Bool := p.2.firing.any (fun f => f.owner = some 0)
     s.ctxs.find? serves = some (0, s.ctx 0) ∧ base.ctxs.find? serves = none) ∧
    (base.hub.stopped = false ∧ base.hub.elog = [] ∧ (base.hub.elogHead + 1) % 256 ≠ base.hub.elogTail ∧ (base.ctx 1).firing = none ∧ base.copyHead 0 = none ∧ (base.core 0).matq = [] ∧
      tget? (flightS (fun f => { f with rcopies := [(0, rcopy0)] })).flight.rcopies 0 = some rcopy0 ∧ (base.sorus 0).cache.length ≤ 0 ∧
      0 < ({ base.sorus 0 with cache := [{ tenant := 0, vrid := 0, serial := 0, result := 9, time := 0, epoch := 1, abort := false, ver := 0 }] } : SorusSt).cache.length) := by
  have m {s : State} {b : Bool} {c : Nat} (h : (s.ctx 0).priv = .m) : ¬ GoesToS s 0 b c := fun x => x.1 h
  have hh {s : State} {b : Bool} {c : Nat} (h : (s.ctx 0).priv = .m) (v : (s.core 0).mtvec = 0x30001) : HasHandler s 0 b c :=
    ⟨fun x => absurd x (m h), fun _ => by show (s.core 0).mtvec.toNat % 4 ≠ 0; rw [v]; decide⟩
  exact ⟨⟨rfl, rfl, rfl, _, rfl, rfl, rfl⟩, hh rfl rfl, ⟨_, rfl, by decide, rfl⟩, by decide +kernel, hh rfl rfl, by decide +kernel, hh rfl rfl,
    ⟨by decide +kernel, by decide +kernel, hh rfl rfl⟩, by decide +kernel, by decide +kernel, by decide +kernel, by decide +kernel, by decide +kernel, by decide +kernel, by decide +kernel, by decide +kernel, by decide +kernel, by decide +kernel, by decide +kernel, by decide +kernel⟩

def scanS (st : Nat) (test : TestSt) : State :=
  (flightS (fun f => { f with scans := [(2, { fid := 0, core := 5, pat := 0, expect := 0, key := 0x20000, autoAb := none, state := st, result := 0, since := 0
                                              paused := false, hold := false })] })).setCore 5 { base.core 5 with test := test }
theorem witness_ScanTests :
    (base.scanOn 5 = none ∧ ((scanS 1 .draining).scanOn 5).map (·.1) = some 2 ∧ ((scanS 1 .draining).scanOn 5).map (·.2.state) = some 1 ∧
      (∀ c, c < 4 → ((scanS 1 .draining).ctx (4 * 5 + c)).st = .free)) ∧
    ((tget? (scanS 2 .running).flight.scans 2).map (·.state) = some 2 ∧ tget? base.flight.scans 2 = none) ∧
    (pausedIn ((scanS 2 .running).sx 0).clk 0 (scanS 2 .running).gtime = false ∧ pausedIn (pausedS.sx 0).clk 0 200000 = true) ∧
    ((base.core 5).test = .none ∧ ((base.setCore 5 { base.core 5 with test := .held }).core 5).test ≠ .none ∧
      (base.setCore 5 { base.core 5 with test := .held }).scanOn 5 = none) := by decide +kernel

/-- The state of `withFetchWord` fetches the word placed in it; a used turn; what is due; a context that the module does not have. -/
theorem witness_StepRunsTheDecodedInstruction :
    (∃ f, base.script = [] ∧ base.agenda = [] ∧ base.spent = false ∧ base.cur < 10240 ∧ base.hart.firing = some f ∧ base.runnable base.cur = true ∧
      base.hart.st = .running ∧ base.hart.sync = false ∧ base.hart.trapReq = none ∧ base.hart.young.ended = false ∧ f.inject = false ∧ f.owner = none ∧
      (base.aux base.cur).fence = none ∧ base.sendStalls f = false ∧ base.eiDue base.cur = false ∧ (base.aux base.cur).faults = [] ∧ (base.aux base.cur).lates = [] ∧ f.rtc = false ∧
      base.resolve base.cur .fetch base.hart.pc = .ok ⟨0x10000, false⟩ ∧ tget? (base.core base.lcore).icache 0x10000 = none ∧ base.hart.pend = [] ∧
      decode [base.byte 0x10000, base.byte 0x10001, base.byte 0x10002, base.byte 0x10003] = .ok (.addi 0 0 0, [])) ∧
    (hart base (fun c => { c with pc := 0x80000000 })).resolve 0 .fetch 0x80000000 = .error 12 ∧
    (errOf (decodeWord 0)).isSome = true ∧ (State.reset.hart.firing = none ∧ State.reset.spent = true) ∧
    ((base.poke .grant).agenda = [.grant] ∧ base.lets .grant = true ∧ (base.poke .grant).agenda.find? Event.onTime = none ∧
      ((base.poke .grant).poke .railSample).agenda.find? Event.onTime = some .railSample ∧ base.lets .railSample = true) ∧ 10240 ≤ ({ base with cur := 10240 } : State).cur :=
  ⟨⟨_, rfl, rfl, rfl, by decide, rfl, rfl, rfl, rfl, rfl, rfl, rfl, rfl, rfl, by decide +kernel, rfl, rfl, rfl, rfl, ok_of (by decide +kernel), rfl, rfl, rfl⟩,
    error_of (by decide +kernel), by decide +kernel, ⟨rfl, rfl⟩, by decide +kernel, by decide⟩

theorem witness_DecodeOfEncode : encode (.vfma 2 .f32 3 4 5) = some 0x9A0A418B ∧ encode (.rmadd true 0 31 31) = some 0x3C3FF05B := ⟨rfl, by decide +kernel⟩

theorem witness_MemoryStaysCanonical : Memory.wf base.mem = true ∧ (match step base with | .next t => Memory.wf t.mem | _ => false) = true := by decide +kernel

/-- A word placed by `withFetchWord` is the one that a step runs. -/
theorem test_step_runs_the_word : (nextOf (step (State.reset.withFetchWord 32 0xFFF00293))).x 5 = 0xFFFFFFFFFFFFFFFF := by decide +kernel

end Sys2Proof.Tests
end

section
/-! Register 0 of the scalar and of the predicate file (R16, R26). -/

namespace Sys2Proof.Machine

open Sys2Proof

/-- A write of a scalar register reaches only that register of the current context, and never x0 (R16). -/
theorem wroteX_setX (s : State) (d : Reg) (v : Word) : WroteX s (s.setX d v) d v :=
  wroteX_of_regs (by rw [State.setX, setRegs_hart])

/-- A write of a predicate register reaches only that register of the current context, and never p0 (R26). -/
theorem wroteP_setP (s : State) (d : Reg3) (w : PReg) : WroteP s (s.setP d w) d w :=
  wroteP_of_regs (by rw [State.setP, setRegs_hart])

@[simp] theorem x_zero (s : State) : s.x 0 = 0 := rfl
@[simp] theorem p_zero (s : State) : s.p 0 = BitVec.allOnes 512 := rfl

theorem x_setX_zero (s : State) (v : Word) (r : Reg) : (s.setX 0 v).x r = s.x r := by
  rw [(wroteX_setX s 0 v).x r]
  exact if_neg fun ⟨isZero, nonzero⟩ => nonzero isZero

theorem p_setP_zero (s : State) (w : PReg) (r : Reg3) : (s.setP 0 w).p r = s.p r := by
  rw [(wroteP_setP s 0 w).p r]
  exact if_neg fun ⟨isZero, nonzero⟩ => nonzero isZero

/-- Settles O3: register 0 reads its constant, and a write can differ only at a register that is the one written and not 0. -/
theorem registerZeroIsHardWired : Obligations.RegisterZeroIsHardWired := by
  intro s v w
  exact ⟨x_zero s, p_zero s, x_setX_zero s v, p_setP_zero s w⟩

end Sys2Proof.Machine
end

section
/-! Products, quotients and remainders (R239, R240): the words that the machine computes are the integers of the spec, reduced. -/

namespace Sys2Proof.Machine

open Sys2Proof

/-- An instruction that puts `w` into xreg(d) computes every `v` that is `w`. -/
theorem computesX_of_putX {s : State} {i : Instr} {d : Reg} {v w : Word} (hg : Goes s) (hi : exec i s = s.putX d w) (hv : w = v) :
    ComputesX s i d v :=
  hv ▸ putX_spec s i d w hi hg

/-! ### Extensions as integers -/

theorem zeroExtend_eq_ofInt (a : Word) : a.zeroExtend 128 = BitVec.ofInt 128 a.toNat := by
  rw [BitVec.ofInt_natCast, BitVec.ofNat_toNat]

theorem lowW_eq_ofInt (a : Word) : lowW a = BitVec.ofInt 32 a.toInt :=
  (BitVec.signExtend_eq_setWidth_of_le a (by decide)).symm

/-! ### Products -/

theorem mul_eq_ofInt {n : Nat} (a b : BitVec n) : a * b = BitVec.ofInt n (a.toInt * b.toInt) := by
  rw [BitVec.ofInt_mul, BitVec.ofInt_toInt, BitVec.ofInt_toInt]

theorem lowW_mul_eq_ofInt (a b : Word) : lowW a * lowW b = BitVec.ofInt 32 (a.toInt * b.toInt) := by
  rw [BitVec.ofInt_mul, lowW_eq_ofInt, lowW_eq_ofInt]

/-- Bits [127:64] of an integer reduced to 128 bits are its quotient by 2^64, rounded down, reduced to 64 bits. -/
theorem extract_high_ofInt (p : Int) : (BitVec.ofInt 128 p).extractLsb' 64 64 = BitVec.ofInt 64 (p / 2 ^ 64) := by
  apply BitVec.eq_of_toNat_eq
  simp only [BitVec.extractLsb'_toNat, BitVec.toNat_ofInt, Nat.shiftRight_eq_div_pow]
  omega

theorem highProduct_ofInt (a b : Int) :
    highProduct (BitVec.ofInt 128 a) (BitVec.ofInt 128 b) = BitVec.ofInt 64 (a * b / 2 ^ 64) := by
  rw [highProduct, ← BitVec.ofInt_mul, extract_high_ofInt]

theorem highProduct_signed (a b : Word) :
    highProduct (a.signExtend 128) (b.signExtend 128) = BitVec.ofInt 64 (a.toInt * b.toInt / 2 ^ 64) :=
  highProduct_ofInt a.toInt b.toInt

theorem highProduct_mixed (a b : Word) :
    highProduct (a.signExtend 128) (b.zeroExtend 128) = BitVec.ofInt 64 (a.toInt * b.toNat / 2 ^ 64) := by
  rw [zeroExtend_eq_ofInt]; exact highProduct_ofInt a.toInt b.toNat

theorem highProduct_unsigned (a b : Word) :
    highProduct (a.zeroExtend 128) (b.zeroExtend 128) = BitVec.ofNat 64 (a.toNat * b.toNat / 2 ^ 64) := by
  rw [zeroExtend_eq_ofInt, zeroExtend_eq_ofInt, highProduct_ofInt, ← BitVec.ofInt_natCast]
  push_cast; rfl

/-! ### Quotients and remainders -/

/-- The one overflow included: the most negative number by -1 has the quotient 2^(n-1), which reduces to the dividend (R240). -/
theorem sdiv_eq_ofInt {n : Nat} (a b : BitVec n) : a.sdiv b = BitVec.ofInt n (a.toInt.tdiv b.toInt) := by
  apply BitVec.eq_of_toInt_eq
  rw [BitVec.toInt_sdiv, BitVec.toInt_ofInt]

theorem divS_eq {n : Nat} (a b : BitVec n) : divS a b = if b = 0 then -1 else BitVec.ofInt n (a.toInt.tdiv b.toInt) := by
  rw [divS, ← BitVec.neg_one_eq_allOnes, sdiv_eq_ofInt]; rfl

theorem divU_eq {n : Nat} (a b : BitVec n) : divU a b = if b = 0 then -1 else BitVec.ofNat n (a.toNat / b.toNat) := by
  rw [divU, ← BitVec.neg_one_eq_allOnes, BitVec.udiv_def]; rfl

theorem remS_eq {n : Nat} (a b : BitVec n) :
    remS a b = if b = 0 then a else BitVec.ofInt n (a.toInt - b.toInt * a.toInt.tdiv b.toInt) := by
  rw [remS, sdiv_eq_ofInt, BitVec.sub_eq_add_neg, Int.sub_eq_add_neg, BitVec.ofInt_add, BitVec.ofInt_neg,
    BitVec.ofInt_mul, BitVec.ofInt_toInt, BitVec.ofInt_toInt]

theorem remU_eq {n : Nat} (a b : BitVec n) : remU a b = if b = 0 then a else BitVec.ofNat n (a.toNat % b.toNat) := by
  rw [remU, BitVec.umod_def]

/-- Settles O2: each instruction puts its result into the register, and that result is the integer of R239 or R240, reduced. -/
theorem productsQuotientsAndRemainders : Obligations.ProductsQuotientsAndRemainders := by
  refine ⟨fun s rd rs rt hg => ?_, fun s rd rs rt hg => ?_⟩
  · exact ⟨computesX_of_putX hg (exec_mul ..) (mul_eq_ofInt ..),
      computesX_of_putX hg (exec_mulh ..) (highProduct_signed ..),
      computesX_of_putX hg (exec_mulhsu ..) (highProduct_mixed ..),
      computesX_of_putX hg (exec_mulhu ..) (highProduct_unsigned ..),
      computesX_of_putX hg (exec_mulw ..) (congrArg extW (lowW_mul_eq_ofInt ..))⟩
  · exact ⟨computesX_of_putX hg (exec_div ..) (divS_eq ..),
      computesX_of_putX hg (exec_divu ..) (divU_eq ..),
      computesX_of_putX hg (exec_rem ..) (remS_eq ..),
      computesX_of_putX hg (exec_remu ..) (remU_eq ..),
      computesX_of_putX hg (exec_divw ..) (congrArg extW (divS_eq ..)),
      computesX_of_putX hg (exec_divuw ..) (congrArg extW (divU_eq ..)),
      computesX_of_putX hg (exec_remw ..) (congrArg extW (remS_eq ..)),
      computesX_of_putX hg (exec_remuw ..) (congrArg extW (remU_eq ..))⟩

end Sys2Proof.Machine
end

section
/-! Control transfers (R243). -/

namespace Sys2Proof.Machine

open Sys2Proof

/-- Retiring alone goes to the next pc. -/
theorem goesTo_of_retire {s : State} {i : Instr} {npc : Word} (hg : Goes s) (hi : exec i s = .next (s.retire npc)) :
    GoesTo s i npc := by
  have ends := retire_spec s npc hg
  exact ⟨_, hi, ends.retired, ends.holds, ends.shadow, regsKept_of_regs ends.regs⟩

/-- Retiring after a change of the registers: the chunk and the status are those of the state before the change. -/
theorem setRegs_retire (s : State) (g : Regs) (npc : Word) (hg : Goes s) :
    Retired s ((s.setRegs g).retire npc) npc ∧ Holds s ((s.setRegs g).retire npc) [] ∧
    ((s.setRegs g).retire npc).hart.shadow = s.hart.shadow ∧ ((s.setRegs g).retire npc).hart.regs = g := by
  have hart := setRegs_hart s g
  have ends := retire_spec (s.setRegs g) npc (goes_of_hart (by rw [hart]) (by rw [hart]) hg)
  obtain ⟨units, status, pc, spent⟩ := ends.retired
  have holds := ends.holds
  have regs := ends.regs
  have shadow := ends.shadow
  rw [Holds, hart] at holds
  rw [hart] at regs shadow
  exact ⟨⟨unitsKept_trans (setRegs_unitsKept s g) units, statusKept_trans (setRegs_statusKept s g) status, pc, spent⟩,
    holds, shadow, regs⟩

theorem jump_aligned (s t : State) {target : Word} (h : target.toNat % 4 = 0) : s.jump t target = .next (t.retire target) := if_pos h
theorem jump_misaligned (s t : State) {target : Word} (h : target.toNat % 4 ≠ 0) :
    s.jump t target = .next (s.raise 0 target) := if_neg h
theorem branch_taken (s : State) (imm : BitVec 12) : s.branch true imm = s.jump s (s.hart.pc + branchOff imm) := rfl
theorem branch_notTaken (s : State) (imm : BitVec 12) : s.branch false imm = .next (s.retire (s.hart.pc + 4)) := rfl

/-- A branch whose flag `b` stands for the condition `taken`. -/
theorem branchesOn_of_branch {s : State} {i : Instr} {imm : BitVec 12} {b : Bool} {taken : Prop} (hg : Goes s)
    (hi : exec i s = s.branch b imm) (hb : b = true ↔ taken) : BranchesOn s i taken (branchOff imm) := by
  refine ⟨fun no => ?_, fun yes aligned => ?_, fun yes misaligned => ?_⟩
  · have hb : b = false := Bool.eq_false_iff.2 fun h => no (hb.1 h)
    exact goesTo_of_retire hg (by rw [hi, hb, branch_notTaken])
  · exact goesTo_of_retire hg (by rw [hi, hb.2 yes, branch_taken, jump_aligned s s aligned])
  · rw [hi, hb.2 yes, branch_taken, jump_misaligned s s misaligned]

/-- A jump that has linked to xreg(d); a trap at its target discards the link. -/
theorem jumpsTo_of_jump {s : State} {i : Instr} {d : Reg} {target : Word} (hg : Goes s)
    (hi : exec i s = s.jump (s.setX d (s.hart.pc + 4)) target) : JumpsTo s i d target := by
  refine ⟨fun aligned => ?_, fun misaligned => ?_⟩
  · obtain ⟨retired, holds, shadow, regs⟩ := setRegs_retire s (s.hart.regs.setX d.toNat (s.hart.pc + 4)) target hg
    exact ⟨_, hi.trans (jump_aligned _ _ aligned), retired, holds, shadow, wroteX_of_regs regs⟩
  · exact hi.trans (jump_misaligned _ _ misaligned)

/-! ### The conditions of branches -/

theorem lessS_iff (a b : Word) : lessS a b = true ↔ a.toInt < b.toInt := BitVec.slt_iff_toInt_lt
theorem lessU_iff (a b : Word) : lessU a b = true ↔ a.toNat < b.toNat := BitVec.ult_iff_toNat_lt
theorem not_lessS_iff (a b : Word) : (!lessS a b) = true ↔ b.toInt ≤ a.toInt := by
  rw [Bool.not_eq_true', ← Bool.not_eq_true, lessS_iff, not_lt]
theorem not_lessU_iff (a b : Word) : (!lessU a b) = true ↔ b.toNat ≤ a.toNat := by
  rw [Bool.not_eq_true', ← Bool.not_eq_true, lessU_iff, not_lt]

/-- Settles O4: every transfer is a branch on its condition or a jump to its target, and these do what R243 says. -/
theorem controlTransfersReachTheirTargets : Obligations.ControlTransfersReachTheirTargets := by
  intro s rd rs rt i j hg
  exact ⟨branchesOn_of_branch hg (exec_beq ..) beq_iff_eq,
    branchesOn_of_branch hg (exec_bne ..) bne_iff_ne,
    branchesOn_of_branch hg (exec_blt ..) (lessS_iff ..),
    branchesOn_of_branch hg (exec_bge ..) (not_lessS_iff ..),
    branchesOn_of_branch hg (exec_bltu ..) (lessU_iff ..),
    branchesOn_of_branch hg (exec_bgeu ..) (not_lessU_iff ..),
    jumpsTo_of_jump hg (exec_jal ..),
    jumpsTo_of_jump hg (by rw [← setBits_clear1]; exact exec_jalr ..)⟩

end Sys2Proof.Machine
end

section
/-! The context of a killed firing (R431, R432): Free, with nothing in it but what it has come to know of versions. Everything a
kill does besides leaves the contexts alone, but that an answer to a PREQ may reach one. -/

namespace Sys2Proof.Machine

open Sys2Proof

/-! ### What leaves every context alone -/

/-- Repeating an operation that leaves every context alone does so. -/
theorem foldl_ctxs {α : Type} (f : State → α → State) (hf : ∀ t a, (f t a).ctxs = t.ctxs) (l : List α) (s : State) :
    (l.foldl f s).ctxs = s.ctxs :=
  foldl_keeps (P := fun t => t.ctxs = s.ctxs) f l (fun t ht a _ => (hf t a).trans ht) s rfl

theorem ctx_of_ctxs {s t : State} (h : t.ctxs = s.ctxs) (j : Nat) : t.ctx j = s.ctx j := by unfold State.ctx; rw [h]

@[simp] theorem elog_ctxs (s : State) (k t L : Nat) (a d : Word) : (s.elog k t L a d).ctxs = s.ctxs := by
  obtain ⟨_, _, _, e⟩ := elog_eq s k t L a d; rw [e]

@[simp] theorem capEvent_ctxs (s : State) (h evt n : Nat) : (s.capEvent h evt n).ctxs = s.ctxs := by
  obtain ⟨_, e | e⟩ := capEvent_eq s h evt n
  · rw [e]
  · rw [e]; rfl

@[simp] theorem setLaunch_ctxs (s : State) (k : Nat) (l : Launch) : (s.setLaunch k l).ctxs = s.ctxs := rfl
@[simp] theorem setBank_ctxs (s : State) (L b : Nat) (k : Bank) : (s.setBank L b k).ctxs = s.ctxs := rfl
@[simp] theorem bankDown_ctxs (s : State) (L b : Nat) : (s.bankDown L b).ctxs = s.ctxs := rfl
@[simp] theorem releaseRows_ctxs (s : State) (L fid : Nat) : (s.releaseRows L fid).ctxs = s.ctxs := rfl
@[simp] theorem keepSerial_ctxs (s : State) (f : Firing) : (s.keepSerial f).ctxs = s.ctxs := rfl

@[simp] theorem countFault_ctxs (s : State) (f : Firing) : (s.countFault f).ctxs = s.ctxs := by
  unfold State.countFault; split <;> simp

@[simp] theorem backInvalidate_ctxs (s : State) (ls : List Nat) : (s.backInvalidate ls).ctxs = s.ctxs :=
  foldl_ctxs _ (fun t a => by dsimp only; split <;> rfl) ls s

@[simp] theorem dropCached_ctxs (s : State) (ls : List Nat) : (s.dropCached ls).ctxs = s.ctxs := by
  unfold State.dropCached; split <;> rfl

@[simp] theorem writeNat_ctxs (s : State) (k n v : Nat) : (s.writeNat k n v).ctxs = s.ctxs := by
  unfold State.writeNat State.writeBytes State.linesWritten; dsimp only; split <;> simp

@[simp] theorem trace_ctxs (s : State) (h type : Nat) (w : Word) : (s.trace h type w).ctxs = s.ctxs := by
  unfold State.trace State.traceRecord; dsimp only
  repeat' split
  all_goals simp

@[simp] theorem discarded_ctxs (s : State) (h : Nat) : (s.discarded h).ctxs = s.ctxs := by
  unfold State.discarded; dsimp only; split <;> simp

@[simp] theorem releaseBanks_ctxs (s : State) (L fid retain actor : Nat) : (s.releaseBanks L fid retain actor).ctxs = s.ctxs :=
  foldl_ctxs _ (fun t b => by
    dsimp only
    repeat' split
    all_goals simp) _ s

@[simp] theorem orphanCopies_ctxs (s : State) (fid : Nat) : (s.orphanCopies fid).ctxs = s.ctxs :=
  foldl_ctxs _ (by intros; rfl) _ _

@[simp] theorem launchEnd_ctxs (s : State) (L : Nat) (f : Firing) (halted : Bool) : (s.launchEnd L f halted).ctxs = s.ctxs := by
  unfold State.launchEnd; dsimp only
  repeat' split
  all_goals simp

@[simp] theorem orderPoint_ctxs (s : State) (f : Firing) : (s.orderPoint f).ctxs = s.ctxs := by
  unfold State.orderPoint; split
  · exact foldl_ctxs _ (fun t p => by split <;> rfl) _ _
  · rfl

@[simp] theorem dlStart_ctxs (s : State) (k : Nat) : (s.dlStart k).ctxs = s.ctxs := by
  unfold State.dlStart
  repeat' split
  all_goals simp

@[simp] theorem crzEnded_ctxs (s : State) (L : Nat) : (s.crzEnded L).ctxs = s.ctxs := by
  unfold State.crzEnded
  refine (foldl_ctxs _ (fun t c => foldl_ctxs _ (fun u w => ?_) _ t) _ _).trans ?_
  · split <;> simp
  · split <;> rfl

@[simp] theorem settleKeep_ctxs (s : State) (n : Nat) : (s.settleKeep n).ctxs = s.ctxs := by
  unfold State.settleKeep; split <;> rfl

@[simp] theorem pokeEnd_ctxs (s : State) (L p : Nat) (f : Firing) : (s.pokeEnd L p f).ctxs = s.ctxs := by
  have barriers (t : State) (g : Nat → Event) : ((List.range 4).foldl (fun t n => t.poke (g n)) t).ctxs = t.ctxs :=
    foldl_ctxs _ (by intros; rfl) _ t
  unfold State.pokeEnd; dsimp only
  repeat' split
  all_goals simp [barriers]

@[simp] theorem redeliver_ctxs (s : State) (h : Nat) (f : Firing) : (s.redeliver h f).ctxs = s.ctxs := by
  unfold State.redeliver; dsimp only
  repeat' split
  all_goals simp

/-! ### Answers to PREQ -/

/-- An answer of no version leaves what a context has come to know. -/
theorem ctxAnswer_floor (c : Ctx) (id : Nat) (a : Answer) : (c.answer id a 0).floor = c.floor := by
  unfold Ctx.answer; split
  · rfl
  · exact Nat.max_zero _

theorem answer_floor (s : State) (fid id : Nat) (v : Word) (j : Nat) : ((s.answer fid id v 0).ctx j).floor = (s.ctx j).floor := by
  unfold State.answer State.answerWith State.answerIf
  split
  · split
    · rfl
    · next h _ _ =>
      rw [setCtx_ctx]; split
      · next same => rw [ctxAnswer_floor, same]
      · rfl
  · repeat' split
    all_goals rfl

theorem preqOutcome_floor (s : State) (id idx code j : Nat) : ((s.preqOutcome id idx code).ctx j).floor = (s.ctx j).floor := by
  unfold State.preqOutcome; split
  · rfl
  · dsimp only; split
    · rw [answer_floor]; rfl
    · rfl

theorem preqsDone_floor (s : State) (h code j : Nat) : ((s.preqsDone h code).ctx j).floor = (s.ctx j).floor := by
  unfold State.preqsDone; dsimp only; split
  · rfl
  · exact foldl_keeps (P := fun t => (t.ctx j).floor = (s.ctx j).floor) _ _ (fun t ht r _ => (preqOutcome_floor ..).trans ht) _ rfl

/-! ### The end of a firing -/

theorem freeCtx_ctx_same (s : State) (h : Nat) : (s.freeCtx h).ctx h = { floor := (s.ctx h).floor } := by
  unfold State.freeCtx; dsimp only
  rw [setAux_ctx, setCtx_ctx_same, ctx_of_ctxs (foldl_ctxs _ (by intros; rfl) _ s)]

/-- What comes after the freeing leaves the context Free, and what came before it has left the version known. -/
theorem ctx_of_freed {s t u : State} {h : Nat} (ht : t.ctxs = (u.freeCtx h).ctxs) (hu : (u.ctx h).floor = (s.ctx h).floor) :
    t.ctx h = { floor := (s.ctx h).floor } := by
  rw [ctx_of_ctxs ht, freeCtx_ctx_same, hu]

theorem endFiring_ctx_same {s : State} {h : Nat} {f : Firing} (hf : (s.ctx h).firing = some f) (halted : Bool) (retain actor : Nat) :
    (s.endFiring h halted retain actor).ctx h = { floor := (s.ctx h).floor } := by
  have faults (l : List EngFault) (t : State) : (l.foldl (fun t _ => t.countFault f) t).ctxs = t.ctxs :=
    foldl_ctxs _ (fun t _ => countFault_ctxs t f) l t
  unfold State.endFiring
  rw [hf]; dsimp only
  refine ctx_of_freed (u := ?u) ?freed ?before
  case freed =>
    rw [pokeEnd_ctxs]; split
    · rw [dlStart_ctxs]; exact crzEnded_ctxs ..
    · exact crzEnded_ctxs ..
  case before =>
    rw [← preqsDone_floor s h (if halted then 1 else 7) h]
    refine congrArg Ctx.floor (ctx_of_ctxs ?_ h)
    repeat' split
    all_goals simp [faults]

theorem kill_ctx_same {s : State} {h : Nat} {f : Firing} (hf : (s.ctx h).firing = some f) (hw : Bool) :
    (s.kill h hw).ctx h = { floor := (s.ctx h).floor } := by
  have same : (s.discarded h).ctx h = s.ctx h := ctx_of_ctxs (discarded_ctxs ..) h
  have ended (t : Thallus) := endFiring_ctx_same (s := { s.discarded h with thallus := t }) (h := h) (same ▸ hf) false 0 0
  unfold State.kill
  rw [hf]; dsimp only
  rw [poke_ctx, ← same]
  split
  · rw [ctx_of_ctxs (redeliver_ctxs ..)]; exact ended _
  · exact ended _

/-- A firing that a trap kills leaves its context Free (R431). -/
theorem killByTrap_ctx_same {s : State} {h : Nat} {f : Firing} (hf : (s.ctx h).firing = some f) (cause : Nat) :
    (s.killByTrap h cause).ctx h = { floor := (s.ctx h).floor } := by
  have same (k t L : Nat) (a d : Word) : ((s.countFault f).elog k t L a d).ctx h = s.ctx h := ctx_of_ctxs (by simp) h
  unfold State.killByTrap
  rw [hf]; dsimp only
  rw [kill_ctx_same (same .. ▸ hf), same]

end Sys2Proof.Machine
end

section
/-! Chunk bounds (R134, R245, R373), and what an ordered task meets at one (R114, R427, R431). -/

namespace Sys2Proof.Machine

open Sys2Proof

/-! ### Bounds of a firing that is no ordered task -/

/-- An instruction that only ends its chunk. -/
theorem defersEnd_of_stepEnd {s : State} {i : Instr} (hu : Unordered s) (hi : exec i s = .next s.stepEnd) : DefersEnd s i [] := by
  obtain ⟨ends, bounded⟩ := stepEnd_spec s hu
  exact ⟨_, hi, ends.retired, ends.holds, ends.shadow, regsKept_of_regs ends.regs, bounded⟩

theorem fills_iff (k : Chunk) : fills k = true ↔ k.n = 2047 ∨ k.lines.length = 128 ∨ k.rset.length = 512 := by
  simp [fills, or_assoc]

/-- Whether a bound has fallen depends on the chunks before the instruction alone, which a write of registers leaves as they were. -/
theorem bounded_of_setRegs {s t : State} {g : Regs} (h : Bounded (s.setRegs g) t) : Bounded s t := by
  rwa [Bounded, setRegs_hart] at h

theorem setRegs_step4_bounded (s : State) (g : Regs) (hu : Unordered s) (hf : fills s.hart.young = true) :
    Bounded s (s.setRegs g).step4 := by
  have hart := setRegs_hart s g
  exact bounded_of_setRegs (retire_bounded _ _ (unordered_of_firing (by rw [hart]) hu) (by rw [hart]; exact hf))

theorem setRegs_step4_noBound (s : State) (g : Regs) (hf : fills s.hart.young = false) :
    (s.setRegs g).step4.hart.older = s.hart.older ∧
    (s.setRegs g).step4.hart.young = { s.hart.young with n := s.hart.young.n + 1 } := by
  have hart := setRegs_hart s g
  obtain ⟨-, ticked, -⟩ := retire_noBound (s.setRegs g) ((s.setRegs g).hart.pc + 4) (by rw [NoBound, hart]; exact hf)
  rw [State.step4, ticked, hart]
  exact ⟨rfl, rfl⟩

/-! ### Bounds of an ordered task -/

/-- A context whose task has met a trap: it issues nothing more, and the trap waits. -/
def Ctx.trapped (c : Ctx) (r : TrapReq) : Ctx := { c with sync := true, trapReq := some r }

/-- A bound of an ordered task other than its HALT, with something executed, is OTBOUND, which waits (R114). -/
theorem endChunk_orderedTask {s : State} {h : Nat} {f : Firing} {o : Nat × Nat} (hf : (s.ctx h).firing = some f)
    (ho : f.order = some o) (hh : (s.ctx h).young.halts = false) (hn : (s.ctx h).young.n ≠ 0) :
    s.endChunk h = (s.setCtx h ((s.ctx h).trapped { int := false, cause := 29, val := 0 })).poke (.localCommit h) := by
  have notClean : (s.ctx h).clean = false := by simp [Ctx.clean, hn]
  rw [State.endChunk, if_pos (by simp [hf, ho, hh]), State.taskTrap, if_neg (by simp [notClean])]
  rfl

theorem stepEnd_orderedTask {s : State} {f : Firing} {o : Nat × Nat} (hf : s.hart.firing = some f) (ho : f.order = some o)
    (hh : s.hart.young.halts = false) :
    UnitsKept s s.stepEnd ∧
    s.stepEnd.hart = (s.hart.ticked (s.hart.pc + 4)).trapped { int := false, cause := 29, val := 0 } ∧
    .localCommit s.cur ∈ s.stepEnd.agenda := by
  obtain ⟨units, ticked, -⟩ := advance_spec s (s.hart.pc + 4)
  have step : s.stepEnd = ((s.advance (s.hart.pc + 4)).setHart ((s.hart.ticked (s.hart.pc + 4)).trapped
      { int := false, cause := 29, val := 0 })).poke (.localCommit s.cur) := by
    rw [← ticked, ← units.cur]
    refine endChunk_orderedTask (f := f) (o := o) ?_ ho ?_ ?_ <;> rw [← State.hart, ticked]
    · exact hf
    · exact hh
    · exact Nat.succ_ne_zero _
  rw [step]
  refine ⟨unitsKept_trans units (unitsKept_trans (setHart_unitsKept ..) (poke_unitsKept ..)), ?_, ?_⟩
  · rw [poke_hart, setHart_hart]
  · simp [State.poke]

/-! ### The trap of an ordered task -/

theorem localDone_noOlder {s : State} {h : Nat} (ho : (s.ctx h).older = none) : s.localDone h = s.taskTrapDue h := by
  rw [State.localDone, ho]

theorem taskTrapDue_notReady {s : State} {h : Nat} {r : TrapReq} (hr : (s.ctx h).trapReq = some r) (hn : s.taskReady h = false) :
    s.taskTrapDue h = s := by
  rw [State.taskTrapDue, hr]; simp [hn]

theorem taskTrapDue_ready {s : State} {h : Nat} {r : TrapReq} (hr : (s.ctx h).trapReq = some r) (hy : s.taskReady h = true)
    (hp : s.paused (h / 64) = false) (hd : s.otFails h (s.ctx h).young = false) :
    s.taskTrapDue h = s.poke (.trapEntry h r.int r.cause r.val) := by
  rw [State.taskTrapDue, hr]; simp [hy, hp, hd]

/-- A trap of an ordered task kills it (R431). -/
theorem takeTrap_orderedTask {s : State} {h : Nat} {f : Firing} {o : Nat × Nat} (hf : (s.ctx h).firing = some f)
    (ho : f.order = some o) (int : Bool) (c : Nat) (v : Word) : s.takeTrap h int c v = s.killByTrap h c := by
  rw [State.takeTrap, hf]; simp [ho]

theorem trapNow_taskReady {s : State} {h : Nat} {r : TrapReq} (hr : (s.ctx h).trapReq = some r) (ho : (s.ctx h).older = none)
    (hy : s.taskReady h = true) : s.trapNow h r = s.takeTrap h r.int r.cause r.val := by
  simp [State.trapNow, hr, ho, hy]

/-- Settles O5: the bounds by what ending a chunk does, the ones of an ordered task by the trap that it then waits for. -/
theorem chunkBounds : Obligations.ChunkBounds := by
  refine ⟨fun s fm p q rs rd hu => ?_, fun s rd rs i hu => ?_, fun s f o hf ho hh => ?_, fun s h f o r hf ho older hr => ?_⟩
  · exact ⟨defersEnd_of_stepEnd hu (exec_fence ..), defersEnd_of_stepEnd hu (exec_chunkend ..)⟩
  · refine ⟨_, exec_addi .., fun full => ?_, fun notN notLines notRset => ?_⟩
    · exact setRegs_step4_bounded s _ hu ((fills_iff _).2 full)
    · exact setRegs_step4_noBound s _ (Bool.eq_false_iff.2 fun full => by
        rcases (fills_iff _).1 full with h | h | h
        exacts [notN h, notLines h, notRset h])
  · obtain ⟨units, hart, due⟩ := stepEnd_orderedTask hf ho hh
    exact ⟨_, exec_chunkend .., units, by rw [hart]; rfl, by rw [hart]; exact hf, by rw [hart]; rfl, by rw [hart]; rfl,
      regsKept_of_regs (by rw [hart]; rfl), due⟩
  · refine ⟨fun notReady => ?_, fun ready running inTime => ?_, fun ready => ?_⟩
    · rw [localDone_noOlder older, taskTrapDue_notReady hr notReady]
    · rw [localDone_noOlder older, taskTrapDue_ready hr ready running inTime]
    · rw [trapNow_taskReady hr older ready, takeTrap_orderedTask hf ho]
      exact killByTrap_ctx_same hf r.cause

end Sys2Proof.Machine
end
